-- ==== Sys2Proof/Word.lean ====
section
/-! DEFINITION. The word types of the UBY-62 (R1, R133), and association lists: plain data for
everything the machine keeps by number (threads, cores, sites, commands). -/

namespace Sys2Proof

abbrev Byte := BitVec 8
abbrev Word := BitVec 32
abbrev DWord := BitVec 64
abbrev QWord := BitVec 128

/-- An association list. A key that is not listed reads as the default its reader names. -/
abbrev AMap (κ α : Type) := List (κ × α)

namespace AMap

variable {κ α : Type} [DecidableEq κ]

/-- The value listed first under `k`. -/
def find? (k : κ) : AMap κ α → Option α
  | [] => none
  | (k', v) :: m => if k' = k then some v else find? k m

/-- The value under `k`, or `d` where none is listed. -/
def getD (m : AMap κ α) (k : κ) (d : α) : α := (find? k m).getD d

/-- `m` with `v` under `k`, in the place the key had, or at the end. -/
def set (k : κ) (v : α) : AMap κ α → AMap κ α
  | [] => [(k, v)]
  | (k', v') :: m => if k' = k then (k, v) :: m else (k', v') :: set k v m

/-- `m` without `k`. -/
def erase (k : κ) (m : AMap κ α) : AMap κ α := m.filter fun p => !decide (p.1 = k)

/-- The keys listed, in order. -/
def keys (m : AMap κ α) : List κ := m.map Prod.fst

/-- The values listed, in order. -/
def vals (m : AMap κ α) : List α := m.map Prod.snd

end AMap

/-- The low `8 * n` bits of a number as `n` bytes, lowest first (R1: little-endian). -/
def bytesOfNat : (n : Nat) → Nat → List Byte
  | 0, _ => []
  | n + 1, v => BitVec.ofNat 8 v :: bytesOfNat n (v / 256)

/-- The number whose little-endian bytes are `bs` (R1). -/
def natOfBytes : List Byte → Nat
  | [] => 0
  | b :: bs => b.toNat + 256 * natOfBytes bs

/-- Bits `hi` to `lo` of a number (R1: ranges are written msb:lsb). -/
def bitsOf (v hi lo : Nat) : Nat := v / 2 ^ lo % 2 ^ (hi + 1 - lo)

/-- Bit `i` of a number. -/
def bitOf (v i : Nat) : Bool := v / 2 ^ i % 2 == 1

/-- `v` with its bits `hi` to `lo` replaced by the low bits of `f`. -/
def setBits (v hi lo f : Nat) : Nat :=
  v / 2 ^ (hi + 1) * 2 ^ (hi + 1) + f % 2 ^ (hi + 1 - lo) * 2 ^ lo + v % 2 ^ lo

/-- The number with bit `b` where the Boolean holds. -/
def bit01 (b : Bool) : Nat := if b then 1 else 0

end Sys2Proof
end

