-- ==== Sys2Proof/Machine/Cause.lean ====
section
/-! DEFINITION. The cause codes of R319, as the numbers that TRAPCAUSE, trap reports, completion
words and task records hold. -/

namespace Sys2Proof.Cause

def none : Nat := 0x00
def zeroWord : Nat := 0x01
def illegalOpcode : Nat := 0x02
def reservedBits : Nat := 0x03
def illegalLength : Nat := 0x04
def illegalType : Nat := 0x05
def illegalRegister : Nat := 0x06
def lookaheadViolation : Nat := 0x07
def illegalConvergence : Nat := 0x08
def privileged : Nat := 0x09
def illegalSubop : Nat := 0x0A
def codeBounds : Nat := 0x0B
def callStackOverflow : Nat := 0x0C
def nonresident : Nat := 0x20
def protection : Nat := 0x21
def alignment : Nat := 0x22
def addressForm : Nat := 0x23
def scratchBounds : Nat := 0x24
def operandBufferRange : Nat := 0x25
def accumulatorRange : Nat := 0x26
def dataUncorrectable : Nat := 0x27
def tsrInvalid : Nat := 0x60
def windowRights : Nat := 0x61
def windowBounds : Nat := 0x62
def nmcmdInvalid : Nat := 0x63
def matrixShape : Nat := 0x64
def leaseInvalid : Nat := 0x65
def topologyStale : Nat := 0x66
def counterUnderflow : Nat := 0x80
def taskRecordInvalid : Nat := 0x81
def readyQueueOverflow : Nat := 0x82
def ringInvalid : Nat := 0x83
def barrierMismatch : Nat := 0x84
def sealInvalid : Nat := 0xA0
def sealCollisionOverflow : Nat := 0xA1
def sealRefOverflow : Nat := 0xA2
def sealPoolFull : Nat := 0xA3
def breakpoint : Nat := 0xC0
def preempt : Nat := 0xC1
def watchdog : Nat := 0xC2
def coreRetired : Nat := 0xC3
def traceDenied : Nat := 0xC4
/-- TRAP #n raises 0xE0 + n (R290). -/
def software (n : Nat) : Nat := 0xE0 + n

/-- The codes that R319 names, but for NONE. -/
def named : List Nat :=
  List.range' 0x01 12 ++ List.range' 0x20 8 ++ List.range' 0x60 7 ++ List.range' 0x80 5 ++ List.range' 0xA0 4 ++
    List.range' 0xC0 5 ++ List.range' 0xE0 32

/-- The codes that a launch's DONE may record: PREEMPT is a save area's alone. -/
def dones : List Nat := named.filter (· != preempt)

/-- The codes that an error report may name (R339): CORE_RETIRED is a task's or a launch's alone. -/
def reports : List Nat := dones.filter (· != coreRetired)

/-- The codes that R319 lets the completion of an engine command record. -/
def completions : List Nat :=
  [nonresident, protection, dataUncorrectable, windowRights, topologyStale, ringInvalid, sealInvalid]

/-- One of a list of codes, by a free number. -/
def pick (cs : List Nat) (f : Nat) : Nat := cs.getD (f % cs.length) 0

/-- The causes for which TRAPADDR holds the lane's address (R321). -/
def hasAddress (c : Nat) : Bool :=
  (0x20 ≤ c && c ≤ 0x27) || c == 0x61 || c == 0x62 || (0xA0 ≤ c && c ≤ 0xA3)

end Sys2Proof.Cause
end

