-- ==== Sys2Proof/Terms.lean ====
section
/-! DEFINITION. The terms instructions and steps are made of: thread and squad names, the fields of
an extended form, packets, the device registers software writes, and the steps of the module that no
instruction word names (95_what_each_step_holds.md), as the machine's agenda holds them. -/

namespace Sys2Proof

/-- A thread by its team's serial number, its squad index and its lane (R32). -/
structure Tid where
  team : Nat
  squad : Nat
  lane : Nat
deriving DecidableEq, Repr

/-- A squad by its team's serial number and its squad index (R32). -/
structure Sid where
  team : Nat
  squad : Nat
deriving DecidableEq, Repr

/-- The squad a thread belongs to. -/
def Tid.sid (t : Tid) : Sid := ⟨t.team, t.squad⟩

/-- The fields of an extended form: word 0 in the B3 layout (R175), words 1 and 2 (R176) and the
64-bit literal where LEN has bit 1 set (R179). `short` marks the base-plus-literal form (R174, LEN 10)
of BR, CALL, ST and PREF, which carries the fields of its base layout only. -/
structure Ext where
  bk : Bool
  b : BitVec 7
  a : BitVec 7
  d : BitVec 7
  rf : BitVec 3
  e : BitVec 7
  c : BitVec 7
  ty : BitVec 5
  la : BitVec 4
  gn : Bool
  gp : BitVec 3
  pm2 : BitVec 5
  pm1 : BitVec 5
  imm : BitVec 8
  sub : BitVec 8
  hint : BitVec 3
  sel : BitVec 3
  lit : Option DWord
  short : Bool
deriving DecidableEq, Repr

/-- An extended form with every field zero. -/
def Ext.zero : Ext :=
  { bk := false, b := 0, a := 0, d := 0, rf := 0, e := 0, c := 0, ty := 0, la := 0, gn := false,
    gp := 0, pm2 := 0, pm1 := 0, imm := 0, sub := 0, hint := 0, sel := 0, lit := none,
    short := false }

/-- The window table entry a command carries to its target (R127). -/
structure WinEntry where
  valid : Bool
  radd : Bool
  rget : Bool
  rput : Bool
  modId : BitVec 16
  site : Nat
  base : DWord
  len : Nat
  arrived : DWord
  tag : Word
  rsv : Bool
deriving DecidableEq, Repr

/-- The planes a packet travels (R282). -/
inductive Plane where
  | reticle | mesh | external
deriving DecidableEq, Repr

/-- A packet of the mesh or the external plane: its Lincor header (R389) and its payload, with the
command it belongs to at its sender, its number among the parts of that command and how many parts
there are, the window entry and the element type the target needs, the first four payload bytes of its
command (R316), the cause it reports (0 for none), the site it stands at, and the edge it entered by
(none at its source), whether it has come in from the external plane, and the topology version that its
sender names in
it (R313, R398). -/
structure Packet where
  ptype : BitVec 8
  reason : BitVec 8
  ver : BitVec 16
  srcMod : BitVec 16
  dstMod : BitVec 16
  srcSite : Nat
  dstSite : Nat
  hops : Nat
  vc : Nat
  srcCore : Nat
  tag : Word
  off : Nat
  len : Nat
  seq : DWord
  payload : List Byte
  cmd : Nat
  part : Nat
  total : Nat
  win : WinEntry
  ety : BitVec 5
  head : Nat
  cause : Nat
  plane : Plane
  at_ : Nat
  came : Option Nat
  landed : Bool
  named : BitVec 16
deriving DecidableEq, Repr

/-- The delivery modes of the external network that the endpoint uses (R401, R402). -/
inductive DeliveryMode where
  | rud | rudi | rod
deriving DecidableEq, Repr

/-- A packet as the external network is given it (R402): its delivery mode and its entropy value. -/
structure Wire where
  packet : Packet
  mode : DeliveryMode
  entropy : Nat
deriving DecidableEq, Repr

/-- What a control packet (TYPE 0x20, R390) carries: a commit broadcast with its swap flag, a commit request,
an occupancy report, a steering request, or the answer to one. -/
inductive Control where
  | commit (ver : Nat) (swap : Bool)
  | request (site : Nat) (ver : Option Nat)
  | occupancy (site occ : Nat)
  | steering (site w src dst : Nat)
  | answer (site w : Nat) (agree : Bool)
deriving DecidableEq, Repr

/-- A packet on the module, by its serial number, or one that comes in from another module.
DESIGN CHOICE (assumption 1). -/
inductive PacketRef where
  | known (p : Nat)
  | fromOutside (p : Packet)
deriving DecidableEq, Repr

/-- The key of a replay-filter entry (R408). -/
structure ReplayKey where
  modId : BitVec 16
  site : Nat
  tag : Word
deriving DecidableEq, Repr

/-- A host access to the HDM range (R349, R354), or its read of n bytes of BAR0 (R350). -/
inductive HostAccess where
  | read (n : Nat)
  | write (bytes : List Byte)
  | bar0 (n : Nat)
deriving DecidableEq, Repr

/-- The device registers that software writes, by the site or number that distinguishes them. -/
inductive DevReg where
  | lqbase (q : Nat) | lqcfg (q : Nat) | lqtail (q : Nat) | lqhead (q : Nat) | lqpt (q : Nat)
  | sealhome (n : Nat) | sealpbase (site : Nat) | sealpcfg (site : Nat) | sealpfree (site : Nat)
  | trapqbase (site : Nat) | trapqcfg (site : Nat) | trapqtail (site : Nat) | trapqhead (site : Nat)
  | trapact (site : Nat)
  | wregbase (site : Nat) | wregcfg (site : Nat)
  | biasbase (site : Nat) | biascmd (site : Nat)
  | l2cfg (site : Nat) | l2live (site : Nat) | chremap (site : Nat)
  | ctxbase (core slot : Nat) | obrec (core n : Nat)
  | netver (site : Nat) | netcommit (site : Nat) | netroot | shadowBank (site off : Nat)
  | activeBank (site off : Nat)
  | optlink (site k : Nat) | optskew (site : Nat) | steercfg (site : Nat)
  | linkdly (site edge : Nat) | wtstatus | dbgstate | pwrstat (site : Nat)
  | bltcfg (site st : Nat) | bltbase (site st : Nat) | blttail (site st : Nat)
  | blthead (site st : Nat) | bltstat (site st : Nat)
  | lupcfg (l : Nat) | luppol (l : Nat) | lupgate (l : Nat) | lupnrep (l : Nat) | lupspare (l : Nat)
  | lupbank (site l : Nat) | lupver (site l : Nat) | lupstat (site l : Nat)
  | lupcnt (site l e : Nat)
  | sfault (core : Nat) | sfaddr (core : Nat) | defmap (off : Nat)
deriving DecidableEq, Repr

/-- What a soft error strikes (R337, R338). -/
inductive SoftTarget where
  | dram (pa : Nat) | l1Line (core pa : Nat) | l2Line (site pa : Nat)
  | scratch (team half off : Nat) | accu (team half off : Nat) | opBuf (core off : Nat)
  | register (t : Tid) (r : Nat) | channel (site c : Nat)
deriving DecidableEq, Repr

/-- A soft error: where, and how many bits of one protected unit it corrupts (R337); at a whole DRAM channel it is
the channel's failure (R384, R385). With no bits it closes a run of corrected errors (R339). -/
structure SoftError where
  target : SoftTarget
  bits : Nat
deriving DecidableEq, Repr

/-- What is done through the debug port (R365): writes of thread state, of a scratchpad byte, and of a device register;
and reads of DBGSTATE, the module's identity, a slot of a Blotter stream, a core's DBGCORE, a thread's record, a
reticle's error log, and a device register. -/
inductive DebugWrite where
  | reg (t : Tid) (r : Nat) (v : Word)
  | pred (t : Tid) (p : Nat) (v : Bool)
  | pc (t : Tid) (v : DWord)
  | scratch (team half off : Nat) (v : Byte)
  | device (r : DevReg) (v : DWord)
  | thread (t : Tid) (word : Nat) (v : DWord)
  | readState
  | readIdentity
  | readRecord (site strm slot : Nat)
  | readCore (phys : Nat)
  | readThread (t : Tid)
  | readErrors (site : Nat)
  | readDevice (r : DevReg)
deriving DecidableEq, Repr

/-- The steps of the module that no instruction word names, with what each happens to. The agenda of
the machine holds these; each is also a constructor of Instr under the same name.
DESIGN CHOICE (assumption 91). DEDUCED (assumption 99). -/
inductive Ev where
  | realignResume (core : Nat)
  | waitwWake (t : Tid)
  | waitwTimeout (t : Tid)
  | pagereqComplete (req : Nat)
  | matrixOpComplete (core : Nat)
  | sealWalkerDrop (site : Nat)
  | longLatencyComplete (t : Tid) (w : Nat)
  | longLatencyFault (t : Tid) (w : Nat) (cause : BitVec 8) (addr : DWord)
  | convergenceTimeout (q : Sid)
  | watchdog (t : Tid)
  | exitTrackerResume (q : Sid)
  | commandComplete (c : Nat)
  | copyLineDelivered (c half line : Nat)
  | lqtailWrite (q : Nat) (v : Word)
  | lqcfgWrite (q : Nat) (v : Word)
  | launchRecordRead (q : Nat)
  | launchPageResume (q : Nat)
  | launchComplete (lid : Nat)
  | teamPlace (lid : Nat)
  | teamRelease (team : Nat)
  | taskDispatch (site : Nat)
  | leaseGrant (core : Nat)
  | leaseIdleExpiry (core : Nat)
  | congestionSample (site : Nat) (occ : List Nat)
  | ringAppend (p : Nat)
  | putArrive (p : Nat)
  | putAck (p : Nat)
  | getRequestArrive (p : Nat)
  | getReplyArrive (p : Nat)
  | nakReceive (p : Nat)
  | packetHop (p : PacketRef)
  | nmcmdPacketArrive (c site stack : Nat)
  | trapReport (site : Nat)
  | trapqheadWrite (site : Nat) (v : Word)
  | trapactResume (site : Nat) (idx : Word)
  | trapactForward (site : Nat) (idx : Word)
  | trapactEndThreads (site : Nat) (idx : Word)
  | trapactEndLaunch (site : Nat) (idx : Word)
  | l2cfgWrite (site : Nat) (v : DWord)
  | l2FlushDone (site : Nat)
  | l2liveWrite (site : Nat) (v : DWord)
  | chremapWrite (site : Nat) (v : DWord)
  | chremapCopyDone (site : Nat)
  | biasToHost (site : Nat) (v : DWord)
  | biasToHostDone (site : Nat)
  | biasToDevice (site : Nat) (v : DWord)
  | biasToDeviceDone (site : Nat) (ok : Bool)
  | hostMemAccess (off : Nat) (a : HostAccess)
  | scribePageResume (sc : Nat)
  | boot
  | attestationQuote (nonce : List Byte)
  | tenantDebugGrant (env : List Byte)
  | tenantDebugRevoke
  | dstateRaise (d : Nat)
  | dstateLower (d : Nat)
  | debugHaltRequest (phys : Nat)
  | debugResume (phys : Nat)
  | slotRetire (site block slot : Nat)
  | blockRouterFail (site block : Nat)
  | blockRecompact (site block : Nat)
  | reticleOut (site : Nat)
  | linkDelayMeasure (site edge : Nat) (ps : Word)
  | timeTreeReparent (site parent : Nat)
  | ptpSync (offset : Word)
  | linkDead (site edge : Nat)
  | linkDeadTimeout (site edge : Nat)
  | netverWrite (site : Nat) (v : DWord)
  | netcommitWrite (site : Nat) (v : Word)
  | commitRequestServe
  | commitBroadcast (site : Nat)
  | versionHoldTimeout (p : Nat)
  | occupancyReport (site occ : Nat)
  | steerInterval (site : Nat) (demand : List Nat) (agree : Bool)
  | laneMove (site : Nat)
  | laneSkewMeasure (site w : Nat) (inBound : Bool)
  | carrierLoss (site w : Nat)
  | portLoss (site serving : Nat)
  | replayEntryExpire (site : Nat) (key : ReplayKey)
  | ackTimeout (p : Nat)
  | replayFullRetry (p : Nat)
  | bltcfgWrite (site strm : Nat) (v : DWord)
  | bltheadWrite (site strm : Nat) (v : DWord)
  | blotterStallTimeout (site strm : Nat)
  | lupcfgWrite (l : Nat) (v : DWord)
  | lineupReview (l : Nat)
  | lineupCopiesDone (l : Nat) (failed : List Nat)
  | lineupPrepare (l : Nat)
  | lineupPrepareTimeout (l : Nat)
  | lineupCommit (l site : Nat)
  | lineupCommitAcked (l : Nat)
  | lineupHeartbeat (l : Nat) (arrives : Bool)
  | lineupTakeover (l : Nat)
  | blockIdle (site block : Nat)
  | blockGate (site block : Nat)
  | blockPowerOnCheck (site block : Nat) (amps : List Nat)
  | powerGateStep (site block : Nat)
  | reticleOff (site : Nat)
  | reticleOn (site : Nat)
  | powerLimitThrottle (watts : Nat)
  | thermalLimit (site celsius : Nat)
  | registerWrite (r : DevReg) (v : DWord)
  | rootDecrementResume (lid : Nat)
  | illegalOpcode (zero : Bool)
  | codeBounds
  | scribeIllegalOpcode (cause : BitVec 8)
  | scribeLoadReturn (sc : Nat)
  | tlbinvComplete (id : Nat)
  | ctxsaveCtxloadCompletion (id : Nat)
  | scribeCoreDead (site k : Nat)
  | softError (e : SoftError)
  | ptpHoldover
  | debugStateWrite (w : DebugWrite)
  | steeringRequest (site w src dst : Nat)
deriving DecidableEq, Repr

end Sys2Proof
end

