-- ==== Sys2Proof/Syntax.lean ====
section
/-! DEFINITION. The instructions and steps of the UBY-62 as syntax: one constructor per row of the
opcode table. SIMT base forms carry the fields of R175, extended forms the record `Ext` of R176,
Scribe instructions the fields of R186. The remaining constructors are the steps of the module that
no instruction word names (95_what_each_step_holds.md); their operands say to what they happen. -/

namespace Sys2Proof

/-- One constructor per row of the opcode table: the SIMT instructions, the Scribe instructions, then
the module's other steps. -/
inductive Instr where
  /-- ADD (R195): Base form: each active lane writes xA + operand B, wrapping. -/
  | add (k : Bool) (b : BitVec 7) (a : BitVec 7) (d : BitVec 7)
  /-- ADD_EXT (R195): Extended form of ADD, with guard, type and immediate operand. -/
  | addExt (x : Ext)
  /-- SUB (R195): Base form: each active lane writes xA − operand B, wrapping. -/
  | sub (k : Bool) (b : BitVec 7) (a : BitVec 7) (d : BitVec 7)
  /-- SUB_EXT (R195): Extended form of SUB. -/
  | subExt (x : Ext)
  /-- MUL (R195): Base form: each active lane writes the low w bits of the product. -/
  | mul (k : Bool) (b : BitVec 7) (a : BitVec 7) (d : BitVec 7)
  /-- MUL_EXT (R195): Extended form of MUL. -/
  | mulExt (x : Ext)
  /-- MULH (R195): Base form: each active lane writes the high w bits of the 2w-bit product. -/
  | mulh (k : Bool) (b : BitVec 7) (a : BitVec 7) (d : BitVec 7)
  /-- MULH_EXT (R195): Extended form of MULH. -/
  | mulhExt (x : Ext)
  /-- MAD (R197): Each active lane writes a × b + xC, wrapping. -/
  | mad (x : Ext)
  /-- ADDS (R195): Base form: saturating add that sets SAT when it clamps. -/
  | adds (k : Bool) (b : BitVec 7) (a : BitVec 7) (d : BitVec 7)
  /-- ADDS_EXT (R195): Extended form of ADDS. -/
  | addsExt (x : Ext)
  /-- SUBS (R195): Base form: saturating subtract that sets SAT when it clamps. -/
  | subs (k : Bool) (b : BitVec 7) (a : BitVec 7) (d : BitVec 7)
  /-- SUBS_EXT (R195): Extended form of SUBS. -/
  | subsExt (x : Ext)
  /-- AND (R195): Base form: bitwise and. -/
  | and (k : Bool) (b : BitVec 7) (a : BitVec 7) (d : BitVec 7)
  /-- AND_EXT (R195): Extended form of AND. -/
  | andExt (x : Ext)
  /-- OR (R195): Base form: bitwise or. -/
  | or (k : Bool) (b : BitVec 7) (a : BitVec 7) (d : BitVec 7)
  /-- OR_EXT (R195): Extended form of OR. -/
  | orExt (x : Ext)
  /-- XOR (R195): Base form: bitwise xor. -/
  | xor (k : Bool) (b : BitVec 7) (a : BitVec 7) (d : BitVec 7)
  /-- XOR_EXT (R195): Extended form of XOR. -/
  | xorExt (x : Ext)
  /-- ANDN (R195): Base form: a and not b. -/
  | andn (k : Bool) (b : BitVec 7) (a : BitVec 7) (d : BitVec 7)
  /-- ANDN_EXT (R195): Extended form of ANDN. -/
  | andnExt (x : Ext)
  /-- SHL (R195): Base form: shift left by the operand modulo the width. -/
  | shl (k : Bool) (b : BitVec 7) (a : BitVec 7) (d : BitVec 7)
  /-- SHL_EXT (R195): Extended form of SHL. -/
  | shlExt (x : Ext)
  /-- SHR (R195): Base form: logical shift right. -/
  | shr (k : Bool) (b : BitVec 7) (a : BitVec 7) (d : BitVec 7)
  /-- SHR_EXT (R195): Extended form of SHR. -/
  | shrExt (x : Ext)
  /-- SAR (R195): Base form: arithmetic shift right. -/
  | sar (k : Bool) (b : BitVec 7) (a : BitVec 7) (d : BitVec 7)
  /-- SAR_EXT (R195): Extended form of SAR. -/
  | sarExt (x : Ext)
  /-- ROL (R195): Base form: rotate left. -/
  | rol (k : Bool) (b : BitVec 7) (a : BitVec 7) (d : BitVec 7)
  /-- ROL_EXT (R195): Extended form of ROL. -/
  | rolExt (x : Ext)
  /-- MIN (R195): Base form: the lesser value, by the type's signedness. -/
  | min (k : Bool) (b : BitVec 7) (a : BitVec 7) (d : BitVec 7)
  /-- MIN_EXT (R195): Extended form of MIN. -/
  | minExt (x : Ext)
  /-- MAX (R195): Base form: the greater value, by the type's signedness. -/
  | max (k : Bool) (b : BitVec 7) (a : BitVec 7) (d : BitVec 7)
  /-- MAX_EXT (R195): Extended form of MAX. -/
  | maxExt (x : Ext)
  /-- ABS (R196): Base form: absolute value, wrapping. -/
  | abs (a : BitVec 7) (d : BitVec 7)
  /-- ABS_EXT (R196): Extended form of ABS. -/
  | absExt (x : Ext)
  /-- NEG (R196): Base form: negation, wrapping. -/
  | neg (a : BitVec 7) (d : BitVec 7)
  /-- NEG_EXT (R196): Extended form of NEG. -/
  | negExt (x : Ext)
  /-- CLZ (R196): Base form: count of leading zero bits. -/
  | clz (a : BitVec 7) (d : BitVec 7)
  /-- CLZ_EXT (R196): Extended form of CLZ. -/
  | clzExt (x : Ext)
  /-- POPC (R196): Base form: count of one bits. -/
  | popc (a : BitVec 7) (d : BitVec 7)
  /-- POPC_EXT (R196): Extended form of POPC. -/
  | popcExt (x : Ext)
  /-- BREV (R196): Base form: bit reversal. -/
  | brev (a : BitVec 7) (d : BitVec 7)
  /-- BREV_EXT (R196): Extended form of BREV. -/
  | brevExt (x : Ext)
  /-- BFX (R197): Extracts a bit field, sign- or zero-extended. -/
  | bfx (x : Ext)
  /-- BFI (R197): Inserts the low len bits of a into a field of xD. -/
  | bfi (x : Ext)
  /-- SEL (R197): Selects a or b by a predicate. -/
  | sel (x : Ext)
  /-- MOV (R198): Base form: copies register xA to xD. -/
  | mov (a : BitVec 7) (d : BitVec 7)
  /-- MOV_EXT (R198): Extended form of MOV, which may take a k register or an immediate. -/
  | movExt (x : Ext)
  /-- LDI (R198): Base form: loads a sign-extended 8-bit immediate. -/
  | ldi (i : BitVec 8) (d : BitVec 7)
  /-- LDI_EXT (R198): Extended form of LDI, with the immediate in IMM8B. -/
  | ldiExt (x : Ext)
  /-- LEA (R198): Writes the effective address without any access or check. -/
  | lea (x : Ext)
  /-- CMP (R199): Sets a predicate to an integer comparison and a second predicate to its
    negation. -/
  | cmp (x : Ext)
  /-- DIV (R200): Long-latency integer division, truncating toward zero. -/
  | div (x : Ext)
  /-- REM (R200): Long-latency integer remainder. -/
  | rem (x : Ext)
  /-- BR (R201): Base BJ form: branches each lane whose guard condition holds. -/
  | br (o : BitVec 8) (n : Bool) (g : BitVec 3)
  /-- BR_EXT (R201): Extended form of BR, with the offset in IMM8B or a Target literal. -/
  | brExt (x : Ext)
  /-- BRI (R202): Base form: indirect branch to XP(A). -/
  | bri (a : BitVec 7)
  /-- BRI_EXT (R202): Extended form of BRI, with a guard. -/
  | briExt (x : Ext)
  /-- CALL (R203): Base BJ form: pushes the return PC onto the call stack and branches. -/
  | call (o : BitVec 8) (n : Bool) (g : BitVec 3)
  /-- CALL_EXT (R203): Extended form of CALL. -/
  | callExt (x : Ext)
  /-- CALLI (R203): Base form: indirect call to XP(A). -/
  | calli (a : BitVec 7)
  /-- CALLI_EXT (R203): Extended form of CALLI. -/
  | calliExt (x : Ext)
  /-- RET (R203): Base form: pops the call stack and continues at the return PC. -/
  | ret
  /-- RET_EXT (R203): Extended form of RET, with a guard. -/
  | retExt (x : Ext)
  /-- EXIT (R52): Base form: ends each active thread and hands its outstanding effects to the
    retirement tracker. -/
  | exit
  /-- EXIT_EXT (R52): Extended form of EXIT, with a guard. -/
  | exitExt (x : Ext)
  /-- YIELD (R46): Base form: moves the gang's squads to the back of the pick order and passes
    their leads. -/
  | yield
  /-- YIELD_EXT (R46): Extended form of YIELD. -/
  | yieldExt (x : Ext)
  /-- NOP (R205): Base form: no effect. -/
  | nop
  /-- NOP_EXT (R205): Extended form of NOP. -/
  | nopExt (x : Ext)
  /-- LOOP (R204): Decrements xD and branches while the result is nonzero. -/
  | loop (x : Ext)
  /-- PAND (R206): Base form: predicate and. -/
  | pand (b : BitVec 7) (a : BitVec 7) (d : BitVec 7)
  /-- PAND_EXT (R206): Extended form of PAND. -/
  | pandExt (x : Ext)
  /-- POR (R206): Base form: predicate or. -/
  | por (b : BitVec 7) (a : BitVec 7) (d : BitVec 7)
  /-- POR_EXT (R206): Extended form of POR. -/
  | porExt (x : Ext)
  /-- PXOR (R206): Base form: predicate xor. -/
  | pxor (b : BitVec 7) (a : BitVec 7) (d : BitVec 7)
  /-- PXOR_EXT (R206): Extended form of PXOR. -/
  | pxorExt (x : Ext)
  /-- PNOT (R206): Base form: predicate not. -/
  | pnot (a : BitVec 7) (d : BitVec 7)
  /-- PNOT_EXT (R206): Extended form of PNOT. -/
  | pnotExt (x : Ext)
  /-- PSET (R206): Base form: sets a predicate to xA ≠ 0. -/
  | pset (a : BitVec 7) (d : BitVec 7)
  /-- PSET_EXT (R206): Extended form of PSET. -/
  | psetExt (x : Ext)
  /-- PGET (R206): Base form: writes a predicate, zero-extended, to xD. -/
  | pget (a : BitVec 7) (d : BitVec 7)
  /-- PGET_EXT (R206): Extended form of PGET. -/
  | pgetExt (x : Ext)
  /-- VOTE (R208): Squad-collective all, any or ballot of a predicate. -/
  | vote (x : Ext)
  /-- SHFL (R209): Squad-collective exchange of a register between lanes. -/
  | shfl (x : Ext)
  /-- SRED (R210): Squad-collective reduction in ascending lane order. -/
  | sred (x : Ext)
  /-- SSCAN (R210): Squad-collective inclusive or exclusive scan. -/
  | sscan (x : Ext)
  /-- SSYNC (R43): Base form: parks the thread until every live thread of the squad is parked at
    an SSYNC of the same PC. -/
  | ssync
  /-- SSYNC_EXT (R43): Extended form of SSYNC. -/
  | ssyncExt (x : Ext)
  /-- ELECT (R211): Sets a predicate in the lowest active lane. -/
  | elect (x : Ext)
  /-- MATCH (R211): Writes per lane a mask of the lanes holding an equal value. -/
  | match (x : Ext)
  /-- TBAR (R212): Base form: team barrier; the team's parked threads are released when every live
    thread has reached one. -/
  | tbar
  /-- TBAR_EXT (R212): Extended form of TBAR. -/
  | tbarExt (x : Ext)
  /-- SYSRD (R213): Base form: reads a system value selected by the immediate. -/
  | sysrd (i : BitVec 8) (d : BitVec 7)
  /-- SYSRD_EXT (R213): Extended form of SYSRD. -/
  | sysrdExt (x : Ext)
  /-- CLOCK (R214): Base form: reads the core clock count. -/
  | clock (d : BitVec 7)
  /-- CLOCK_EXT (R214): Extended form of CLOCK, which selects the core clock or wafer time. -/
  | clockExt (x : Ext)
  /-- REALIGN (R215): Base form: stops the core's picker until the next wafer-time slot boundary. -/
  | realign (i : BitVec 8)
  /-- REALIGN_EXT (R215): Extended form of REALIGN. -/
  | realignExt (x : Ext)
  /-- FADD (R240): Base form: floating add, rounded to nearest-even. -/
  | fadd (k : Bool) (b : BitVec 7) (a : BitVec 7) (d : BitVec 7)
  /-- FADD_EXT (R240): Extended form of FADD. -/
  | faddExt (x : Ext)
  /-- FSUB (R240): Base form: floating subtract. -/
  | fsub (k : Bool) (b : BitVec 7) (a : BitVec 7) (d : BitVec 7)
  /-- FSUB_EXT (R240): Extended form of FSUB. -/
  | fsubExt (x : Ext)
  /-- FMUL (R240): Base form: floating multiply. -/
  | fmul (k : Bool) (b : BitVec 7) (a : BitVec 7) (d : BitVec 7)
  /-- FMUL_EXT (R240): Extended form of FMUL. -/
  | fmulExt (x : Ext)
  /-- FMA (R240): Fused multiply-add with one rounding. -/
  | fma (x : Ext)
  /-- FMIN (R241): Base form: floating minimum by R146. -/
  | fmin (k : Bool) (b : BitVec 7) (a : BitVec 7) (d : BitVec 7)
  /-- FMIN_EXT (R241): Extended form of FMIN. -/
  | fminExt (x : Ext)
  /-- FMAX (R241): Base form: floating maximum by R146. -/
  | fmax (k : Bool) (b : BitVec 7) (a : BitVec 7) (d : BitVec 7)
  /-- FMAX_EXT (R241): Extended form of FMAX. -/
  | fmaxExt (x : Ext)
  /-- FABS (R241): Base form: clears the sign bit as a bit operation. -/
  | fabs (a : BitVec 7) (d : BitVec 7)
  /-- FABS_EXT (R241): Extended form of FABS. -/
  | fabsExt (x : Ext)
  /-- FNEG (R241): Base form: inverts the sign bit. -/
  | fneg (a : BitVec 7) (d : BitVec 7)
  /-- FNEG_EXT (R241): Extended form of FNEG. -/
  | fnegExt (x : Ext)
  /-- FCMP (R242): Floating comparison into a predicate and its negation. -/
  | fcmp (x : Ext)
  /-- FCLASS (R243): Base form: writes a one-hot class mask. -/
  | fclass (a : BitVec 7) (d : BitVec 7)
  /-- FCLASS_EXT (R243): Extended form of FCLASS. -/
  | fclassExt (x : Ext)
  /-- FRCP (R244): Long-latency approximate reciprocal. -/
  | frcp (x : Ext)
  /-- FRSQ (R244): Long-latency approximate reciprocal square root. -/
  | frsq (x : Ext)
  /-- FEXP2 (R244): Long-latency approximate 2^a. -/
  | fexp2 (x : Ext)
  /-- FLOG2 (R244): Long-latency approximate log2 a. -/
  | flog2 (x : Ext)
  /-- FDIV (R240): Long-latency, correctly rounded division. -/
  | fdiv (x : Ext)
  /-- FSQRT (R240): Long-latency, correctly rounded square root. -/
  | fsqrt (x : Ext)
  /-- CVT (R246): Converts between types under a rounding mode. -/
  | cvt (x : Ext)
  /-- CVTSR (R249): Converts with stochastic rounding from RNGSTATE. -/
  | cvtsr (x : Ext)
  /-- DOT4 (R250): Four-element FP8 dot product plus an f32 addend, with one rounding. -/
  | dot4 (x : Ext)
  /-- DOT2 (R250): Two-element 16-bit dot product plus an f32 addend, with one rounding. -/
  | dot2 (x : Ext)
  /-- FSCALE (R240): Base form: a × 2^n. -/
  | fscale (k : Bool) (b : BitVec 7) (a : BitVec 7) (d : BitVec 7)
  /-- FSCALE_EXT (R240): Extended form of FSCALE. -/
  | fscaleExt (x : Ext)
  /-- FRND (R245): Rounds to an integral value in the same format. -/
  | frnd (x : Ext)
  /-- FFLAGS (R251): Reads, clears, ORs into or writes the thread's FFLAGS. -/
  | fflags (x : Ext)
  /-- LD (R219): Long-latency path-t load of 1–16 bytes. -/
  | ld (x : Ext)
  /-- ST (R220): Base form: 4-byte path-t store with an 8-bit displacement. -/
  | st (i : BitVec 8) (a : BitVec 7) (d : BitVec 7)
  /-- ST_EXT (R220): Extended form of ST, with type, hint, residency flag and guard. -/
  | stExt (x : Ext)
  /-- ATOM (R222): Long-latency returning atomic read-modify-write. -/
  | atom (x : Ext)
  /-- RED (R223): Atomic read-modify-write with no return; flags go to memory-side registers. -/
  | red (x : Ext)
  /-- CAS (R224): Long-latency compare-and-swap. -/
  | cas (x : Ext)
  /-- FADDW (R226): Atomic add that wakes WAITW watchers when the threshold is reached. -/
  | faddw (x : Ext)
  /-- WAITW (R227): Reads a word and parks while the park condition holds, with an embedded fence. -/
  | waitw (x : Ext)
  /-- PREF (R229): Base form: prefetches a line into the L1 and L2. -/
  | pref (i : BitVec 8) (a : BitVec 7)
  /-- PREF_EXT (R229): Extended form of PREF, with hint and residency flag. -/
  | prefExt (x : Ext)
  /-- PAGEREQ (R231): Asks Barrel to make a page resident and signals per lane. -/
  | pagereq (x : Ext)
  /-- CLHINT (R230): Sets a cached line's retention class or evicts it. -/
  | clhint (x : Ext)
  /-- FENCE (R232): Orders writes on source paths before accesses on destination paths at a scope. -/
  | fence (x : Ext)
  /-- TSPAWN (R233): Spawns a task record, making it WAITING or READY. -/
  | tspawn (x : Ext)
  /-- TDEC (R233): Decrements a task record's counter and readies it at zero. -/
  | tdec (x : Ext)
  /-- TINC (R233): Increments a task record's counter. -/
  | tinc (x : Ext)
  /-- DEFER (R234): Registers a continuation on a task record and exits the thread. -/
  | defer (x : Ext)
  /-- RWAIT (R235): Parks while a receive ring is empty and returns the filled-slot count. -/
  | rwait (x : Ext)
  /-- RPOP (R236): Base form: consumes one slot of a receive ring. -/
  | rpop (i : BitVec 8)
  /-- RPOP_EXT (R236): Extended form of RPOP, with a guard. -/
  | rpopExt (x : Ext)
  /-- OBRES (R257): Reserves operand-buffer units in a reservation record. -/
  | obres (x : Ext)
  /-- OBREL (R258): Releases a reservation record. -/
  | obrel (x : Ext)
  /-- OBLD (R259): Loads bytes from memory into a reservation on path m. -/
  | obld (x : Ext)
  /-- MMA (R260): Squad-collective matrix multiply-accumulate into an accumulator tile, under the
    lease. -/
  | mma (x : Ext)
  /-- MMAP (R263): Pair-wide matrix multiply-accumulate on both engines. -/
  | mmap (x : Ext)
  /-- MZERO (R264): Clears a tile to +0. -/
  | mzero (x : Ext)
  /-- MDRAIN (R266): Copy-queue command that converts a tile and writes or adds it to memory. -/
  | mdrain (x : Ext)
  /-- MLEASE (R268): Starts the team's wait for a matrix lease. -/
  | mlease (x : Ext)
  /-- MFREE (R268): Ends the team's lease, or its wait for one. -/
  | mfree (x : Ext)
  /-- QUANT (R267): Quantizes a tile into Q4 blocks in the scratchpad or the operand buffer. -/
  | quant (x : Ext)
  /-- MRD (R265): Reads accumulator elements into registers. -/
  | mrd (x : Ext)
  /-- MWR (R265): Writes registers into accumulator elements. -/
  | mwr (x : Ext)
  /-- CPY (R273): Per-lane copy command on path c. -/
  | cpy (x : Ext)
  /-- TCOPY (R277): Tensor box copy between a tensor and a linear side. -/
  | tcopy (x : Ext)
  /-- PUT (R279): Sends scratchpad bytes to a window, storing or adding. -/
  | put (x : Ext)
  /-- GET (R280): Reads window bytes into local memory. -/
  | get (x : Ext)
  /-- MSG (R281): Sends 8–64 bytes to a receive ring of a remote team. -/
  | msg (x : Ext)
  /-- NMCMD (R284): Near-memory row command: gathersum, gathercpy, scatteradd or rowcopy. -/
  | nmcmd (x : Ext)
  /-- SEALPUT (R159): Stores a line in the sealed region, or shares an existing one, and returns
    its seal. -/
  | sealput (x : Ext)
  /-- SEALGET (R165): Copies a sealed line's content into the scratchpad. -/
  | sealget (x : Ext)
  /-- SEALSWAP (R164): Compares and swaps a seal in a root cell and moves references. -/
  | sealswap (x : Ext)
  /-- SEALREF (R162): Adds, drops or tries a reference on a sealed line. -/
  | sealref (x : Ext)
  /-- UNSEAL (R287): Copy command that walks a sealed tree and writes its leaves. -/
  | unseal (x : Ext)
  /-- TREV (R288): Emits a software Blotter record per active lane. -/
  | trev (x : Ext)
  /-- XLOOK (R289): Looks up an expert replica in the committed replica table and counts the load. -/
  | xlook (x : Ext)
  /-- TRAP (R290): Base form: raises software cause 0xE0 + n. -/
  | trap (i : BitVec 8)
  /-- TRAP_EXT (R290): Extended form of TRAP. -/
  | trapExt (x : Ext)
  /-- RETT (R325): Base form: ends handler delivery and resumes at the popped resume PC. -/
  | rett
  /-- RETT_EXT (R325): Extended form of RETT. -/
  | rettExt (x : Ext)
  /-- CSRRD (R291): Base form: reads a CSR. -/
  | csrrd (i : BitVec 8) (d : BitVec 7)
  /-- CSRRD_EXT (R291): Extended form of CSRRD. -/
  | csrrdExt (x : Ext)
  /-- CSRWR (R291): Base form: writes a CSR, with that CSR's own behaviour. -/
  | csrwr (i : BitVec 8) (a : BitVec 7)
  /-- CSRWR_EXT (R291): Extended form of CSRWR. -/
  | csrwrExt (x : Ext)
  /-- TLBINV (R345): Privileged: drops translations in every TLB of the scope and waits for the
    accesses that used them. -/
  | tlbinv (x : Ext)
  /-- BKPT (R290): Base form: raises BREAKPOINT. -/
  | bkpt
  /-- BKPT_EXT (R290): Extended form of BKPT. -/
  | bkptExt (x : Ext)
  /-- HALT (R371): Base form: privileged; halts the issuing core in the halt-capable state. -/
  | halt
  /-- HALT_EXT (R371): Extended form of HALT, with a guard. -/
  | haltExt (x : Ext)
  /-- CTXSAVE (R330): Privileged: saves a team to its save area and frees its resources. -/
  | ctxsave (x : Ext)
  /-- CTXLOAD (R331): Privileged: restores a saved team into a free slot. -/
  | ctxload (x : Ext)
  /-- SADD (R301): Scribe 64-bit add. -/
  | sadd (i : BitVec 8) (b : BitVec 5) (a : BitVec 5) (d : BitVec 5)
  /-- SSUB (R301): Scribe 64-bit subtract. -/
  | ssub (i : BitVec 8) (b : BitVec 5) (a : BitVec 5) (d : BitVec 5)
  /-- SMUL (R301): Scribe 64-bit multiply, low bits. -/
  | smul (i : BitVec 8) (b : BitVec 5) (a : BitVec 5) (d : BitVec 5)
  /-- SAND (R301): Scribe bitwise and. -/
  | sand (i : BitVec 8) (b : BitVec 5) (a : BitVec 5) (d : BitVec 5)
  /-- SOR (R301): Scribe bitwise or. -/
  | sor (i : BitVec 8) (b : BitVec 5) (a : BitVec 5) (d : BitVec 5)
  /-- SXOR (R301): Scribe bitwise xor. -/
  | sxor (i : BitVec 8) (b : BitVec 5) (a : BitVec 5) (d : BitVec 5)
  /-- SSHL (R301): Scribe shift left. -/
  | sshl (i : BitVec 8) (b : BitVec 5) (a : BitVec 5) (d : BitVec 5)
  /-- SSHR (R301): Scribe logical shift right. -/
  | sshr (i : BitVec 8) (b : BitVec 5) (a : BitVec 5) (d : BitVec 5)
  /-- SLDI (R301): Scribe constant build, eight bits at a time. -/
  | sldi (i : BitVec 8) (a : BitVec 5) (d : BitVec 5)
  /-- SLDK (R301): Scribe read of a k register of the launch. -/
  | sldk (i : BitVec 8) (d : BitVec 5)
  /-- SMOV (R302): Scribe move between register kinds, SFLAGS and ATOMXF. -/
  | smov (i : BitVec 8) (a : BitVec 5) (d : BitVec 5)
  /-- SCMP (R301): Scribe scalar comparison. -/
  | scmp (i : BitVec 8) (b : BitVec 5) (a : BitVec 5) (d : BitVec 5)
  /-- JMP (R303): Scribe jump. -/
  | jmp (l : BitVec 8) (h : BitVec 5)
  /-- JZ (R303): Scribe branch if zero. -/
  | jz (l : BitVec 8) (h : BitVec 5) (a : BitVec 5)
  /-- JNZ (R303): Scribe branch if nonzero. -/
  | jnz (l : BitVec 8) (h : BitVec 5) (a : BitVec 5)
  /-- SCRIBE_LOOP (R303): Scribe decrement and branch while nonzero. -/
  | scribeLoop (l : BitVec 8) (h : BitVec 5) (a : BitVec 5)
  /-- SCRIBE_CALL (R303): Scribe call onto the 16-entry return stack. -/
  | scribeCall (l : BitVec 8) (h : BitVec 5)
  /-- SCRIBE_RET (R303): Scribe return from the return stack. -/
  | scribeRet
  /-- SLD (R304): Scribe 8-byte load. -/
  | sld (i : BitVec 8) (a : BitVec 5) (d : BitVec 5)
  /-- SST (R304): Scribe 8-byte store. -/
  | sst (i : BitVec 8) (a : BitVec 5) (d : BitVec 5)
  /-- VLD (R304): Scribe vector load of 16 words. -/
  | vld (m : BitVec 3) (i : BitVec 8) (a : BitVec 5) (d : BitVec 5)
  /-- VST (R304): Scribe vector store. -/
  | vst (m : BitVec 3) (i : BitVec 8) (a : BitVec 5) (d : BitVec 5)
  /-- VGATHER (R304): Scribe indexed vector load. -/
  | vgather (m : BitVec 3) (b : BitVec 5) (a : BitVec 5) (d : BitVec 5)
  /-- VSCATTER (R304): Scribe indexed vector store. -/
  | vscatter (m : BitVec 3) (b : BitVec 5) (a : BitVec 5) (d : BitVec 5)
  /-- VAADD (R305): Scribe indexed atomic add with no return. -/
  | vaadd (m : BitVec 3) (i : BitVec 8) (b : BitVec 5) (a : BitVec 5) (d : BitVec 5)
  /-- VADD (R306): Scribe vector add. -/
  | vadd (m : BitVec 3) (i : BitVec 8) (b : BitVec 5) (a : BitVec 5) (d : BitVec 5)
  /-- VSUB (R306): Scribe vector subtract. -/
  | vsub (m : BitVec 3) (i : BitVec 8) (b : BitVec 5) (a : BitVec 5) (d : BitVec 5)
  /-- VMUL (R306): Scribe vector multiply. -/
  | vmul (m : BitVec 3) (i : BitVec 8) (b : BitVec 5) (a : BitVec 5) (d : BitVec 5)
  /-- VFMA (R306): Scribe vector fused multiply-add. -/
  | vfma (m : BitVec 3) (b : BitVec 5) (a : BitVec 5) (d : BitVec 5)
  /-- VMIN (R306): Scribe vector minimum. -/
  | vmin (m : BitVec 3) (i : BitVec 8) (b : BitVec 5) (a : BitVec 5) (d : BitVec 5)
  /-- VMAX (R306): Scribe vector maximum. -/
  | vmax (m : BitVec 3) (i : BitVec 8) (b : BitVec 5) (a : BitVec 5) (d : BitVec 5)
  /-- VDIV (R306): Scribe vector division. -/
  | vdiv (m : BitVec 3) (b : BitVec 5) (a : BitVec 5) (d : BitVec 5)
  /-- VSQRT (R306): Scribe vector square root. -/
  | vsqrt (m : BitVec 3) (a : BitVec 5) (d : BitVec 5)
  /-- VRSQ (R306): Scribe vector reciprocal square root. -/
  | vrsq (m : BitVec 3) (a : BitVec 5) (d : BitVec 5)
  /-- VABS (R306): Scribe vector absolute value. -/
  | vabs (m : BitVec 3) (i : BitVec 8) (a : BitVec 5) (d : BitVec 5)
  /-- VCVT (R307): Scribe vector conversion. -/
  | vcvt (m : BitVec 3) (i : BitVec 8) (a : BitVec 5) (d : BitVec 5)
  /-- VSEL (R307): Scribe vector selection by a mask. -/
  | vsel (m : BitVec 3) (i : BitVec 8) (b : BitVec 5) (a : BitVec 5) (d : BitVec 5)
  /-- VCMP (R307): Scribe vector comparison into a mask. -/
  | vcmp (m : BitVec 3) (i : BitVec 8) (b : BitVec 5) (a : BitVec 5) (d : BitVec 5)
  /-- VRED (R307): Scribe vector reduction into a scalar. -/
  | vred (m : BitVec 3) (i : BitVec 8) (a : BitVec 5) (d : BitVec 5)
  /-- VBCAST (R307): Scribe broadcast of a scalar to every lane. -/
  | vbcast (m : BitVec 3) (a : BitVec 5) (d : BitVec 5)
  /-- VMOVS (R307): Scribe move of one lane to or from a scalar. -/
  | vmovs (i : BitVec 8) (a : BitVec 5) (d : BitVec 5)
  /-- SCRIBE_TDEC (R308): Scribe decrement of a task record. -/
  | scribeTdec (i : BitVec 8) (b : BitVec 5) (a : BitVec 5)
  /-- SCRIBE_FENCE (R308): Scribe fence X>n at a scope, which holds later accesses. -/
  | scribeFence (i : BitVec 8)
  /-- TEXIT (R308): Ends the Scribe task once its writes are made, and signals its DONE. -/
  | texit
  /-- ILLEGAL_OPCODE (R185): A fetched word with OP 0x00 or an unassigned opcode traps ZERO_WORD
    or ILLEGAL_OPCODE on every thread of the gang. -/
  | illegalOpcode (zero : Bool)
  /-- CODE_BOUNDS (R174): A fetch whose bytes lie below CODEBASE or at or beyond CODEBASE +
    CODELEN traps CODE_BOUNDS. -/
  | codeBounds
  /-- SCRIBE_ILLEGAL_OPCODE (R299): A Scribe fetch beyond CODELEN, or of a zero or unassigned
    opcode, traps and ends the task. -/
  | scribeIllegalOpcode (cause : BitVec 8)
  /-- REALIGN_RESUME (R215): At the first core clock at or after the slot time, the stalled picker
    resumes issue. -/
  | realignResume (core : Nat)
  /-- WAITW_WAKE (R228): A parked WAITW thread is woken, performs its second read and its embedded
    fence. -/
  | waitwWake (t : Tid)
  /-- WAITW_TIMEOUT (R227): The WAITW timeout expires, and the thread wakes with the fence and a
    second read. -/
  | waitwTimeout (t : Tid)
  /-- PAGEREQ_COMPLETE (R94): The page is resident, or found invalid, and the lane's completion is
    signalled. -/
  | pagereqComplete (req : Nat)
  /-- MATRIX_OP_COMPLETE (R261): An issued matrix operation finishes its accumulation in engine
    order. -/
  | matrixOpComplete (core : Nat)
  /-- SEAL_WALKER_DROP (R163): The home walker drops one child reference of a freed interior line. -/
  | sealWalkerDrop (site : Nat)
  /-- LONG_LATENCY_COMPLETE (R182): A long-latency instruction writes its pending set, which
    readies the instruction after its window. -/
  | longLatencyComplete (t : Tid) (w : Nat)
  /-- LONG_LATENCY_FAULT (R328): A long-latency instruction meets a fault after issue, and the
    thread traps with LLF. -/
  | longLatencyFault (t : Tid) (w : Nat) (cause : BitVec 8) (addr : DWord)
  /-- CONVERGENCE_TIMEOUT (R42): 64 clocks after a convergence window opens, the squad's held
    threads trap ILLEGAL_CONVERGENCE. -/
  | convergenceTimeout (q : Sid)
  /-- WATCHDOG (R47): A ready thread's wait count reaches 16 times the shot clock, and the thread
    traps WATCHDOG. -/
  | watchdog (t : Tid)
  /-- EXIT_TRACKER_RESUME (R52): Tracker entries free, and a thread parked at EXIT or DEFER
    completes its exit. -/
  | exitTrackerResume (q : Sid)
  /-- COMMAND_COMPLETE (R115): An engine command finishes and signals its completion operand,
    which frees its queue entry. -/
  | commandComplete (c : Nat)
  /-- COPY_LINE_DELIVERED (R86): A copy delivers its bytes for a scratchpad line, the pending
    count falls and parked threads wake. -/
  | copyLineDelivered (c half line : Nat)
  /-- LQTAIL_WRITE (R57): The host writes a queue's tail doorbell. -/
  | lqtailWrite (q : Nat) (v : Word)
  /-- LQCFG_WRITE (R56): A write to a launch queue configuration, ignored whole for an RSV bit or
    HOME 60–63. -/
  | lqcfgWrite (q : Nat) (v : Word)
  /-- LAUNCH_RECORD_READ (R61): The home scheduler reads, validates and accepts the launch record
    at HEAD. -/
  | launchRecordRead (q : Nat)
  /-- LAUNCH_PAGE_RESUME (R61): A non-resident record or constant page becomes resident, and the
    scheduler reads on. -/
  | launchPageResume (q : Nat)
  /-- LAUNCH_COMPLETE (R62): A launch completes: waiting tasks are abandoned, teams released, the
    root decremented and DONE signalled. -/
  | launchComplete (lid : Nat)
  /-- TEAM_PLACE (R69): The scheduler places the next team on a core that has room, and starts its
    initial squads. -/
  | teamPlace (lid : Nat)
  /-- TEAM_RELEASE (R70): An empty team is released while its launch has unplaced teams. -/
  | teamRelease (team : Nat)
  /-- TASK_DISPATCH (R66): The reticle dispatcher starts one ready task on a team or on a Scribe
    core. -/
  | taskDispatch (site : Nat)
  /-- LEASE_GRANT (R71): The arbiter grants the free matrix engine to a waiting team and wakes its
    parked squads. -/
  | leaseGrant (core : Nat)
  /-- LEASE_IDLE_EXPIRY (R71): A holder that has issued no MMA for 4,096 clocks while another team
    waits loses the lease. -/
  | leaseIdleExpiry (core : Nat)
  /-- CONGESTION_SAMPLE (R73): Every 128 core clocks the reticle compares occupancy with its
    thresholds and moves the cap. -/
  | congestionSample (site : Nat) (occ : List Nat)
  /-- RING_APPEND (R103): An arriving MSG payload is appended to a receive ring, or refused when
    the ring is full. -/
  | ringAppend (p : Nat)
  /-- PUT_ARRIVE (R128): A put arrives at its target, is checked against the registration,
    written, and ARRIVED is signalled. -/
  | putArrive (p : Nat)
  /-- PUT_ACK (R128): A put's acknowledgement returns, and the sent completion is signalled. -/
  | putAck (p : Nat)
  /-- GET_REQUEST_ARRIVE (R280): A GET request reaches its target and the window bytes are read
    for the reply. -/
  | getRequestArrive (p : Nat)
  /-- GET_REPLY_ARRIVE (R280): GET reply bytes are written at the initiator. -/
  | getReplyArrive (p : Nat)
  /-- NAK_RECEIVE (R283): A sender receives a NAK, updates its tables and retransmits, or fails
    the command. -/
  | nakReceive (p : Nat)
  /-- PACKET_HOP (R313): A packet reaches a reticle, is routed by the tables or refused. -/
  | packetHop (p : PacketRef)
  /-- NMCMD_PACKET_ARRIVE (R285): A command unit processes an NMCMD packet's rows. -/
  | nmcmdPacketArrive (c site stack : Nat)
  /-- TRAP_REPORT (R322): A trap report is written to the reticle's trap queue once room exists. -/
  | trapReport (site : Nat)
  /-- TRAPQHEAD_WRITE (R322): Barrel advances the trap queue HEAD, freeing room for waiting
    reports. -/
  | trapqheadWrite (site : Nat) (v : Word)
  /-- TRAPACT_RESUME (R323): TRAPACT resume: the report's threads become ready at their resume PC. -/
  | trapactResume (site : Nat) (idx : Word)
  /-- TRAPACT_FORWARD (R324): TRAPACT forward: the threads enter the user handler. -/
  | trapactForward (site : Nat) (idx : Word)
  /-- TRAPACT_END_THREADS (R323): TRAPACT end threads: the threads end as by EXIT. -/
  | trapactEndThreads (site : Nat) (idx : Word)
  /-- TRAPACT_END_LAUNCH (R323): TRAPACT end launch: the whole launch is ended. -/
  | trapactEndLaunch (site : Nat) (idx : Word)
  /-- L2CFG_WRITE (R98): A valid L2 mode write starts a flush of all six slices. -/
  | l2cfgWrite (site : Nat) (v : DWord)
  /-- L2_FLUSH_DONE (R98): The L2 flush ends, BUSY clears, and the held accesses are served under
    the new mode. -/
  | l2FlushDone (site : Nat)
  /-- L2LIVE_WRITE (R383): Nib retires L2 slices, with a reticle-wide flush. -/
  | l2liveWrite (site : Nat) (v : DWord)
  /-- CHREMAP_WRITE (R384): Barrel redirects a DRAM channel, and the granule copying starts. -/
  | chremapWrite (site : Nat) (v : DWord)
  /-- CHREMAP_COPY_DONE (R384): The last granule is copied, BUSY clears and the channel powers
    down. -/
  | chremapCopyDone (site : Nat)
  /-- BIAS_TO_HOST (R352): A BIASCMD write with DIR 1 starts a flip of a page to host bias. -/
  | biasToHost (site : Nat) (v : DWord)
  /-- BIAS_TO_HOST_DONE (R352): The page's lines are flushed, the bias bit sets and held accesses
    go over the host link. -/
  | biasToHostDone (site : Nat)
  /-- BIAS_TO_DEVICE (R353): A BIASCMD write with DIR 0 starts a flip of a page to device bias. -/
  | biasToDevice (site : Nat) (v : DWord)
  /-- BIAS_TO_DEVICE_DONE (R353): The ownership requests finish, the bias bit clears, or the flip
    stops with STATUS 2. -/
  | biasToDeviceDone (site : Nat) (ok : Bool)
  /-- HOST_MEM_ACCESS (R354): A host CXL.mem access is served at the home L2, or under the bias in
    force. -/
  | hostMemAccess (off : Nat) (a : HostAccess)
  /-- SCRIBE_PAGE_RESUME (R294): A Scribe core stalled on a non-resident page resumes once Barrel
    makes it resident. -/
  | scribePageResume (sc : Nat)
  /-- BOOT (R360): At reset Nib verifies images, derives keys, powers reticles and accepts the
    system launch. -/
  | boot
  /-- ATTESTATION_QUOTE (R362): Nib signs an attestation quote over a requester's nonce. -/
  | attestationQuote (nonce : List Byte)
  /-- TENANT_DEBUG_GRANT (R367): A verified grant moves the module to tenant-debug. -/
  | tenantDebugGrant (env : List Byte)
  /-- TENANT_DEBUG_REVOKE (R367): Tenant-debug ends: halted cores resume and the level returns to
    production. -/
  | tenantDebugRevoke
  /-- DSTATE_RAISE (R367): A Nib command raises the debug state. -/
  | dstateRaise (d : Nat)
  /-- DSTATE_LOWER (R367): A Nib command lowers the debug state after resuming halted cores. -/
  | dstateLower (d : Nat)
  /-- DEBUG_HALT_REQUEST (R368): HREQ := 1 through the debug port halts an in-scope core. -/
  | debugHaltRequest (phys : Nat)
  /-- DEBUG_RESUME (R368): HREQ := 0 resumes a halted core. -/
  | debugResume (phys : Nat)
  /-- SLOT_RETIRE (R377): Nib retires a failing core slot, losing its teams and vacating its name. -/
  | slotRetire (site block slot : Nat)
  /-- BLOCK_ROUTER_FAIL (R377): A block router fails, and every team of the block is lost. -/
  | blockRouterFail (site block : Nat)
  /-- BLOCK_RECOMPACT (R379): An emptied block with a vacant name has its names derived again. -/
  | blockRecompact (site block : Nat)
  /-- RETICLE_OUT (R385): Nib sets a reticle out of service. -/
  | reticleOut (site : Nat)
  /-- LINK_DELAY_MEASURE (R387): Every 65,536 mesh clocks an edge port measures its link delay. -/
  | linkDelayMeasure (site edge : Nat) (ps : Word)
  /-- TIME_TREE_REPARENT (R387): After a time-tree link fails, reticles below it get a new parent. -/
  | timeTreeReparent (site parent : Nat)
  /-- PTP_SYNC (R388): A PTP message on the management port disciplines wafer time. -/
  | ptpSync (offset : Word)
  /-- LINK_DEAD (R399): Link-level retry fails for 1 µs, and the edge port declares its link dead. -/
  | linkDead (site edge : Nat)
  /-- LINK_DEAD_TIMEOUT (R399): 1 ms after a link is declared dead with no newer version, queued
    packets are refused with reason 0x08. -/
  | linkDeadTimeout (site edge : Nat)
  /-- NETVER_WRITE (R397): Barrel prepares the shadow bank, or the write is refused. -/
  | netverWrite (site : Nat) (v : DWord)
  /-- NETCOMMIT_WRITE (R397): Barrel requests a commit of a topology version. -/
  | netcommitWrite (site : Nat) (v : Word)
  /-- COMMIT_REQUEST_SERVE (R397): The commit reticle serves one commit request and broadcasts it,
    or refuses it. -/
  | commitRequestServe
  /-- COMMIT_BROADCAST (R397): A reticle takes a commit broadcast, sets ACTIVE and swaps banks. -/
  | commitBroadcast (site : Nat)
  /-- VERSION_HOLD_TIMEOUT (R398): A packet held for a newer version is refused with reason 0x02
    after 10 µs. -/
  | versionHoldTimeout (p : Nat)
  /-- OCCUPANCY_REPORT (R393): Every 1,024 mesh clocks each endpoint broadcasts its receive-queue
    occupancy. -/
  | occupancyReport (site occ : Nat)
  /-- STEER_INTERVAL (R406): At each steering interval a reticle may move a lane between links. -/
  | steerInterval (site : Nat) (demand : List Nat) (agree : Bool)
  /-- LANE_MOVE (R406): After the steering commit, the lane leaves L and joins H at packet
    boundaries. -/
  | laneMove (site : Nat)
  /-- LANE_SKEW_MEASURE (R407): A lane's skew is measured; a lane out of bound leaves its bundle,
    or its OUT mark clears. -/
  | laneSkewMeasure (site w : Nat) (inBound : Bool)
  /-- CARRIER_LOSS (R404): Carrier light of a wavelength is lost, and the lane leaves its bundle. -/
  | carrierLoss (site w : Nat)
  /-- PORT_LOSS (R400): An optical port is lost. -/
  | portLoss (site serving : Nat)
  /-- REPLAY_ENTRY_EXPIRE (R408): A replay-filter entry with no traffic for 1 ms is freed. -/
  | replayEntryExpire (site : Nat) (key : ReplayKey)
  /-- ACK_TIMEOUT (R408): An unacknowledged reducing packet fails its command after 500 µs. -/
  | ackTimeout (p : Nat)
  /-- REPLAY_FULL_RETRY (R390): 2 µs after a refusal with reason 0x09, the sender retransmits. -/
  | replayFullRetry (p : Nat)
  /-- BLTCFG_WRITE (R409): A write opens, closes or reconfigures a Blotter stream, releasing
    stalled emitters on close. -/
  | bltcfgWrite (site strm : Nat) (v : DWord)
  /-- BLTHEAD_WRITE (R417): The reader advances HEAD, which may end lossless stalls. -/
  | bltheadWrite (site strm : Nat) (v : DWord)
  /-- BLOTTER_STALL_TIMEOUT (R418): A stall reaches STALLMAX, and the stream falls back to lossy
    operation. -/
  | blotterStallTimeout (site strm : Nat)
  /-- LUPCFG_WRITE (R419): A write enables or disables a Lineup slot. -/
  | lupcfgWrite (l : Nat) (v : DWord)
  /-- LINEUP_REVIEW (R422): Every interval the controller reads the counts and plans replica adds
    and retires. -/
  | lineupReview (l : Nat)
  /-- LINEUP_COPIES_DONE (R423): The review's copies complete, or one fails and the review fails. -/
  | lineupCopiesDone (l : Nat) (failed : List Nat)
  /-- LINEUP_PREPARE (R424): The new table is written into the prepared bank of every reticle. -/
  | lineupPrepare (l : Nat)
  /-- LINEUP_PREPARE_TIMEOUT (R424): A reticle fails to acknowledge preparation within 10 µs, and
    the review fails. -/
  | lineupPrepareTimeout (l : Nat)
  /-- LINEUP_COMMIT (R425): A reticle takes the commit broadcast and flips its bank. -/
  | lineupCommit (l site : Nat)
  /-- LINEUP_COMMIT_ACKED (R425): Every reticle has acknowledged; NREP is stored and the gate word
    cleared. -/
  | lineupCommitAcked (l : Nat)
  /-- LINEUP_HEARTBEAT (R428): The controller sends a heartbeat to the standby every 100 µs. -/
  | lineupHeartbeat (l : Nat) (arrives : Bool)
  /-- LINEUP_TAKEOVER (R429): After missed heartbeats the standby completes or abandons the review
    and takes over. -/
  | lineupTakeover (l : Nat)
  /-- BLOCK_IDLE (R433): A block with no resident squad for 10 µs stops its clocks. -/
  | blockIdle (site block : Nat)
  /-- BLOCK_GATE (R433): A block idle for 1 ms with no placed team is region-gated. -/
  | blockGate (site block : Nat)
  /-- BLOCK_POWER_ON_CHECK (R434): The regulator checks the power-on conditions, now or again
    every 1 µs. -/
  | blockPowerOnCheck (site block : Nat) (amps : List Nat)
  /-- POWER_GATE_STEP (R434): One 250 ns step of closing the power gate; the eighth clears GATED. -/
  | powerGateStep (site block : Nat)
  /-- RETICLE_OFF (R433): At Barrel's request an idle, routed-around reticle is turned off. -/
  | reticleOff (site : Nat)
  /-- RETICLE_ON (R433): At Barrel's request a reticle turned off reboots as at boot step 5. -/
  | reticleOn (site : Nat)
  /-- POWER_LIMIT_THROTTLE (R430): Input draw at its rating lowers the core clock, and a fall of
    5% below it raises the clock again. -/
  | powerLimitThrottle (watts : Nat)
  /-- THERMAL_LIMIT (R436): A junction above 95 °C throttles the reticle; above 110 °C its
    launches end and it is set OUT. -/
  | thermalLimit (site celsius : Nat)
  /-- REGISTER_WRITE (R2): A write to a device register with no behaviour of its own, ignored
    whole for an RSV bit. -/
  | registerWrite (r : DevReg) (v : DWord)
  /-- ROOT_DECREMENT_RESUME (R62): A root task record page that was valid but not resident at
    launch completion becomes resident, and the root decrement is made. -/
  | rootDecrementResume (lid : Nat)
  /-- SCRIBE_LOAD_RETURN (R294): An outstanding Scribe load returns its register, or a Scribe
    write is performed, releasing a waiting instruction, FENCE or TEXIT. -/
  | scribeLoadReturn (sc : Nat)
  /-- TLBINV_COMPLETE (R345): Every dropped translation is gone and every access that used one has
    been made, so the TLBINV thread becomes ready. -/
  | tlbinvComplete (id : Nat)
  /-- CTXSAVE_CTXLOAD_COMPLETION (R330): A CTXSAVE or CTXLOAD finishes writing or placing the team
    and signals its completion operand. -/
  | ctxsaveCtxloadCompletion (id : Nat)
  /-- SCRIBE_CORE_DEAD (R67): A Scribe core fails and is marked in SCDEAD; READY Scribe tasks of a
    stack left with no live core pass to DONE with CORE_RETIRED. -/
  | scribeCoreDead (site k : Nat)
  /-- SOFT_ERROR (R337): A soft error corrupts bits of a DRAM granule, a cache line, the SRAM
    pool, the operand buffer or a register. -/
  | softError (e : SoftError)
  /-- PTP_HOLDOVER (R388): The PTP reference is lost and WTSTATUS leaves the locked state for
    holdover. -/
  | ptpHoldover
  /-- DEBUG_STATE_WRITE (R365): Through the debug port, registers, predicates, PC or scratchpad of
    a thread on a halted in-scope core, or a device register, are written. -/
  | debugStateWrite (w : DebugWrite)
  /-- STEERING_REQUEST (R406): A peer reticle's steering control packet asks this reticle to
    release or take a lane, and the reticle answers and requests its own steering commit. -/
  | steeringRequest (site w src dst : Nat)
deriving DecidableEq, Repr

end Sys2Proof
end

