-- ==== Sys2Proof/Machine/Forms.lean ====
section
/-! DEFINITION. The forms of the SIMT instructions: the opcodes of R184, the types of R180, which
fields each instruction uses (R193-R215, R216, R239, R252, R272), the decode checks of R181 steps 4
to 7, and the registers and predicates an instruction's fields name, by which R181 step 8 and the
lookahead rules of R182 are tested. -/

namespace Sys2Proof

/-- The assigned opcodes of the main map (R184). -/
inductive Op where
  | add | sub | mul | mulh | mad | adds | subs | and | or | xor | andn | shl | shr | sar | rol
  | min | max | abs | neg | clz | popc | brev | bfx | bfi | sel | mov | ldi | lea | cmp | div
  | rem | br | bri | call | calli | ret | exit | yield | nop | loop | pand | por | pxor | pnot
  | pset | pget | vote | shfl | sred | sscan | ssync | elect | match | tbar | sysrd | clock
  | realign | fadd | fsub | fmul | fma | fmin | fmax | fabs | fneg | fcmp | fclass | frcp | frsq
  | fexp2 | flog2 | fdiv | fsqrt | cvt | cvtsr | dot4 | dot2 | fscale | frnd | fflags | ld | st
  | atom | red | cas | faddw | waitw | pref | pagereq | clhint | fence | tspawn | tdec | tinc
  | defer | rwait | rpop | obres | obrel | obld | mma | mmap | mzero | mdrain | mlease | mfree
  | quant | mrd | mwr | cpy | tcopy | put | get | msg | nmcmd | sealput | sealget | sealswap
  | sealref | unseal | trev | xlook | trap | rett | csrrd | csrwr | tlbinv | bkpt | halt
  | ctxsave | ctxload
deriving DecidableEq, Repr

/-- The opcode, bits 9:2 of word 0 (R174, R184). -/
def Op.code : Op → Nat
  | .add => 0x01 | .sub => 0x02 | .mul => 0x03 | .mulh => 0x04 | .mad => 0x05 | .adds => 0x06
  | .subs => 0x07 | .and => 0x08 | .or => 0x09 | .xor => 0x0A | .andn => 0x0B | .shl => 0x0C
  | .shr => 0x0D | .sar => 0x0E | .rol => 0x0F | .min => 0x10 | .max => 0x11 | .abs => 0x12
  | .neg => 0x13 | .clz => 0x14 | .popc => 0x15 | .brev => 0x16 | .bfx => 0x17 | .bfi => 0x18
  | .sel => 0x19 | .mov => 0x1A | .ldi => 0x1B | .lea => 0x1C | .cmp => 0x1D | .div => 0x1E
  | .rem => 0x1F | .br => 0x20 | .bri => 0x21 | .call => 0x22 | .calli => 0x23 | .ret => 0x24
  | .exit => 0x25 | .yield => 0x26 | .nop => 0x27 | .loop => 0x28 | .pand => 0x40 | .por => 0x41
  | .pxor => 0x42 | .pnot => 0x43 | .pset => 0x44 | .pget => 0x45 | .vote => 0x46 | .shfl => 0x47
  | .sred => 0x48 | .sscan => 0x49 | .ssync => 0x4A | .elect => 0x4B | .match => 0x4C
  | .tbar => 0x4D | .sysrd => 0x4E | .clock => 0x4F | .realign => 0x50 | .fadd => 0x60
  | .fsub => 0x61 | .fmul => 0x62 | .fma => 0x63 | .fmin => 0x64 | .fmax => 0x65 | .fabs => 0x66
  | .fneg => 0x67 | .fcmp => 0x68 | .fclass => 0x69 | .frcp => 0x6A | .frsq => 0x6B
  | .fexp2 => 0x6C | .flog2 => 0x6D | .fdiv => 0x6E | .fsqrt => 0x6F | .cvt => 0x70
  | .cvtsr => 0x71 | .dot4 => 0x72 | .dot2 => 0x73 | .fscale => 0x74 | .frnd => 0x75
  | .fflags => 0x76 | .ld => 0x80 | .st => 0x81 | .atom => 0x82 | .red => 0x83 | .cas => 0x84
  | .faddw => 0x85 | .waitw => 0x86 | .pref => 0x87 | .pagereq => 0x88 | .clhint => 0x89
  | .fence => 0xA0 | .tspawn => 0xA1 | .tdec => 0xA2 | .tinc => 0xA3 | .defer => 0xA4
  | .rwait => 0xA5 | .rpop => 0xA6 | .obres => 0xC0 | .obrel => 0xC1 | .obld => 0xC2
  | .mma => 0xC3 | .mmap => 0xC4 | .mzero => 0xC5 | .mdrain => 0xC6 | .mlease => 0xC7
  | .mfree => 0xC8 | .quant => 0xC9 | .mrd => 0xCA | .mwr => 0xCB | .cpy => 0xE0 | .tcopy => 0xE1
  | .put => 0xE2 | .get => 0xE3 | .msg => 0xE4 | .nmcmd => 0xE5 | .sealput => 0xE6
  | .sealget => 0xE7 | .sealswap => 0xE8 | .sealref => 0xE9 | .unseal => 0xEA | .trev => 0xEB
  | .xlook => 0xEC | .trap => 0xF0 | .rett => 0xF1 | .csrrd => 0xF2 | .csrwr => 0xF3
  | .tlbinv => 0xF4 | .bkpt => 0xF5 | .halt => 0xF6 | .ctxsave => 0xF7 | .ctxload => 0xF8

/-- The instruction of an opcode; none for 0x00 and the unassigned opcodes (R185). -/
def Op.ofCode : Nat → Option Op
  | 0x01 => some .add | 0x02 => some .sub | 0x03 => some .mul | 0x04 => some .mulh
  | 0x05 => some .mad | 0x06 => some .adds | 0x07 => some .subs | 0x08 => some .and
  | 0x09 => some .or | 0x0A => some .xor | 0x0B => some .andn | 0x0C => some .shl
  | 0x0D => some .shr | 0x0E => some .sar | 0x0F => some .rol | 0x10 => some .min
  | 0x11 => some .max | 0x12 => some .abs | 0x13 => some .neg | 0x14 => some .clz
  | 0x15 => some .popc | 0x16 => some .brev | 0x17 => some .bfx | 0x18 => some .bfi
  | 0x19 => some .sel | 0x1A => some .mov | 0x1B => some .ldi | 0x1C => some .lea
  | 0x1D => some .cmp | 0x1E => some .div | 0x1F => some .rem | 0x20 => some .br
  | 0x21 => some .bri | 0x22 => some .call | 0x23 => some .calli | 0x24 => some .ret
  | 0x25 => some .exit | 0x26 => some .yield | 0x27 => some .nop | 0x28 => some .loop
  | 0x40 => some .pand | 0x41 => some .por | 0x42 => some .pxor | 0x43 => some .pnot
  | 0x44 => some .pset | 0x45 => some .pget | 0x46 => some .vote | 0x47 => some .shfl
  | 0x48 => some .sred | 0x49 => some .sscan | 0x4A => some .ssync | 0x4B => some .elect
  | 0x4C => some .match | 0x4D => some .tbar | 0x4E => some .sysrd | 0x4F => some .clock
  | 0x50 => some .realign | 0x60 => some .fadd | 0x61 => some .fsub | 0x62 => some .fmul
  | 0x63 => some .fma | 0x64 => some .fmin | 0x65 => some .fmax | 0x66 => some .fabs
  | 0x67 => some .fneg | 0x68 => some .fcmp | 0x69 => some .fclass | 0x6A => some .frcp
  | 0x6B => some .frsq | 0x6C => some .fexp2 | 0x6D => some .flog2 | 0x6E => some .fdiv
  | 0x6F => some .fsqrt | 0x70 => some .cvt | 0x71 => some .cvtsr | 0x72 => some .dot4
  | 0x73 => some .dot2 | 0x74 => some .fscale | 0x75 => some .frnd | 0x76 => some .fflags
  | 0x80 => some .ld | 0x81 => some .st | 0x82 => some .atom | 0x83 => some .red
  | 0x84 => some .cas | 0x85 => some .faddw | 0x86 => some .waitw | 0x87 => some .pref
  | 0x88 => some .pagereq | 0x89 => some .clhint | 0xA0 => some .fence | 0xA1 => some .tspawn
  | 0xA2 => some .tdec | 0xA3 => some .tinc | 0xA4 => some .defer | 0xA5 => some .rwait
  | 0xA6 => some .rpop | 0xC0 => some .obres | 0xC1 => some .obrel | 0xC2 => some .obld
  | 0xC3 => some .mma | 0xC4 => some .mmap | 0xC5 => some .mzero | 0xC6 => some .mdrain
  | 0xC7 => some .mlease | 0xC8 => some .mfree | 0xC9 => some .quant | 0xCA => some .mrd
  | 0xCB => some .mwr | 0xE0 => some .cpy | 0xE1 => some .tcopy | 0xE2 => some .put
  | 0xE3 => some .get | 0xE4 => some .msg | 0xE5 => some .nmcmd | 0xE6 => some .sealput
  | 0xE7 => some .sealget | 0xE8 => some .sealswap | 0xE9 => some .sealref | 0xEA => some .unseal
  | 0xEB => some .trev | 0xEC => some .xlook | 0xF0 => some .trap | 0xF1 => some .rett
  | 0xF2 => some .csrrd | 0xF3 => some .csrwr | 0xF4 => some .tlbinv | 0xF5 => some .bkpt
  | 0xF6 => some .halt | 0xF7 => some .ctxsave | 0xF8 => some .ctxload | _ => none

/-- The types of R180. -/
inductive Ty where
  | b32 | i8 | n8 | i16 | n16 | i32 | n32 | i64 | n64 | b8 | b64 | b128 | h16 | bf16 | f32 | f64
  | e4m3 | e5m2 | q4 | h16x2 | bf16x2 | e4m3x4 | e5m2x4
deriving DecidableEq, Repr

/-- The TY codes of R180; 23 to 31 are reserved. -/
def Ty.ofCode : Nat → Option Ty
  | 0 => some .b32 | 1 => some .i8 | 2 => some .n8 | 3 => some .i16 | 4 => some .n16
  | 5 => some .i32 | 6 => some .n32 | 7 => some .i64 | 8 => some .n64 | 9 => some .b8
  | 10 => some .b64 | 11 => some .b128 | 12 => some .h16 | 13 => some .bf16 | 14 => some .f32
  | 15 => some .f64 | 16 => some .e4m3 | 17 => some .e5m2 | 18 => some .q4 | 19 => some .h16x2
  | 20 => some .bf16x2 | 21 => some .e4m3x4 | 22 => some .e5m2x4 | _ => none

/-- The number of registers a value of the type fills (R169, R218). -/
def Ty.regs : Ty → Nat
  | .i64 | .n64 | .b64 | .f64 => 2
  | .b128 => 4
  | _ => 1

/-- The access size in bytes (R218); q4 has none. -/
def Ty.size : Ty → Nat
  | .b8 | .n8 | .e4m3 | .e5m2 | .i8 => 1
  | .n16 | .h16 | .bf16 | .i16 => 2
  | .i64 | .n64 | .b64 | .f64 => 8
  | .b128 => 16
  | .q4 => 0
  | _ => 4

/-- The elements a packed type holds, 1 for every other type (R138). -/
def Ty.elems : Ty → Nat
  | .h16x2 | .bf16x2 => 2
  | .e4m3x4 | .e5m2x4 => 4
  | _ => 1

/-- The type of one element of a packed type (R138). -/
def Ty.elem : Ty → Ty
  | .h16x2 => .h16 | .bf16x2 => .bf16 | .e4m3x4 => .e4m3 | .e5m2x4 => .e5m2
  | t => t

/-- The floating types whose values one element holds: h16 to e5m2 and the packed types. -/
def Ty.isFloat : Ty → Bool
  | .h16 | .bf16 | .f32 | .f64 | .e4m3 | .e5m2 | .h16x2 | .bf16x2 | .e4m3x4 | .e5m2x4 => true
  | _ => false

/-- The integer types. -/
def Ty.isInt : Ty → Bool
  | .i8 | .n8 | .i16 | .n16 | .i32 | .n32 | .i64 | .n64 => true
  | _ => false

/-! The type classes of R193, R218, R221, R226, R227, R237, R246, R249 and R279. -/

def Ty.I : List Ty := [.b32, .i8, .n8, .i16, .n16, .i32, .n32, .i64, .n64]
def Ty.S : List Ty := [.b32, .i8, .i16, .i32, .i64]
def Ty.L : List Ty := [.b32, .b64]
def Ty.F : List Ty := [.h16, .bf16, .f32, .f64, .h16x2, .bf16x2]
def Ty.FS : List Ty := [.h16, .bf16, .f32, .f64]
def Ty.FA : List Ty := [.h16, .bf16, .f32, .h16x2, .bf16x2]
def Ty.FB : List Ty := Ty.F ++ [.e4m3, .e5m2, .e4m3x4, .e5m2x4]
def Ty.sized : List Ty :=
  [.b8, .n8, .e4m3, .e5m2, .i8, .n16, .h16, .bf16, .i16, .b32, .i32, .n32, .f32, .h16x2, .bf16x2,
   .e4m3x4, .e5m2x4, .b64, .i64, .n64, .f64, .b128]
def Ty.words : List Ty := [.b32, .b64, .b128]
def Ty.atomInt : List Ty := [.b32, .i32, .n32, .i64, .n64]
def Ty.atomFloat : List Ty := [.h16x2, .bf16x2, .f32, .f64]
def Ty.cvt : List Ty :=
  [.i8, .n8, .i16, .n16, .i32, .n32, .i64, .n64, .h16, .bf16, .f32, .f64, .e4m3, .e5m2, .q4,
   .h16x2, .bf16x2, .e4m3x4, .e5m2x4]
def Ty.cvtsrDst : List Ty := [.h16, .bf16, .e4m3, .e5m2, .h16x2, .bf16x2, .e4m3x4, .e5m2x4]
def Ty.putAdd : List Ty := [.f32, .bf16, .h16, .i32, .n32, .i64, .n64]

/-- The base layouts of R175. -/
inductive Layout where
  | none | b3 | b3p | b2 | b1 | a1 | b0 | bi (aZero dZero : Bool) | bj
deriving DecidableEq, Repr

/-- The marks of R179: what the 64-bit literal stands for. -/
inductive LitMark where
  | none | target | disp | tsr
deriving DecidableEq, Repr

/-- How an instruction uses field D, A, C or E: not at all, as a number, as registers it reads,
writes or both, or as a predicate it reads or writes. -/
inductive FieldUse where
  | zero | num | rd (n : Nat) | wr (n : Nat) | rw (n : Nat) | prd | pwr
deriving DecidableEq, Repr

/-- How an instruction uses fields B and BK: not at all, as operand B (R177) of some registers, as
the displacement of a memory operand (R177), as a 64-bit operand word (R252, R272), or as a
predicate. -/
inductive BUse where
  | zero | sel (n : Nat) | disp | opWord | pred
deriving DecidableEq, Repr

/-- The fields one instruction uses. `ty` and `sub` list the accepted codes; an instruction that
takes no type or no sub-operation lists none. -/
structure Uses where
  layout : Layout := .none
  mark : LitMark := .none
  ll : Bool := false
  priv : Bool := false
  collective : Bool := false
  d : FieldUse := .zero
  a : FieldUse := .zero
  c : FieldUse := .zero
  e : FieldUse := .zero
  b : BUse := .zero
  imm : Bool := false
  ty : List Ty := []
  sub : List Nat := []
  rf : Bool := false
  hint : Bool := false
  scope : Bool := false
  masks : Bool := false
  guard : Bool := true
deriving DecidableEq, Repr

/-- The type of an instruction, b32 where TY is reserved (such an instruction is refused). -/
def Ext.type (x : Ext) : Ty := (Ty.ofCode x.ty.toNat).getD .b32

/-- The source type code STY in IMM8B of CVT and CVTSR (R246). -/
def Ext.sty (x : Ext) : Option Ty := Ty.ofCode (x.imm.toNat % 32)

/-- The element index EI in IMM8B of CVT and CVTSR (R246). -/
def Ext.ei (x : Ext) : Nat := x.imm.toNat / 32 % 4

/-- The bytes of the instruction in this extended or base-plus-literal form (R174). -/
def Ext.len (x : Ext) : Nat := if x.short then 12 else if x.lit.isSome then 20 else 12

/-- The CSRs of R172 by width: some true for a 64-bit CSR, some false for a 32-bit one. -/
def csrWide (n : Nat) : Option Bool :=
  if n = 0x01 ∨ n = 0x02 ∨ n = 0x08 ∨ n = 0x10 ∨ (0x20 ≤ n ∧ n ≤ 0x23) ∨ (0x28 ≤ n ∧ n ≤ 0x2D) ∨
      n = 0x30 then some false
  else if (0x11 ≤ n ∧ n ≤ 0x13) ∨ (0x18 ≤ n ∧ n ≤ 0x1F) ∨ n = 0x40 then some true
  else none

/-- The registers a CSR fills (R172, R291). -/
def csrRegs (n : Nat) : Nat := if csrWide n = some true then 2 else 1

/-- Whether a launch thread may not access the CSR so (R172): Barrel's CTXBASE never, the read-only
ones by CSRWR. -/
def csrPrivileged (n : Nat) (write : Bool) : Bool :=
  n == 0x40 || (write && (n == 0x08 || (0x10 ≤ n && n ≤ 0x13)))

/-- CVT and CVTSR read X(D) too where R247 keeps some of its elements. -/
def cvtKeeps (src dst : Ty) : Bool :=
  dst.elems > src.elems && src.isFloat && (src.elems == 1 || dst.elems == 4)

/-- The sub-operations 0 to n - 1. -/
def upTo (n : Nat) : List Nat := List.range n

/-- Which fields each instruction uses: the entries of R195-R215 and the field tables R216, R239,
R252 and R272, with the base layouts, literals and classes of R184. Where an entry lets one field
choose what another is used for, the instruction's own fields decide. Where SUB is not assigned, a field that
only some assigned SUB uses counts as the last case of its choice here gives it.
DEDUCED (assumption 103). -/
def Op.uses (op : Op) (x : Ext) : Uses :=
  let t := x.type.regs
  match op with
  | .add | .sub | .mul | .mulh | .adds | .subs | .min | .max =>
    { layout := .b3, d := .wr t, a := .rd t, b := .sel t, ty := Ty.I }
  | .and | .or | .xor | .andn => { layout := .b3, d := .wr t, a := .rd t, b := .sel t, ty := Ty.L }
  | .shl | .shr | .sar | .rol => { layout := .b3, d := .wr t, a := .rd t, b := .sel 1, ty := Ty.L }
  | .mad => { d := .wr t, a := .rd t, b := .sel t, c := .rd t, ty := Ty.I }
  | .abs | .neg => { layout := .b2, d := .wr t, a := .rd t, ty := Ty.S }
  | .clz | .popc => { layout := .b2, d := .wr 1, a := .rd t, ty := Ty.L }
  | .brev => { layout := .b2, d := .wr t, a := .rd t, ty := Ty.L }
  | .bfx => { d := .wr t, a := .rd t, b := .sel 1, e := .num, ty := Ty.I }
  | .bfi => { d := .rw t, a := .rd t, b := .sel 1, e := .num, ty := Ty.L }
  | .sel => { d := .wr t, a := .rd t, b := .sel t, c := .prd, ty := Ty.L }
  | .mov =>
    if x.a = 0 then
      { layout := .b2, d := .wr t, b := .sel t, ty := [.b32, .b64, .b128, .i8, .n8, .i16, .n16] }
    else
      { layout := .b2, d := .wr t, a := .rd t, ty := [.b32, .b64, .b128, .i8, .n8, .i16, .n16] }
  | .ldi => { layout := .bi true false, d := .wr t, imm := true, ty := Ty.L }
  | .lea => { mark := .disp, d := .wr 2, a := .rd 2, b := .disp }
  | .cmp => { d := .pwr, a := .rd t, b := .sel t, e := .pwr, ty := Ty.I, sub := upTo 6 }
  | .div | .rem => { ll := true, d := .wr t, a := .rd t, b := .sel t, ty := Ty.I }
  | .br => { layout := .bj, mark := .target, imm := true }
  | .call => { layout := .bj, mark := .target, imm := true }
  | .bri | .calli => { layout := .a1, a := .rd 2 }
  | .ret | .exit | .yield | .nop => { layout := .b0 }
  | .loop => { mark := .target, d := .rw 1, imm := true }
  | .pand | .por | .pxor => { layout := .b3p, d := .pwr, a := .prd, b := .pred }
  | .pnot => { layout := .b2, d := .pwr, a := .prd }
  | .pset => { layout := .b2, d := .pwr, a := .rd 1 }
  | .pget => { layout := .b2, d := .wr 1, a := .prd }
  | .vote =>
    { collective := true, d := if x.sub.toNat < 2 then .pwr else .wr 2, a := .prd, sub := upTo 3 }
  | .shfl =>
    { collective := true, d := .wr t, a := .rd t, b := .sel 1, e := .pwr, ty := Ty.L,
      sub := upTo 4 }
  | .sred =>
    { collective := true, d := .wr t, a := .rd t, ty := Ty.I ++ [.b64] ++ Ty.FS, sub := upTo 9 }
  | .sscan =>
    { collective := true, d := .wr t, a := .rd t, ty := Ty.I ++ [.b64] ++ Ty.FS,
      sub := upTo 9 ++ (upTo 9).map (· + 16) }
  | .ssync | .tbar => { layout := .b0, guard := false }
  | .elect => { collective := true, d := .pwr, e := .wr 1 }
  | .match => { collective := true, d := .wr 2, a := .rd t, e := .pwr, ty := Ty.L }
  | .sysrd => { layout := .bi true false, d := .wr 1, imm := true }
  | .clock => { layout := .b1, d := .wr 2, sub := upTo 2 }
  | .realign => { layout := .bi true true, imm := true }
  | .fadd | .fsub | .fmul | .fmin | .fmax =>
    { layout := .b3, d := .wr t, a := .rd t, b := .sel t, ty := Ty.F }
  | .fma => { d := .wr t, a := .rd t, b := .sel t, c := .rd t, ty := Ty.F }
  | .fabs | .fneg => { layout := .b2, d := .wr t, a := .rd t, ty := Ty.FB }
  | .fcmp => { d := .pwr, a := .rd t, b := .sel t, e := .pwr, ty := Ty.FS, sub := upTo 8 }
  | .fclass => { layout := .b2, d := .wr 1, a := .rd t, ty := Ty.FS ++ [.e4m3, .e5m2] }
  | .frcp | .frsq | .fexp2 | .flog2 => { ll := true, d := .wr t, a := .rd t, ty := Ty.FA }
  | .fdiv => { ll := true, d := .wr t, a := .rd t, b := .sel t, ty := Ty.F }
  | .fsqrt => { ll := true, d := .wr t, a := .rd t, ty := Ty.F }
  | .cvt =>
    let s := x.sty.getD .b32
    { d := if cvtKeeps s x.type then .rw t else .wr t, a := .rd s.regs,
      c := if s = .q4 ∨ x.type = .q4 then .rd 1 else .zero, imm := true, ty := Ty.cvt,
      sub := upTo 4 }
  | .cvtsr =>
    let s := x.sty.getD .b32
    { d := if cvtKeeps s x.type then .rw t else .wr t, a := .rd s.regs, imm := true,
      ty := Ty.cvtsrDst }
  | .dot4 =>
    { d := .wr 1, a := .rd 1, b := .sel 1, c := .rd 1, ty := [.e4m3x4, .e5m2x4], sub := upTo 2 }
  | .dot2 => { d := .wr 1, a := .rd 1, b := .sel 1, c := .rd 1, ty := [.h16x2, .bf16x2] }
  | .fscale => { layout := .b3, d := .wr t, a := .rd t, b := .sel 1, ty := Ty.FS }
  | .frnd => { d := .wr t, a := .rd t, ty := Ty.F, sub := upTo 4 }
  | .fflags =>
    { d := if x.sub.toNat < 2 then .wr 1 else .zero, a := if x.sub.toNat < 2 then .zero else .rd 1,
      sub := upTo 4 }
  | .ld =>
    { mark := .disp, ll := true, d := .wr t, a := .rd 2, b := .disp, ty := Ty.sized, rf := true,
      hint := true }
  | .st =>
    { layout := .bi false false, mark := .disp, d := .rd t, a := .rd 2, b := .disp, ty := Ty.sized,
      rf := true, hint := true }
  | .atom =>
    { mark := .disp, ll := true, d := .wr t, a := .rd 2, b := .disp, c := .rd t,
      ty := Ty.atomInt ++ [.b64] ++ Ty.atomFloat, sub := upTo 10, rf := true, hint := true }
  | .red =>
    { mark := .disp, a := .rd 2, b := .disp, c := .rd t,
      ty := Ty.atomInt ++ [.b64] ++ Ty.atomFloat, sub := upTo 10, rf := true, hint := true }
  | .cas =>
    { mark := .disp, ll := true, d := .wr t, a := .rd 2, b := .disp, c := .rd t, e := .rd t,
      ty := Ty.words, rf := true, hint := true }
  | .faddw =>
    { mark := .disp, ll := true, d := .wr t, a := .rd 2, b := .disp, c := .rd t,
      e := if x.sub = 1 then .num else .zero, ty := Ty.atomInt ++ [.f32], sub := upTo 3,
      rf := true, hint := true }
  | .waitw =>
    { mark := .disp, d := .wr t, a := .rd 2, b := .disp, c := .rd t, e := .rd 1,
      ty := [.b32, .b64, .i32, .n32, .i64, .n64, .f32], sub := upTo 2, rf := true, scope := true,
      masks := true }
  | .pref =>
    { layout := .bi false true, mark := .disp, a := .rd 2, b := .disp, rf := true, hint := true }
  | .pagereq => { mark := .disp, a := .rd 2, b := .disp, c := .rd 2 }
  | .clhint => { mark := .disp, a := .rd 2, b := .disp, sub := upTo 4, rf := true }
  | .fence => { scope := true, masks := true }
  | .tspawn => { mark := .disp, a := .rd 2, b := .disp }
  | .tdec | .tinc =>
    { mark := .disp, a := .rd 2, b := .disp, c := if x.sub = 1 then .zero else .rd 1,
      sub := upTo 2 }
  | .defer =>
    { mark := .disp, a := .rd 2, b := .disp, c := .rd 2, e := .rd 1, scope := true, masks := true }
  | .rwait => { d := .wr 1, imm := true, scope := true, masks := true }
  | .rpop => { layout := .bi true true, imm := true }
  | .obres => { d := .wr 1, c := .rd 1, e := .pwr }
  | .obrel => { a := .rd 1 }
  | .obld =>
    { mark := .disp, ll := true, a := .rd 2, b := .disp, c := .rd 1, ty := Ty.words, rf := true,
      hint := true }
  | .mma | .mmap =>
    { ll := true, collective := true, a := .rd 2, b := .opWord, c := .rd 2,
      e := if x.e = 0 then .zero else .rd 2, ty := [.h16, .bf16, .e4m3, .e5m2, .q4], sub := upTo 2, guard := false }
  | .mzero => { ll := true, collective := true, c := .rd 2, sub := upTo 2, guard := false }
  | .mdrain =>
    { mark := .tsr, ll := true, collective := true, d := .pwr,
      a := if x.lit.isSome then .zero else .rd 2, c := .rd 2, e := .rd 2,
      ty := [.f32, .bf16, .h16, .e4m3, .e5m2], sub := upTo 2, guard := false }
  | .mlease | .mfree => {}
  | .quant =>
    let side := if bitOf x.sub.toNat 2 then .zero else .rd 2
    { ll := true, collective := true, a := side, b := .opWord, c := .rd 2, e := side,
      ty := [.q4], sub := upTo 8, guard := false }
  | .mrd => { ll := true, d := .wr t, c := .rd 1, ty := Ty.words }
  | .mwr => { ll := true, a := .rd t, c := .rd 1, ty := Ty.words }
  | .cpy =>
    { mark := .disp, ll := true, d := .pwr, a := .rd 2, b := .disp, c := .rd 2, e := .rd 2,
      ty := Ty.words, hint := true }
  | .tcopy =>
    { mark := .tsr, ll := true, d := .pwr, a := if x.lit.isSome then .zero else .rd 2, c := .rd 2,
      e := .rd 2, sub := upTo 2, hint := true }
  | .put =>
    { ll := true, d := .pwr, a := .rd 2, b := .opWord, c := .rd 1, e := .rd 2,
      ty := .b32 :: Ty.putAdd, sub := upTo 2 }
  | .get | .msg => { ll := true, d := .pwr, a := .rd 2, b := .opWord, c := .rd 1, e := .rd 2 }
  | .nmcmd =>
    { ll := true, d := .pwr, a := .rd 2, c := .rd 2, e := .rd 2, imm := true, ty := [.b32, .f32],
      sub := upTo 4 }
  | .sealput =>
    { mark := .disp, ll := true, d := .wr 4, a := .rd 2, b := .disp, c := .rd 1, rf := true }
  | .sealget => { mark := .disp, ll := true, a := .rd 2, b := .disp, c := .rd 4, rf := true }
  | .sealswap =>
    { mark := .disp, ll := true, d := .wr 4, a := .rd 2, b := .disp, c := .rd 4, e := .rd 4,
      rf := true }
  | .sealref => { ll := true, d := .wr 1, c := .rd 4, sub := upTo 3 }
  | .unseal => { ll := true, d := .pwr, a := .rd 2, b := .opWord, c := .rd 4, e := .rd 2 }
  | .trev => { a := .rd 1, imm := true }
  | .xlook => { ll := true, d := .wr 4, a := .rd 1, c := .rd 1 }
  | .trap => { layout := .bi true true, imm := true }
  | .rett => { layout := .b0 }
  | .csrrd => { layout := .bi true false, d := .wr (csrRegs x.imm.toNat), imm := true }
  | .csrwr => { layout := .bi false true, a := .rd (csrRegs x.imm.toNat), imm := true }
  | .tlbinv => { priv := true, a := .rd 2, b := .disp, sub := upTo 2, scope := true }
  | .bkpt => { layout := .b0 }
  | .halt => { layout := .b0, priv := true }
  | .ctxsave | .ctxload => { priv := true, c := .rd 1, e := .rd 2 }

/-- The types a sub-operation accepts, where it narrows the instruction's set (R210, R221, R266,
R279, R284). -/
def Op.subTypes (op : Op) (sub : Nat) : Option (List Ty) :=
  match op with
  | .atom | .red =>
    some (if sub < 3 then Ty.atomInt else if sub < 7 then Ty.L else Ty.atomFloat)
  | .sred | .sscan =>
    some (if sub % 16 < 3 then Ty.I else if sub % 16 < 6 then Ty.L else Ty.FS)
  | .mdrain => some (if sub = 0 then [.f32, .bf16, .h16, .e4m3, .e5m2] else [.f32, .bf16, .h16])
  | .put => some (if sub = 0 then [.b32] else Ty.putAdd)
  | .nmcmd => some (if sub = 0 ∨ sub = 2 then [.f32] else [.b32])
  | _ => none

/-- The pairings of source and destination type that R247 and R248 permit for CVT. -/
def cvtPairs (src dst : Ty) : Bool :=
  if src.elems > 1 ∨ dst.elems > 1 then
    (src.elems == 1 || dst.isFloat) && (dst.elems == 1 || src.isFloat)
  else (src != .q4 || dst.isFloat) && (dst != .q4 || src.isFloat)

/-- The element indexes R247 permits for a pairing: those below this number. -/
def cvtEiLimit (src dst : Ty) : Nat :=
  if src.elems > 1 ∧ dst.elems > 1 then (if src.elems = dst.elems then 1 else 2)
  else Nat.max src.elems dst.elems

/-- Whether CVT or CVTSR accepts its two types (R246, R248, R249). -/
def cvtTypesOk (op : Op) (src dst : Ty) : Bool :=
  if op = .cvtsr then
    [Ty.h16, .bf16, .f32, .f64].contains src && Ty.cvtsrDst.contains dst
  else Ty.cvt.contains src && Ty.cvt.contains dst && cvtPairs src dst

/-- R181 step 5 for one field: not used and not zero. -/
def FieldUse.bad (u : FieldUse) (v : BitVec 7) : Bool := u == .zero && v != 0

/-- R177: the fields of operand B or of a memory operand that must be zero are not. -/
def badB (op : Op) (u : Uses) (x : Ext) : Bool :=
  match u.b with
  | .zero => x.b != 0 || x.bk
  | .pred => x.bk
  | .opWord => false
  | .sel _ =>
    x.sel.toNat > 2 || (x.sel != 0 && (x.b != 0 || x.bk)) || (x.sel == 0 && x.imm != 0) ||
      (op == .mov && x.type == .b128 && (x.bk || x.sel != 0))
  | .disp =>
    (!x.bk && x.b != 0) || (x.bk && x.lit.isSome) ||
      ((x.bk || x.lit.isSome) && x.imm != 0 && !(op == .faddw && x.sub == 0))

/-- Whether the instruction uses IMM8B, for an immediate, a displacement or a number. -/
def Uses.immUsed (u : Uses) : Bool :=
  u.imm || (match u.b with | .sel _ => true | .disp => true | _ => false)

/-- R181 step 5: some field that must be zero is not, or a hint, scope or selector is reserved. -/
def reservedBits (op : Op) (x : Ext) : Bool :=
  let u := op.uses x
  u.d.bad x.d || u.a.bad x.a || u.c.bad x.c || u.e.bad x.e || badB op u x ||
  (!u.immUsed && x.imm != 0) ||
  (u.ty.isEmpty && x.ty != 0) || (u.sub.isEmpty && x.sub != 0) ||
  (!u.ll && x.la != 0) || (!u.rf && x.rf != 0) || (!u.hint && x.hint != 0) || x.hint.toNat > 3 ||
  (!u.masks && (x.pm1 != 0 || x.pm2 != 0)) || (!u.guard && (x.gn || x.gp != 0)) ||
  (u.scope && x.sel.toNat > 4) ||
  (!u.scope && (match u.b with | .sel _ => false | _ => true) && x.sel != 0) ||
  (u.mark == .target && x.lit.isSome && x.imm != 0) ||
  (op == .tlbinv && !(x.sel == 2 || x.sel == 3)) ||
  ((op == .cvt || op == .cvtsr) &&
    (x.imm.toNat ≥ 128 ||
      (match x.sty, Ty.ofCode x.ty.toNat with
        | some s, some d => cvtTypesOk op s d && decide (cvtEiLimit s d ≤ x.ei)
        | _, _ => false)))

/-- R181 step 6: TY reserved or not accepted. -/
def illegalType (op : Op) (x : Ext) : Bool :=
  let u := op.uses x
  match Ty.ofCode x.ty.toNat with
  | none => true
  | some t =>
    if op = .cvt ∨ op = .cvtsr then
      (match x.sty with | none => true | some s => !cvtTypesOk op s t)
    else
      !u.ty.isEmpty &&
        (!u.ty.contains t ||
          (u.sub.contains x.sub.toNat &&
            (match op.subTypes x.sub.toNat with | none => false | some l => !l.contains t)))

/-- R181 step 7: a SUB not assigned, or an immediate outside the range that its entry gives with
cause ILLEGAL_SUBOP (R213, R215, R290). -/
def illegalSubop (op : Op) (x : Ext) : Bool :=
  let u := op.uses x
  (!u.sub.isEmpty && !u.sub.contains x.sub.toNat) ||
  (match op with
    | .cvt => x.type == .q4 && x.sub != 0
    | .sysrd => x.imm.toNat > 8
    | .realign => !(x.imm == 0 || (6 ≤ x.imm.toNat && x.imm.toNat ≤ 16))
    | .trap => x.imm.toNat > 31
    | _ => false)

/-- R181 step 4: no base layout for a base form with a literal, or no literal allowed (R179). -/
def illegalLength (op : Op) (x : Ext) : Bool :=
  let u := op.uses x
  (x.short && u.layout == .none) || ((x.short || x.lit.isSome) && u.mark == .none)

/-- A base-plus-literal form carries nothing but its base layout's fields (R174, R175). -/
def shortFields (op : Op) (x : Ext) : Bool :=
  !x.short ||
    (x.lit.isSome && !x.bk && x.b == 0 && x.rf == 0 && x.e == 0 && x.c == 0 && x.ty == 0 &&
      x.la == 0 && x.pm2 == 0 && x.pm1 == 0 && x.imm == 0 && x.sub == 0 && x.hint == 0 &&
      x.sel == 0 && (op == .br || op == .call || (x.gp == 0 && !x.gn)))

/-- The decode checks of R181, steps 4 to 7: the cause of the first that fails. -/
def decodeCheck (op : Op) (x : Ext) : Option Nat :=
  if illegalLength op x then some Cause.illegalLength
  else if reservedBits op x || !shortFields op x then some Cause.reservedBits
  else if illegalType op x then some Cause.illegalType
  else if illegalSubop op x then some Cause.illegalSubop
  else none

/-- A register or predicate operand: `count` registers from `num`, or one predicate. -/
structure Operand where
  pred : Bool
  num : Nat
  count : Nat
  reads : Bool
  writes : Bool
deriving DecidableEq, Repr

/-- The operands one field names. -/
def FieldUse.operands (u : FieldUse) (v : BitVec 7) : List Operand :=
  match u with
  | .zero | .num => []
  | .rd n => [⟨false, v.toNat, n, true, false⟩]
  | .wr n => [⟨false, v.toNat, n, false, true⟩]
  | .rw n => [⟨false, v.toNat, n, true, true⟩]
  | .prd => [⟨true, v.toNat, 1, true, false⟩]
  | .pwr => [⟨true, v.toNat, 1, false, true⟩]

/-- The register or predicate that operand B names, if it names one. -/
def bOperands (u : Uses) (x : Ext) : List Operand :=
  match u.b with
  | .zero | .disp => []
  | .sel n => if x.bk || x.sel != 0 then [] else [⟨false, x.b.toNat, n, true, false⟩]
  | .opWord => if x.bk then [] else [⟨false, x.b.toNat, 2, true, false⟩]
  | .pred => [⟨true, x.b.toNat, 1, true, false⟩]

/-- Every register and predicate that the instruction's fields name, the guard read among them and
the residency flag written (R182). -/
def Op.operands (op : Op) (x : Ext) : List Operand :=
  let u := op.uses x
  u.d.operands x.d ++ u.a.operands x.a ++ bOperands u x ++ u.c.operands x.c ++ u.e.operands x.e ++
    [⟨true, x.gp.toNat, 1, true, false⟩] ++
    (if x.rf = 0 then [] else [⟨true, x.rf.toNat, 1, false, true⟩])

/-- R169, R171: the operand is not a legal register, pair, quad or predicate under n registers. -/
def Operand.illegal (o : Operand) (n : Nat) : Bool :=
  if o.pred then decide (8 ≤ o.num) else o.num % o.count != 0 || decide (n < o.num + o.count)

/-- R181 step 8: a register field fails R169 or R171, or a CSR number is not in R172's table. -/
def illegalRegister (op : Op) (x : Ext) (n : Nat) : Bool :=
  (op.operands x).any (·.illegal n) ||
    ((op == .csrrd || op == .csrwr) && csrWide x.imm.toNat == none)

/-- R181 step 9: what a launch thread may not issue (R172, R184, R292). -/
def privilegedForm (op : Op) (x : Ext) : Bool :=
  (op.uses x).priv || (op == .csrrd && csrPrivileged x.imm.toNat false) ||
    (op == .csrwr && csrPrivileged x.imm.toNat true)

/-- Whether the instruction can raise a flag in FFLAGS (R144, R148, R195, R210, R222, R226, R238). -/
def raisesFlags (op : Op) (x : Ext) : Bool :=
  match op with
  | .adds | .subs | .fadd | .fsub | .fmul | .fma | .fmin | .fmax | .fcmp | .frcp | .frsq | .fexp2
  | .flog2 | .fdiv | .fsqrt | .cvt | .cvtsr | .dot4 | .dot2 | .fscale | .frnd => true
  | .sred | .sscan => decide (6 ≤ x.sub.toNat % 16)
  | .atom => decide (7 ≤ x.sub.toNat)
  | .faddw => x.type == .f32
  | _ => false

/-- Whether the instruction counts as reading or writing FFLAGS (R182, R251). -/
def touchesFflags (op : Op) (x : Ext) : Bool :=
  op == .fflags || ((op == .csrrd || op == .csrwr) && x.imm.toNat == 1)

/-- A pending set (R182): registers, predicates, and whether FFLAGS is pending. -/
structure Pending where
  regs : List Nat
  preds : List Nat
  fflags : Bool
deriving DecidableEq, Repr

/-- The registers of the operands that `f` picks, without x0 (R182). -/
def operandRegs (os : List Operand) (f : Operand → Bool) : List Nat :=
  ((os.filter fun o => !o.pred && f o).flatMap fun o => List.range' o.num o.count).filter (· != 0)

/-- The predicates of the operands that `f` picks, without p0 (R171, R182). -/
def operandPreds (os : List Operand) (f : Operand → Bool) : List Nat :=
  ((os.filter fun o => o.pred && f o).map (·.num)).filter (· != 0)

/-- The pending set of a long-latency instruction (R182): what its fields name as written. That of OBLD is
empty (R253), and SEALPUT and SEALGET have no predicate in theirs (R286).
DEDUCED (assumption 102). -/
def pendingSet (op : Op) (x : Ext) : Pending :=
  { regs := operandRegs (op.operands x) (·.writes)
    preds := if op ∈ ([.obld, .sealput, .sealget] : List Op) then [] else operandPreds (op.operands x) (·.writes)
    fflags := raisesFlags op x }

/-- R182: the instruction reads or writes a member of the pending set. -/
def Pending.conflicts (p : Pending) (op : Op) (x : Ext) : Bool :=
  let os := op.operands x
  (operandRegs os fun _ => true).any (p.regs.contains ·) ||
    (operandPreds os fun _ => true).any (p.preds.contains ·) || (p.fflags && touchesFflags op x)

/-! The base forms as the fields of the extended form they stand for (R175, R180). The base forms of
the floating-point group have type f32, all others b32. -/

def f32Code : BitVec 5 := 14

def Ext.b3 (k : Bool) (b a d : BitVec 7) : Ext := { Ext.zero with bk := k, b, a, d }
def Ext.b3f (k : Bool) (b a d : BitVec 7) : Ext := { Ext.zero with bk := k, b, a, d, ty := f32Code }
def Ext.b2 (a d : BitVec 7) : Ext := { Ext.zero with a, d }
def Ext.b2f (a d : BitVec 7) : Ext := { Ext.zero with a, d, ty := f32Code }
def Ext.bi (i : BitVec 8) (a d : BitVec 7) : Ext := { Ext.zero with imm := i, a, d }
def Ext.bj (o : BitVec 8) (n : Bool) (g : BitVec 3) : Ext :=
  { Ext.zero with imm := o, gn := n, gp := g }

end Sys2Proof
end

