-- ==== Sys2Proof/Machine/Maps.lean ====
section
/-! DEFINITION. The constructors of Instr beside the opcode and the fields they stand for: SIMT
instructions as an opcode of R184 with the fields of R175 and R176, Scribe instructions as the word
fields of R186. Both the decoder and the encoder are written over these maps. -/

namespace Sys2Proof

/-- The opcode, fields and length in bytes of a SIMT instruction; none for every other step.
DESIGN CHOICE (assumption 87). -/
def Instr.simt : Instr → Option (Op × Ext × Nat)
  | .add k b a d => some (.add, .b3 k b a d, 4)
  | .addExt x => some (.add, x, x.len)
  | .sub k b a d => some (.sub, .b3 k b a d, 4)
  | .subExt x => some (.sub, x, x.len)
  | .mul k b a d => some (.mul, .b3 k b a d, 4)
  | .mulExt x => some (.mul, x, x.len)
  | .mulh k b a d => some (.mulh, .b3 k b a d, 4)
  | .mulhExt x => some (.mulh, x, x.len)
  | .mad x => some (.mad, x, x.len)
  | .adds k b a d => some (.adds, .b3 k b a d, 4)
  | .addsExt x => some (.adds, x, x.len)
  | .subs k b a d => some (.subs, .b3 k b a d, 4)
  | .subsExt x => some (.subs, x, x.len)
  | .and k b a d => some (.and, .b3 k b a d, 4)
  | .andExt x => some (.and, x, x.len)
  | .or k b a d => some (.or, .b3 k b a d, 4)
  | .orExt x => some (.or, x, x.len)
  | .xor k b a d => some (.xor, .b3 k b a d, 4)
  | .xorExt x => some (.xor, x, x.len)
  | .andn k b a d => some (.andn, .b3 k b a d, 4)
  | .andnExt x => some (.andn, x, x.len)
  | .shl k b a d => some (.shl, .b3 k b a d, 4)
  | .shlExt x => some (.shl, x, x.len)
  | .shr k b a d => some (.shr, .b3 k b a d, 4)
  | .shrExt x => some (.shr, x, x.len)
  | .sar k b a d => some (.sar, .b3 k b a d, 4)
  | .sarExt x => some (.sar, x, x.len)
  | .rol k b a d => some (.rol, .b3 k b a d, 4)
  | .rolExt x => some (.rol, x, x.len)
  | .min k b a d => some (.min, .b3 k b a d, 4)
  | .minExt x => some (.min, x, x.len)
  | .max k b a d => some (.max, .b3 k b a d, 4)
  | .maxExt x => some (.max, x, x.len)
  | .abs a d => some (.abs, .b2 a d, 4)
  | .absExt x => some (.abs, x, x.len)
  | .neg a d => some (.neg, .b2 a d, 4)
  | .negExt x => some (.neg, x, x.len)
  | .clz a d => some (.clz, .b2 a d, 4)
  | .clzExt x => some (.clz, x, x.len)
  | .popc a d => some (.popc, .b2 a d, 4)
  | .popcExt x => some (.popc, x, x.len)
  | .brev a d => some (.brev, .b2 a d, 4)
  | .brevExt x => some (.brev, x, x.len)
  | .bfx x => some (.bfx, x, x.len)
  | .bfi x => some (.bfi, x, x.len)
  | .sel x => some (.sel, x, x.len)
  | .mov a d => some (.mov, .b2 a d, 4)
  | .movExt x => some (.mov, x, x.len)
  | .ldi i d => some (.ldi, .bi i 0 d, 4)
  | .ldiExt x => some (.ldi, x, x.len)
  | .lea x => some (.lea, x, x.len)
  | .cmp x => some (.cmp, x, x.len)
  | .div x => some (.div, x, x.len)
  | .rem x => some (.rem, x, x.len)
  | .br o n g => some (.br, .bj o n g, 4)
  | .brExt x => some (.br, x, x.len)
  | .bri a => some (.bri, .b2 a 0, 4)
  | .briExt x => some (.bri, x, x.len)
  | .call o n g => some (.call, .bj o n g, 4)
  | .callExt x => some (.call, x, x.len)
  | .calli a => some (.calli, .b2 a 0, 4)
  | .calliExt x => some (.calli, x, x.len)
  | .ret => some (.ret, Ext.zero, 4)
  | .retExt x => some (.ret, x, x.len)
  | .exit => some (.exit, Ext.zero, 4)
  | .exitExt x => some (.exit, x, x.len)
  | .yield => some (.yield, Ext.zero, 4)
  | .yieldExt x => some (.yield, x, x.len)
  | .nop => some (.nop, Ext.zero, 4)
  | .nopExt x => some (.nop, x, x.len)
  | .loop x => some (.loop, x, x.len)
  | .pand b a d => some (.pand, .b3 false b a d, 4)
  | .pandExt x => some (.pand, x, x.len)
  | .por b a d => some (.por, .b3 false b a d, 4)
  | .porExt x => some (.por, x, x.len)
  | .pxor b a d => some (.pxor, .b3 false b a d, 4)
  | .pxorExt x => some (.pxor, x, x.len)
  | .pnot a d => some (.pnot, .b2 a d, 4)
  | .pnotExt x => some (.pnot, x, x.len)
  | .pset a d => some (.pset, .b2 a d, 4)
  | .psetExt x => some (.pset, x, x.len)
  | .pget a d => some (.pget, .b2 a d, 4)
  | .pgetExt x => some (.pget, x, x.len)
  | .vote x => some (.vote, x, x.len)
  | .shfl x => some (.shfl, x, x.len)
  | .sred x => some (.sred, x, x.len)
  | .sscan x => some (.sscan, x, x.len)
  | .ssync => some (.ssync, Ext.zero, 4)
  | .ssyncExt x => some (.ssync, x, x.len)
  | .elect x => some (.elect, x, x.len)
  | .match x => some (.match, x, x.len)
  | .tbar => some (.tbar, Ext.zero, 4)
  | .tbarExt x => some (.tbar, x, x.len)
  | .sysrd i d => some (.sysrd, .bi i 0 d, 4)
  | .sysrdExt x => some (.sysrd, x, x.len)
  | .clock d => some (.clock, .b2 0 d, 4)
  | .clockExt x => some (.clock, x, x.len)
  | .realign i => some (.realign, .bi i 0 0, 4)
  | .realignExt x => some (.realign, x, x.len)
  | .fadd k b a d => some (.fadd, .b3f k b a d, 4)
  | .faddExt x => some (.fadd, x, x.len)
  | .fsub k b a d => some (.fsub, .b3f k b a d, 4)
  | .fsubExt x => some (.fsub, x, x.len)
  | .fmul k b a d => some (.fmul, .b3f k b a d, 4)
  | .fmulExt x => some (.fmul, x, x.len)
  | .fma x => some (.fma, x, x.len)
  | .fmin k b a d => some (.fmin, .b3f k b a d, 4)
  | .fminExt x => some (.fmin, x, x.len)
  | .fmax k b a d => some (.fmax, .b3f k b a d, 4)
  | .fmaxExt x => some (.fmax, x, x.len)
  | .fabs a d => some (.fabs, .b2f a d, 4)
  | .fabsExt x => some (.fabs, x, x.len)
  | .fneg a d => some (.fneg, .b2f a d, 4)
  | .fnegExt x => some (.fneg, x, x.len)
  | .fcmp x => some (.fcmp, x, x.len)
  | .fclass a d => some (.fclass, .b2f a d, 4)
  | .fclassExt x => some (.fclass, x, x.len)
  | .frcp x => some (.frcp, x, x.len)
  | .frsq x => some (.frsq, x, x.len)
  | .fexp2 x => some (.fexp2, x, x.len)
  | .flog2 x => some (.flog2, x, x.len)
  | .fdiv x => some (.fdiv, x, x.len)
  | .fsqrt x => some (.fsqrt, x, x.len)
  | .cvt x => some (.cvt, x, x.len)
  | .cvtsr x => some (.cvtsr, x, x.len)
  | .dot4 x => some (.dot4, x, x.len)
  | .dot2 x => some (.dot2, x, x.len)
  | .fscale k b a d => some (.fscale, .b3f k b a d, 4)
  | .fscaleExt x => some (.fscale, x, x.len)
  | .frnd x => some (.frnd, x, x.len)
  | .fflags x => some (.fflags, x, x.len)
  | .ld x => some (.ld, x, x.len)
  | .st i a d => some (.st, .bi i a d, 4)
  | .stExt x => some (.st, x, x.len)
  | .atom x => some (.atom, x, x.len)
  | .red x => some (.red, x, x.len)
  | .cas x => some (.cas, x, x.len)
  | .faddw x => some (.faddw, x, x.len)
  | .waitw x => some (.waitw, x, x.len)
  | .pref i a => some (.pref, .bi i a 0, 4)
  | .prefExt x => some (.pref, x, x.len)
  | .pagereq x => some (.pagereq, x, x.len)
  | .clhint x => some (.clhint, x, x.len)
  | .fence x => some (.fence, x, x.len)
  | .tspawn x => some (.tspawn, x, x.len)
  | .tdec x => some (.tdec, x, x.len)
  | .tinc x => some (.tinc, x, x.len)
  | .defer x => some (.defer, x, x.len)
  | .rwait x => some (.rwait, x, x.len)
  | .rpop i => some (.rpop, .bi i 0 0, 4)
  | .rpopExt x => some (.rpop, x, x.len)
  | .obres x => some (.obres, x, x.len)
  | .obrel x => some (.obrel, x, x.len)
  | .obld x => some (.obld, x, x.len)
  | .mma x => some (.mma, x, x.len)
  | .mmap x => some (.mmap, x, x.len)
  | .mzero x => some (.mzero, x, x.len)
  | .mdrain x => some (.mdrain, x, x.len)
  | .mlease x => some (.mlease, x, x.len)
  | .mfree x => some (.mfree, x, x.len)
  | .quant x => some (.quant, x, x.len)
  | .mrd x => some (.mrd, x, x.len)
  | .mwr x => some (.mwr, x, x.len)
  | .cpy x => some (.cpy, x, x.len)
  | .tcopy x => some (.tcopy, x, x.len)
  | .put x => some (.put, x, x.len)
  | .get x => some (.get, x, x.len)
  | .msg x => some (.msg, x, x.len)
  | .nmcmd x => some (.nmcmd, x, x.len)
  | .sealput x => some (.sealput, x, x.len)
  | .sealget x => some (.sealget, x, x.len)
  | .sealswap x => some (.sealswap, x, x.len)
  | .sealref x => some (.sealref, x, x.len)
  | .unseal x => some (.unseal, x, x.len)
  | .trev x => some (.trev, x, x.len)
  | .xlook x => some (.xlook, x, x.len)
  | .trap i => some (.trap, .bi i 0 0, 4)
  | .trapExt x => some (.trap, x, x.len)
  | .rett => some (.rett, Ext.zero, 4)
  | .rettExt x => some (.rett, x, x.len)
  | .csrrd i d => some (.csrrd, .bi i 0 d, 4)
  | .csrrdExt x => some (.csrrd, x, x.len)
  | .csrwr i a => some (.csrwr, .bi i a 0, 4)
  | .csrwrExt x => some (.csrwr, x, x.len)
  | .tlbinv x => some (.tlbinv, x, x.len)
  | .bkpt => some (.bkpt, Ext.zero, 4)
  | .bkptExt x => some (.bkpt, x, x.len)
  | .halt => some (.halt, Ext.zero, 4)
  | .haltExt x => some (.halt, x, x.len)
  | .ctxsave x => some (.ctxsave, x, x.len)
  | .ctxload x => some (.ctxload, x, x.len)
  | _ => none

/-- The instruction of an opcode in extended or base-plus-literal form. -/
def Op.toExt : Op → Ext → Instr
  | .add, x => .addExt x
  | .sub, x => .subExt x
  | .mul, x => .mulExt x
  | .mulh, x => .mulhExt x
  | .mad, x => .mad x
  | .adds, x => .addsExt x
  | .subs, x => .subsExt x
  | .and, x => .andExt x
  | .or, x => .orExt x
  | .xor, x => .xorExt x
  | .andn, x => .andnExt x
  | .shl, x => .shlExt x
  | .shr, x => .shrExt x
  | .sar, x => .sarExt x
  | .rol, x => .rolExt x
  | .min, x => .minExt x
  | .max, x => .maxExt x
  | .abs, x => .absExt x
  | .neg, x => .negExt x
  | .clz, x => .clzExt x
  | .popc, x => .popcExt x
  | .brev, x => .brevExt x
  | .bfx, x => .bfx x
  | .bfi, x => .bfi x
  | .sel, x => .sel x
  | .mov, x => .movExt x
  | .ldi, x => .ldiExt x
  | .lea, x => .lea x
  | .cmp, x => .cmp x
  | .div, x => .div x
  | .rem, x => .rem x
  | .br, x => .brExt x
  | .bri, x => .briExt x
  | .call, x => .callExt x
  | .calli, x => .calliExt x
  | .ret, x => .retExt x
  | .exit, x => .exitExt x
  | .yield, x => .yieldExt x
  | .nop, x => .nopExt x
  | .loop, x => .loop x
  | .pand, x => .pandExt x
  | .por, x => .porExt x
  | .pxor, x => .pxorExt x
  | .pnot, x => .pnotExt x
  | .pset, x => .psetExt x
  | .pget, x => .pgetExt x
  | .vote, x => .vote x
  | .shfl, x => .shfl x
  | .sred, x => .sred x
  | .sscan, x => .sscan x
  | .ssync, x => .ssyncExt x
  | .elect, x => .elect x
  | .match, x => .match x
  | .tbar, x => .tbarExt x
  | .sysrd, x => .sysrdExt x
  | .clock, x => .clockExt x
  | .realign, x => .realignExt x
  | .fadd, x => .faddExt x
  | .fsub, x => .fsubExt x
  | .fmul, x => .fmulExt x
  | .fma, x => .fma x
  | .fmin, x => .fminExt x
  | .fmax, x => .fmaxExt x
  | .fabs, x => .fabsExt x
  | .fneg, x => .fnegExt x
  | .fcmp, x => .fcmp x
  | .fclass, x => .fclassExt x
  | .frcp, x => .frcp x
  | .frsq, x => .frsq x
  | .fexp2, x => .fexp2 x
  | .flog2, x => .flog2 x
  | .fdiv, x => .fdiv x
  | .fsqrt, x => .fsqrt x
  | .cvt, x => .cvt x
  | .cvtsr, x => .cvtsr x
  | .dot4, x => .dot4 x
  | .dot2, x => .dot2 x
  | .fscale, x => .fscaleExt x
  | .frnd, x => .frnd x
  | .fflags, x => .fflags x
  | .ld, x => .ld x
  | .st, x => .stExt x
  | .atom, x => .atom x
  | .red, x => .red x
  | .cas, x => .cas x
  | .faddw, x => .faddw x
  | .waitw, x => .waitw x
  | .pref, x => .prefExt x
  | .pagereq, x => .pagereq x
  | .clhint, x => .clhint x
  | .fence, x => .fence x
  | .tspawn, x => .tspawn x
  | .tdec, x => .tdec x
  | .tinc, x => .tinc x
  | .defer, x => .defer x
  | .rwait, x => .rwait x
  | .rpop, x => .rpopExt x
  | .obres, x => .obres x
  | .obrel, x => .obrel x
  | .obld, x => .obld x
  | .mma, x => .mma x
  | .mmap, x => .mmap x
  | .mzero, x => .mzero x
  | .mdrain, x => .mdrain x
  | .mlease, x => .mlease x
  | .mfree, x => .mfree x
  | .quant, x => .quant x
  | .mrd, x => .mrd x
  | .mwr, x => .mwr x
  | .cpy, x => .cpy x
  | .tcopy, x => .tcopy x
  | .put, x => .put x
  | .get, x => .get x
  | .msg, x => .msg x
  | .nmcmd, x => .nmcmd x
  | .sealput, x => .sealput x
  | .sealget, x => .sealget x
  | .sealswap, x => .sealswap x
  | .sealref, x => .sealref x
  | .unseal, x => .unseal x
  | .trev, x => .trev x
  | .xlook, x => .xlook x
  | .trap, x => .trapExt x
  | .rett, x => .rettExt x
  | .csrrd, x => .csrrdExt x
  | .csrwr, x => .csrwrExt x
  | .tlbinv, x => .tlbinv x
  | .bkpt, x => .bkptExt x
  | .halt, x => .haltExt x
  | .ctxsave, x => .ctxsave x
  | .ctxload, x => .ctxload x

/-- The instruction of an opcode in base form, from the fields of word 0; none where the opcode has no
base layout (R184). -/
def Op.toBase (op : Op) (k : Bool) (b a d : BitVec 7) (i : BitVec 8) (n : Bool) (g : BitVec 3) :
    Option Instr :=
  match op with
  | .add => some (.add k b a d)
  | .sub => some (.sub k b a d)
  | .mul => some (.mul k b a d)
  | .mulh => some (.mulh k b a d)
  | .adds => some (.adds k b a d)
  | .subs => some (.subs k b a d)
  | .and => some (.and k b a d)
  | .or => some (.or k b a d)
  | .xor => some (.xor k b a d)
  | .andn => some (.andn k b a d)
  | .shl => some (.shl k b a d)
  | .shr => some (.shr k b a d)
  | .sar => some (.sar k b a d)
  | .rol => some (.rol k b a d)
  | .min => some (.min k b a d)
  | .max => some (.max k b a d)
  | .abs => some (.abs a d)
  | .neg => some (.neg a d)
  | .clz => some (.clz a d)
  | .popc => some (.popc a d)
  | .brev => some (.brev a d)
  | .mov => some (.mov a d)
  | .ldi => some (.ldi i d)
  | .br => some (.br i n g)
  | .bri => some (.bri a)
  | .call => some (.call i n g)
  | .calli => some (.calli a)
  | .ret => some .ret
  | .exit => some .exit
  | .yield => some .yield
  | .nop => some .nop
  | .pand => some (.pand b a d)
  | .por => some (.por b a d)
  | .pxor => some (.pxor b a d)
  | .pnot => some (.pnot a d)
  | .pset => some (.pset a d)
  | .pget => some (.pget a d)
  | .ssync => some .ssync
  | .tbar => some .tbar
  | .sysrd => some (.sysrd i d)
  | .clock => some (.clock d)
  | .realign => some (.realign i)
  | .fadd => some (.fadd k b a d)
  | .fsub => some (.fsub k b a d)
  | .fmul => some (.fmul k b a d)
  | .fmin => some (.fmin k b a d)
  | .fmax => some (.fmax k b a d)
  | .fabs => some (.fabs a d)
  | .fneg => some (.fneg a d)
  | .fclass => some (.fclass a d)
  | .fscale => some (.fscale k b a d)
  | .st => some (.st i a d)
  | .pref => some (.pref i a)
  | .rpop => some (.rpop i)
  | .trap => some (.trap i)
  | .rett => some .rett
  | .csrrd => some (.csrrd i d)
  | .csrwr => some (.csrwr i a)
  | .bkpt => some .bkpt
  | .halt => some .halt
  | _ => none

/-- The agenda entry of a step that no instruction word names; none for SIMT and Scribe instructions.
DEDUCED (assumption 99). -/
def Instr.ev : Instr → Option Ev
  | .realignResume core => some (.realignResume core)
  | .waitwWake t => some (.waitwWake t)
  | .waitwTimeout t => some (.waitwTimeout t)
  | .pagereqComplete req => some (.pagereqComplete req)
  | .matrixOpComplete core => some (.matrixOpComplete core)
  | .sealWalkerDrop site => some (.sealWalkerDrop site)
  | .longLatencyComplete t w => some (.longLatencyComplete t w)
  | .longLatencyFault t w cause addr => some (.longLatencyFault t w cause addr)
  | .convergenceTimeout q => some (.convergenceTimeout q)
  | .watchdog t => some (.watchdog t)
  | .exitTrackerResume q => some (.exitTrackerResume q)
  | .commandComplete c => some (.commandComplete c)
  | .copyLineDelivered c half line => some (.copyLineDelivered c half line)
  | .lqtailWrite q v => some (.lqtailWrite q v)
  | .lqcfgWrite q v => some (.lqcfgWrite q v)
  | .launchRecordRead q => some (.launchRecordRead q)
  | .launchPageResume q => some (.launchPageResume q)
  | .launchComplete lid => some (.launchComplete lid)
  | .teamPlace lid => some (.teamPlace lid)
  | .teamRelease team => some (.teamRelease team)
  | .taskDispatch site => some (.taskDispatch site)
  | .leaseGrant core => some (.leaseGrant core)
  | .leaseIdleExpiry core => some (.leaseIdleExpiry core)
  | .congestionSample site occ => some (.congestionSample site occ)
  | .ringAppend p => some (.ringAppend p)
  | .putArrive p => some (.putArrive p)
  | .putAck p => some (.putAck p)
  | .getRequestArrive p => some (.getRequestArrive p)
  | .getReplyArrive p => some (.getReplyArrive p)
  | .nakReceive p => some (.nakReceive p)
  | .packetHop p => some (.packetHop p)
  | .nmcmdPacketArrive c site stack => some (.nmcmdPacketArrive c site stack)
  | .trapReport site => some (.trapReport site)
  | .trapqheadWrite site v => some (.trapqheadWrite site v)
  | .trapactResume site idx => some (.trapactResume site idx)
  | .trapactForward site idx => some (.trapactForward site idx)
  | .trapactEndThreads site idx => some (.trapactEndThreads site idx)
  | .trapactEndLaunch site idx => some (.trapactEndLaunch site idx)
  | .l2cfgWrite site v => some (.l2cfgWrite site v)
  | .l2FlushDone site => some (.l2FlushDone site)
  | .l2liveWrite site v => some (.l2liveWrite site v)
  | .chremapWrite site v => some (.chremapWrite site v)
  | .chremapCopyDone site => some (.chremapCopyDone site)
  | .biasToHost site v => some (.biasToHost site v)
  | .biasToHostDone site => some (.biasToHostDone site)
  | .biasToDevice site v => some (.biasToDevice site v)
  | .biasToDeviceDone site ok => some (.biasToDeviceDone site ok)
  | .hostMemAccess off a => some (.hostMemAccess off a)
  | .scribePageResume sc => some (.scribePageResume sc)
  | .boot => some .boot
  | .attestationQuote nonce => some (.attestationQuote nonce)
  | .tenantDebugGrant env => some (.tenantDebugGrant env)
  | .tenantDebugRevoke => some .tenantDebugRevoke
  | .dstateRaise d => some (.dstateRaise d)
  | .dstateLower d => some (.dstateLower d)
  | .debugHaltRequest phys => some (.debugHaltRequest phys)
  | .debugResume phys => some (.debugResume phys)
  | .slotRetire site block slot => some (.slotRetire site block slot)
  | .blockRouterFail site block => some (.blockRouterFail site block)
  | .blockRecompact site block => some (.blockRecompact site block)
  | .reticleOut site => some (.reticleOut site)
  | .linkDelayMeasure site edge ps => some (.linkDelayMeasure site edge ps)
  | .timeTreeReparent site parent => some (.timeTreeReparent site parent)
  | .ptpSync offset => some (.ptpSync offset)
  | .linkDead site edge => some (.linkDead site edge)
  | .linkDeadTimeout site edge => some (.linkDeadTimeout site edge)
  | .netverWrite site v => some (.netverWrite site v)
  | .netcommitWrite site v => some (.netcommitWrite site v)
  | .commitRequestServe => some .commitRequestServe
  | .commitBroadcast site => some (.commitBroadcast site)
  | .versionHoldTimeout p => some (.versionHoldTimeout p)
  | .occupancyReport site occ => some (.occupancyReport site occ)
  | .steerInterval site demand agree => some (.steerInterval site demand agree)
  | .laneMove site => some (.laneMove site)
  | .laneSkewMeasure site w inBound => some (.laneSkewMeasure site w inBound)
  | .carrierLoss site w => some (.carrierLoss site w)
  | .portLoss site serving => some (.portLoss site serving)
  | .replayEntryExpire site key => some (.replayEntryExpire site key)
  | .ackTimeout p => some (.ackTimeout p)
  | .replayFullRetry p => some (.replayFullRetry p)
  | .bltcfgWrite site strm v => some (.bltcfgWrite site strm v)
  | .bltheadWrite site strm v => some (.bltheadWrite site strm v)
  | .blotterStallTimeout site strm => some (.blotterStallTimeout site strm)
  | .lupcfgWrite l v => some (.lupcfgWrite l v)
  | .lineupReview l => some (.lineupReview l)
  | .lineupCopiesDone l failed => some (.lineupCopiesDone l failed)
  | .lineupPrepare l => some (.lineupPrepare l)
  | .lineupPrepareTimeout l => some (.lineupPrepareTimeout l)
  | .lineupCommit l site => some (.lineupCommit l site)
  | .lineupCommitAcked l => some (.lineupCommitAcked l)
  | .lineupHeartbeat l arrives => some (.lineupHeartbeat l arrives)
  | .lineupTakeover l => some (.lineupTakeover l)
  | .blockIdle site block => some (.blockIdle site block)
  | .blockGate site block => some (.blockGate site block)
  | .blockPowerOnCheck site block amps => some (.blockPowerOnCheck site block amps)
  | .powerGateStep site block => some (.powerGateStep site block)
  | .reticleOff site => some (.reticleOff site)
  | .reticleOn site => some (.reticleOn site)
  | .powerLimitThrottle watts => some (.powerLimitThrottle watts)
  | .thermalLimit site celsius => some (.thermalLimit site celsius)
  | .registerWrite r v => some (.registerWrite r v)
  | .rootDecrementResume lid => some (.rootDecrementResume lid)
  | .illegalOpcode zero => some (.illegalOpcode zero)
  | .codeBounds => some .codeBounds
  | .scribeIllegalOpcode cause => some (.scribeIllegalOpcode cause)
  | .scribeLoadReturn sc => some (.scribeLoadReturn sc)
  | .tlbinvComplete id => some (.tlbinvComplete id)
  | .ctxsaveCtxloadCompletion id => some (.ctxsaveCtxloadCompletion id)
  | .scribeCoreDead site k => some (.scribeCoreDead site k)
  | .softError e => some (.softError e)
  | .ptpHoldover => some .ptpHoldover
  | .debugStateWrite w => some (.debugStateWrite w)
  | .steeringRequest site w src dst => some (.steeringRequest site w src dst)
  | _ => none

/-- The fields of a Scribe word (R186). -/
structure SWord where
  op : Nat
  m : BitVec 3
  i : BitVec 8
  b : BitVec 5
  a : BitVec 5
  d : BitVec 5
deriving DecidableEq, Repr

/-- The word of a Scribe instruction; none for every other step. -/
def Instr.scribe : Instr → Option SWord
  | .sadd i b a d => some ⟨0x01, 0, i, b, a, d⟩
  | .ssub i b a d => some ⟨0x02, 0, i, b, a, d⟩
  | .smul i b a d => some ⟨0x03, 0, i, b, a, d⟩
  | .sand i b a d => some ⟨0x04, 0, i, b, a, d⟩
  | .sor i b a d => some ⟨0x05, 0, i, b, a, d⟩
  | .sxor i b a d => some ⟨0x06, 0, i, b, a, d⟩
  | .sshl i b a d => some ⟨0x07, 0, i, b, a, d⟩
  | .sshr i b a d => some ⟨0x08, 0, i, b, a, d⟩
  | .sldi i a d => some ⟨0x09, 0, i, 0, a, d⟩
  | .sldk i d => some ⟨0x0A, 0, i, 0, 0, d⟩
  | .smov i a d => some ⟨0x0B, 0, i, 0, a, d⟩
  | .scmp i b a d => some ⟨0x0C, 0, i, b, a, d⟩
  | .jmp l h => some ⟨0x10, 0, l, h, 0, 0⟩
  | .jz l h a => some ⟨0x11, 0, l, h, a, 0⟩
  | .jnz l h a => some ⟨0x12, 0, l, h, a, 0⟩
  | .scribeLoop l h a => some ⟨0x13, 0, l, h, a, 0⟩
  | .scribeCall l h => some ⟨0x14, 0, l, h, 0, 0⟩
  | .scribeRet => some ⟨0x15, 0, 0, 0, 0, 0⟩
  | .sld i a d => some ⟨0x18, 0, i, 0, a, d⟩
  | .sst i a d => some ⟨0x19, 0, i, 0, a, d⟩
  | .vld m i a d => some ⟨0x1A, m, i, 0, a, d⟩
  | .vst m i a d => some ⟨0x1B, m, i, 0, a, d⟩
  | .vgather m b a d => some ⟨0x1C, m, 0, b, a, d⟩
  | .vscatter m b a d => some ⟨0x1D, m, 0, b, a, d⟩
  | .vaadd m i b a d => some ⟨0x1E, m, i, b, a, d⟩
  | .vadd m i b a d => some ⟨0x20, m, i, b, a, d⟩
  | .vsub m i b a d => some ⟨0x21, m, i, b, a, d⟩
  | .vmul m i b a d => some ⟨0x22, m, i, b, a, d⟩
  | .vfma m b a d => some ⟨0x23, m, 0, b, a, d⟩
  | .vmin m i b a d => some ⟨0x24, m, i, b, a, d⟩
  | .vmax m i b a d => some ⟨0x25, m, i, b, a, d⟩
  | .vdiv m b a d => some ⟨0x26, m, 0, b, a, d⟩
  | .vsqrt m a d => some ⟨0x27, m, 0, 0, a, d⟩
  | .vrsq m a d => some ⟨0x28, m, 0, 0, a, d⟩
  | .vabs m i a d => some ⟨0x29, m, i, 0, a, d⟩
  | .vcvt m i a d => some ⟨0x2A, m, i, 0, a, d⟩
  | .vsel m i b a d => some ⟨0x2B, m, i, b, a, d⟩
  | .vcmp m i b a d => some ⟨0x2C, m, i, b, a, d⟩
  | .vred m i a d => some ⟨0x2D, m, i, 0, a, d⟩
  | .vbcast m a d => some ⟨0x2E, m, 0, 0, a, d⟩
  | .vmovs i a d => some ⟨0x2F, 0, i, 0, a, d⟩
  | .scribeTdec i b a => some ⟨0x38, 0, i, b, a, 0⟩
  | .scribeFence i => some ⟨0x39, 0, i, 0, 0, 0⟩
  | .texit => some ⟨0x3A, 0, 0, 0, 0, 0⟩
  | _ => none

/-- The Scribe instruction of a word; none for 0x00 and the unassigned opcodes (R186). -/
def SWord.toInstr (w : SWord) : Option Instr :=
  match w.op with
  | 0x01 => some (.sadd w.i w.b w.a w.d)
  | 0x02 => some (.ssub w.i w.b w.a w.d)
  | 0x03 => some (.smul w.i w.b w.a w.d)
  | 0x04 => some (.sand w.i w.b w.a w.d)
  | 0x05 => some (.sor w.i w.b w.a w.d)
  | 0x06 => some (.sxor w.i w.b w.a w.d)
  | 0x07 => some (.sshl w.i w.b w.a w.d)
  | 0x08 => some (.sshr w.i w.b w.a w.d)
  | 0x09 => some (.sldi w.i w.a w.d)
  | 0x0A => some (.sldk w.i w.d)
  | 0x0B => some (.smov w.i w.a w.d)
  | 0x0C => some (.scmp w.i w.b w.a w.d)
  | 0x10 => some (.jmp w.i w.b)
  | 0x11 => some (.jz w.i w.b w.a)
  | 0x12 => some (.jnz w.i w.b w.a)
  | 0x13 => some (.scribeLoop w.i w.b w.a)
  | 0x14 => some (.scribeCall w.i w.b)
  | 0x15 => some .scribeRet
  | 0x18 => some (.sld w.i w.a w.d)
  | 0x19 => some (.sst w.i w.a w.d)
  | 0x1A => some (.vld w.m w.i w.a w.d)
  | 0x1B => some (.vst w.m w.i w.a w.d)
  | 0x1C => some (.vgather w.m w.b w.a w.d)
  | 0x1D => some (.vscatter w.m w.b w.a w.d)
  | 0x1E => some (.vaadd w.m w.i w.b w.a w.d)
  | 0x20 => some (.vadd w.m w.i w.b w.a w.d)
  | 0x21 => some (.vsub w.m w.i w.b w.a w.d)
  | 0x22 => some (.vmul w.m w.i w.b w.a w.d)
  | 0x23 => some (.vfma w.m w.b w.a w.d)
  | 0x24 => some (.vmin w.m w.i w.b w.a w.d)
  | 0x25 => some (.vmax w.m w.i w.b w.a w.d)
  | 0x26 => some (.vdiv w.m w.b w.a w.d)
  | 0x27 => some (.vsqrt w.m w.a w.d)
  | 0x28 => some (.vrsq w.m w.a w.d)
  | 0x29 => some (.vabs w.m w.i w.a w.d)
  | 0x2A => some (.vcvt w.m w.i w.a w.d)
  | 0x2B => some (.vsel w.m w.i w.b w.a w.d)
  | 0x2C => some (.vcmp w.m w.i w.b w.a w.d)
  | 0x2D => some (.vred w.m w.i w.a w.d)
  | 0x2E => some (.vbcast w.m w.a w.d)
  | 0x2F => some (.vmovs w.i w.a w.d)
  | 0x38 => some (.scribeTdec w.i w.b w.a)
  | 0x39 => some (.scribeFence w.i)
  | 0x3A => some .texit
  | _ => none

/-- Which of M, IMM8, B, A and D the instruction uses (R300). -/
def SWord.used (w : SWord) : Bool × Bool × Bool × Bool × Bool :=
  match w.op with
  | 0x01 | 0x02 | 0x03 | 0x04 | 0x05 | 0x06 | 0x07 | 0x08 | 0x0C => (false, true, true, true, true)
  | 0x09 | 0x0B | 0x18 | 0x19 | 0x2F => (false, true, false, true, true)
  | 0x0A => (false, true, false, false, true)
  | 0x10 | 0x14 => (false, true, true, false, false)
  | 0x11 | 0x12 | 0x13 | 0x38 => (false, true, true, true, false)
  | 0x15 | 0x3A => (false, false, false, false, false)
  | 0x1A | 0x1B | 0x29 | 0x2A | 0x2D => (true, true, false, true, true)
  | 0x1C | 0x1D | 0x23 | 0x26 => (true, false, true, true, true)
  | 0x1E | 0x20 | 0x21 | 0x22 | 0x24 | 0x25 | 0x2B | 0x2C => (true, true, true, true, true)
  | 0x27 | 0x28 | 0x2E => (true, false, false, true, true)
  | 0x39 => (false, true, false, false, false)
  | _ => (false, false, false, false, false)

/-- R299 step 4: a nonzero field that the instruction does not use. -/
def SWord.unusedBits (w : SWord) : Bool :=
  let u := w.used
  (!u.1 && w.m != 0) || (!u.2.1 && w.i != 0) || (!u.2.2.1 && w.b != 0) ||
    (!u.2.2.2.1 && w.a != 0) || (!u.2.2.2.2 && w.d != 0)

end Sys2Proof
end

