-- ==== Sys2Proof/Machine/ScribeForms.lean ====
section
/-! DEFINITION. The decode checks of the Scribe instructions (R299, steps 4 to 7) on the fields of
their word. -/

namespace Sys2Proof

/-- The vector instructions whose IMM8 is the type code 0 (f32) or 1 (i32) of R300. -/
def scribeTyped (op : Nat) : Bool :=
  op == 0x1E || op == 0x20 || op == 0x21 || op == 0x22 || op == 0x24 || op == 0x25 || op == 0x29

/-- R299 step 4: a bad mask, or a nonzero field the form does not use (R300, R302, R307, R308).
DEDUCED (assumption 51). -/
def SWord.reserved (w : SWord) : Bool :=
  w.m.toNat > 3 || w.unusedBits ||
  (w.op == 0x0B && ((w.i == 3 && w.a != 0) || (w.i == 4 && w.d != 0) || (w.i == 5 && w.a != 0) ||
    (w.i == 6 && w.d != 0))) ||
  (w.op == 0x2F && w.i.toNat ≥ 32) ||
  (w.op == 0x38 && w.b != 0 && w.i != 0) ||
  (w.op == 0x39 && !(w.i.toNat / 32 == 2 || w.i.toNat / 32 == 3 || w.i.toNat / 32 == 4))

/-- R299 step 6: an operation, condition, conversion or selector code not assigned.
DEDUCED (assumption 51). -/
def SWord.badSubop (w : SWord) : Bool :=
  (w.op == 0x0B && w.i.toNat > 6) || (w.op == 0x0C && w.i.toNat > 7) ||
  (w.op == 0x2A && w.i.toNat > 5) || (w.op == 0x2D && w.i.toNat > 3) ||
  (w.op == 0x2C && (w.i.toNat ≥ 16 || (w.i.toNat ≥ 8 && w.i.toNat % 8 > 5)))

/-- R299 step 7: a mask register above m3, or a k register above k127.
DEDUCED (assumption 51). -/
def SWord.badRegister (w : SWord) : Bool :=
  (w.op == 0x0B && ((w.i == 1 && w.d.toNat > 3) || (w.i == 2 && w.a.toNat > 3))) ||
  (w.op == 0x0A && w.i.toNat ≥ 128) || (w.op == 0x2B && w.i.toNat > 3) ||
  (w.op == 0x2C && w.d.toNat > 3)

/-- The decode checks of R299, steps 4 to 7: the cause of the first that fails.
DEDUCED (assumption 51). -/
def scribeCheck (w : SWord) : Option Nat :=
  if w.reserved then some Cause.reservedBits
  else if scribeTyped w.op && w.i.toNat > 1 then some Cause.illegalType
  else if w.badSubop then some Cause.illegalSubop
  else if w.badRegister then some Cause.illegalRegister
  else none

end Sys2Proof
end

