-- ==== Sys2Proof/WellFormed.lean ====
section
/-! DEFINITION. Well-formed instructions and steps: a SIMT instruction passes the decode checks of
R181 (steps 4 to 7), a Scribe instruction those of R299, and a step names sites, blocks, queues and
other numbered things that the module has. -/

namespace Sys2Proof

/-- The step names what exists (R3, R5, R9, R56, R322, R409, R419). -/
def Ev.wf : Ev → Bool
  | .realignResume core => decide (core < 5760)
  | .matrixOpComplete core => decide (core < 5760)
  | .sealWalkerDrop site => decide (site < 60)
  | .copyLineDelivered _ half _ => decide (half < 2)
  | .lqtailWrite q _ => decide (q < 16)
  | .lqcfgWrite q _ => decide (q < 16)
  | .launchRecordRead q => decide (q < 16)
  | .launchPageResume q => decide (q < 16)
  | .taskDispatch site => decide (site < 60)
  | .leaseGrant core => decide (core < 5760)
  | .leaseIdleExpiry core => decide (core < 5760)
  | .congestionSample site _ => decide (site < 60)
  | .nmcmdPacketArrive _ site stack => decide (site < 60) && decide (stack < 4)
  | .trapReport site => decide (site < 60)
  | .trapqheadWrite site _ => decide (site < 60)
  | .trapactResume site _ => decide (site < 60)
  | .trapactForward site _ => decide (site < 60)
  | .trapactEndThreads site _ => decide (site < 60)
  | .trapactEndLaunch site _ => decide (site < 60)
  | .l2cfgWrite site _ => decide (site < 60)
  | .l2FlushDone site => decide (site < 60)
  | .l2liveWrite site _ => decide (site < 60)
  | .chremapWrite site _ => decide (site < 60)
  | .chremapCopyDone site => decide (site < 60)
  | .biasToHost site _ => decide (site < 60)
  | .biasToHostDone site => decide (site < 60)
  | .biasToDevice site _ => decide (site < 60)
  | .biasToDeviceDone site _ => decide (site < 60)
  | .scribePageResume sc => decide (sc < 3840)
  | .dstateRaise d => decide (d < 4)
  | .dstateLower d => decide (d < 4)
  | .debugHaltRequest phys => decide (phys < 6480)
  | .debugResume phys => decide (phys < 6480)
  | .slotRetire site block slot => decide (site < 60) && decide (block < 12) && decide (slot < 9)
  | .blockRouterFail site block => decide (site < 60) && decide (block < 18)
  | .blockRecompact site block => decide (site < 60) && decide (block < 12)
  | .reticleOut site => decide (site < 60)
  | .linkDelayMeasure site edge _ => decide (site < 60) && decide (edge < 4)
  | .timeTreeReparent site parent => decide (site < 60) && decide (parent < 60)
  | .linkDead site edge => decide (site < 60) && decide (edge < 4)
  | .linkDeadTimeout site edge => decide (site < 60) && decide (edge < 4)
  | .netverWrite site _ => decide (site < 60)
  | .netcommitWrite site _ => decide (site < 60)
  | .commitBroadcast site => decide (site < 60)
  | .occupancyReport site _ => decide (site < 60)
  | .steerInterval site _ _ => decide (site < 60)
  | .laneMove site => decide (site < 60)
  | .laneSkewMeasure site w _ => decide (site < 60) && decide (w < 24)
  | .carrierLoss site w => decide (site < 60) && decide (w < 24)
  | .portLoss site serving => decide (site < 60) && decide (serving < 60)
  | .replayEntryExpire site _ => decide (site < 60)
  | .bltcfgWrite site strm _ => decide (site < 60) && decide (strm < 8)
  | .bltheadWrite site strm _ => decide (site < 60) && decide (strm < 8)
  | .blotterStallTimeout site strm => decide (site < 60) && decide (strm < 8)
  | .lupcfgWrite l _ => decide (l < 4)
  | .lineupReview l => decide (l < 4)
  | .lineupCopiesDone l _ => decide (l < 4)
  | .lineupPrepare l => decide (l < 4)
  | .lineupPrepareTimeout l => decide (l < 4)
  | .lineupCommit l site => decide (l < 4) && decide (site < 60)
  | .lineupCommitAcked l => decide (l < 4)
  | .lineupHeartbeat l _ => decide (l < 4)
  | .lineupTakeover l => decide (l < 4)
  | .blockIdle site block => decide (site < 60) && decide (block < 12)
  | .blockGate site block => decide (site < 60) && decide (block < 12)
  | .blockPowerOnCheck site block _ => decide (site < 60) && decide (block < 12)
  | .powerGateStep site block => decide (site < 60) && decide (block < 12)
  | .reticleOff site => decide (site < 60)
  | .reticleOn site => decide (site < 60)
  | .thermalLimit site _ => decide (site < 60)
  | .scribeLoadReturn sc => decide (sc < 3840)
  | .scribeCoreDead site k => decide (site < 60) && decide (k < 64)
  | .steeringRequest site w src dst => decide (site < 60) && decide (w < 24) && decide (src ≤ 4) && decide (dst ≤ 4)
  | _ => true

/-- A SIMT form that the decoder accepts: the checks of R181, a base form only where the opcode has a
base layout (the constructors see to that), and a base-plus-literal form only with its fields. -/
def Instr.wf (i : Instr) : Bool :=
  match i.simt with
  | some (op, x, _) => (decodeCheck op x).isNone
  | none =>
    match i.scribe with
    | some w => (scribeCheck w).isNone
    | none =>
      match i.ev with
      | some e => e.wf
      | none => true

end Sys2Proof
end

