-- ==== Sys2Proof/Decode.lean ====
section
/-! DEFINITION. The decoder, total on any bits: SIMT instructions by R174-R181 and R184-R185, Scribe
words by R186 and R299. An instruction's bits are one number, its first byte in bits 7:0 (R1, R174).
After it, the encoder written over the same layouts. -/

namespace Sys2Proof

/-- What a fetched instruction decodes to: an instruction with its length in bytes, or the cause of
the decode check that failed. -/
inductive Decoded where
  | ok (i : Instr) (len : Nat)
  | trap (cause : Nat)
deriving DecidableEq, Repr

/-- The bytes of the instruction whose word 0 is `w`, by LEN (R174). -/
def instrLen (w : Nat) : Nat :=
  match w % 4 with
  | 0 => 4 | 1 => 12 | 2 => 12 | _ => 20

/-- Words 0 to 2 in the layout of R175 (B3) and R176, with the literal where LEN has bit 1 set. -/
def Ext.ofNat (w : Nat) : Ext :=
  { bk := bitOf w 31, b := .ofNat 7 (bitsOf w 30 24), a := .ofNat 7 (bitsOf w 23 17),
    d := .ofNat 7 (bitsOf w 16 10),
    rf := .ofNat 3 (bitsOf w 61 59), e := .ofNat 7 (bitsOf w 58 52), c := .ofNat 7 (bitsOf w 51 45),
    ty := .ofNat 5 (bitsOf w 44 40), la := .ofNat 4 (bitsOf w 39 36), gn := bitOf w 35,
    gp := .ofNat 3 (bitsOf w 34 32),
    pm2 := .ofNat 5 (bitsOf w 95 91), pm1 := .ofNat 5 (bitsOf w 90 86),
    imm := .ofNat 8 (bitsOf w 85 78), sub := .ofNat 8 (bitsOf w 77 70),
    hint := .ofNat 3 (bitsOf w 69 67), sel := .ofNat 3 (bitsOf w 66 64),
    lit := if w % 4 = 3 then some (.ofNat 64 (bitsOf w 159 96)) else none
    short := false }

/-- R181 step 5 on the fixed bits of a base layout (R175). -/
def Layout.reserved (l : Layout) (w : Nat) : Bool :=
  match l with
  | .none | .b3 => false
  | .b3p => bitOf w 31
  | .b2 => bitsOf w 31 24 != 0
  | .b1 => bitsOf w 31 17 != 0
  | .a1 => bitsOf w 31 24 != 0 || bitsOf w 16 10 != 0
  | .b0 => bitsOf w 31 10 != 0
  | .bi aZero dZero => (aZero && bitsOf w 23 17 != 0) || (dZero && bitsOf w 16 10 != 0)
  | .bj => bitsOf w 23 14 != 0

/-- The fields a base-plus-literal form carries (R174): those of its base layout, the displacement or
offset field zero (R179). -/
def Ext.ofShort (l : Layout) (w : Nat) : Ext :=
  let lit := some (BitVec.ofNat 64 (bitsOf w 95 32))
  match l with
  | .bj => { Ext.zero with gn := bitOf w 13, gp := .ofNat 3 (bitsOf w 12 10), lit, short := true }
  | _ =>
    { Ext.zero with
      a := .ofNat 7 (bitsOf w 23 17), d := .ofNat 7 (bitsOf w 16 10), lit, short := true }

/-- The base form of an opcode, from word 0. -/
def baseInstr (op : Op) (w : Nat) : Option Instr :=
  let lay := (op.uses .zero).layout
  if lay = .bj then
    op.toBase false 0 0 0 (.ofNat 8 (bitsOf w 31 24)) (bitOf w 13) (.ofNat 3 (bitsOf w 12 10))
  else
    op.toBase (bitOf w 31) (.ofNat 7 (bitsOf w 30 24)) (.ofNat 7 (bitsOf w 23 17))
      (.ofNat 7 (bitsOf w 16 10)) (.ofNat 8 (bitsOf w 31 24)) false 0

/-- The decode checks on an instruction already read from its fields. -/
def checked (i : Instr) (len : Nat) : Decoded :=
  match i.simt with
  | some (op, x, _) =>
    (match decodeCheck op x with
      | some c => .trap c
      | none => .ok i len)
  | none => .ok i len

/-- R181 steps 2 to 7 on the bits of a SIMT instruction. -/
def decodeSimt (w : Nat) : Decoded :=
  if bitsOf w 9 2 = 0 then .trap Cause.zeroWord
  else
    match Op.ofCode (bitsOf w 9 2) with
    | none => .trap Cause.illegalOpcode
    | some op =>
      let u := op.uses .zero
      if w % 4 = 0 then
        (if u.layout = .none then .trap Cause.illegalLength
        else if u.layout.reserved w then .trap Cause.reservedBits
        else
          match baseInstr op w with
          | some i => checked i 4
          | none => .trap Cause.illegalLength)
      else if w % 4 = 2 then
        (if u.layout = .none ∨ u.mark = .none then .trap Cause.illegalLength
        else if u.layout.reserved w || bitsOf w 31 24 != 0 then .trap Cause.reservedBits
        else checked (op.toExt (.ofShort u.layout w)) 12)
      else if w % 4 = 3 ∧ u.mark = .none then .trap Cause.illegalLength
      else if bitsOf w 63 62 ≠ 0 then .trap Cause.reservedBits
      else checked (op.toExt (.ofNat w)) (if w % 4 = 3 then 20 else 12)

/-- The fields of a Scribe word (R186). -/
def SWord.ofNat (w : Nat) : SWord :=
  { op := bitsOf w 5 0, m := .ofNat 3 (bitsOf w 31 29), i := .ofNat 8 (bitsOf w 28 21),
    b := .ofNat 5 (bitsOf w 20 16), a := .ofNat 5 (bitsOf w 15 11), d := .ofNat 5 (bitsOf w 10 6) }

/-- R299 steps 2 to 7 on a Scribe word. -/
def decodeScribe (w : Nat) : Decoded :=
  if bitsOf w 5 0 = 0 then .trap Cause.zeroWord
  else
    match (SWord.ofNat w).toInstr with
    | none => .trap Cause.illegalOpcode
    | some i =>
      match scribeCheck (SWord.ofNat w) with
      | some c => .trap c
      | none => .ok i 4

/-- Whether an instruction of the opcode table's numbering is taken as a SIMT instruction: one of more
than one word, or a word of LEN 00 that the main map decodes. Other words are Scribe words. The two
encodings share words; only the core that fetches tells them apart.
DESIGN CHOICE (assumption 17). -/
def tableSimt (nbits w : Nat) : Bool :=
  decide (32 < nbits) ||
    (w % 4 == 0 && (match decodeSimt w with | .ok _ _ => true | .trap _ => false))

/-- The instruction the decoder reads from bits numbered as the opcode table numbers them.
DESIGN CHOICE (assumption 17). -/
def decodeTableWord (nbits w : Nat) : Option Instr :=
  match if tableSimt nbits w then decodeSimt w else decodeScribe w with
  | .ok i _ => some i
  | .trap _ => none

/-! The encoder. -/

/-- Bits 31:10 of word 0 in the B3 layout, which B2, B1, A1 and B0 narrow (R175). -/
def Ext.word0 (x : Ext) : Nat :=
  x.d.toNat * 2 ^ 10 + x.a.toNat * 2 ^ 17 + x.b.toNat * 2 ^ 24 + bit01 x.bk * 2 ^ 31

/-- Bits 31:10 of word 0 of a base form (R175). -/
def Layout.bits (l : Layout) (x : Ext) : Nat :=
  match l with
  | .bj => x.gp.toNat * 2 ^ 10 + bit01 x.gn * 2 ^ 13 + x.imm.toNat * 2 ^ 24
  | .bi _ _ => x.d.toNat * 2 ^ 10 + x.a.toNat * 2 ^ 17 + x.imm.toNat * 2 ^ 24
  | _ => x.word0

/-- Word 1 (R176). -/
def Ext.word1 (x : Ext) : Nat :=
  x.gp.toNat + bit01 x.gn * 2 ^ 3 + x.la.toNat * 2 ^ 4 + x.ty.toNat * 2 ^ 8 + x.c.toNat * 2 ^ 13 +
    x.e.toNat * 2 ^ 20 + x.rf.toNat * 2 ^ 27

/-- Word 2 (R176). -/
def Ext.word2 (x : Ext) : Nat :=
  x.sel.toNat + x.hint.toNat * 2 ^ 3 + x.sub.toNat * 2 ^ 6 + x.imm.toNat * 2 ^ 14 +
    x.pm1.toNat * 2 ^ 22 + x.pm2.toNat * 2 ^ 27

/-- The bits of a SIMT instruction. -/
def encodeSimt (op : Op) (x : Ext) (len : Nat) : Nat :=
  let lay := (op.uses .zero).layout
  let lit := match x.lit with | some v => v.toNat | none => 0
  if len = 4 then op.code * 4 + lay.bits x
  else if x.short then 2 + op.code * 4 + lay.bits x + lit * 2 ^ 32
  else (if x.lit.isSome then 3 else 1) + op.code * 4 + x.word0 + x.word1 * 2 ^ 32 +
    x.word2 * 2 ^ 64 + lit * 2 ^ 96

/-- The bits of a Scribe word (R186). -/
def SWord.encode (w : SWord) : Nat :=
  w.op + w.d.toNat * 2 ^ 6 + w.a.toNat * 2 ^ 11 + w.b.toNat * 2 ^ 16 + w.i.toNat * 2 ^ 21 +
    w.m.toNat * 2 ^ 29

/-- The bits and the length in bytes of an instruction that has words; none for the other steps. -/
def encode (i : Instr) : Option (Nat × Nat) :=
  match i.simt with
  | some (op, x, len) => some (encodeSimt op x len, len)
  | none => i.scribe.map fun w => (w.encode, 4)

end Sys2Proof
end

