-- ==== Sys2Proof/Config.lean ====
section
/-! DEFINITION. What the manual leaves to an implementation, as opaque constants: a free value has no
body, so no proof can rest on what it is. -/

namespace Sys2Proof.Config

/-- A fresh free value: every draw is numbered by the state's counter `State.free`.
DESIGN CHOICE (assumption 4). -/
opaque freeBits : Nat → Nat

/-- The f32 results of FRCP, FRSQ, FEXP2 and FLOG2 (R244): one fixed function of the operand's bits
for each of the four, numbered 0 to 3. Results outside the bounds of R244 are not used.
DESIGN CHOICE (assumption 18). -/
opaque approx : Nat → Word → Word

/-- The device register at an offset of a site's register space (R21, R23), where there is one: the
manual places no register.
DESIGN CHOICE (assumption 14). -/
opaque deviceAt : (site off : Nat) → Option DevReg

/-- What chooses the set of the L1 (R17) that a line's physical address falls in.
DESIGN CHOICE (assumption 15). -/
opaque l1Bits : Nat → Nat

/-- The set of a line in the L1, of 128 sets (R17). -/
def l1Set (line : Nat) : Nat := l1Bits line % 128

/-- The ticks by which a read of a line at a logical time extends its lease: 16 to 4,096 (R107).
DESIGN CHOICE (assumption 108). -/
opaque leaseBits : (line time : Nat) → Nat

/-- A lease's length. -/
def leaseTicks (line time : Nat) : Nat := 16 + leaseBits line time % 4081

/-- What chooses the slice-local set of the L2 (R19) that a line's physical address falls in.
DESIGN CHOICE (assumption 15). -/
opaque l2Bits : Nat → Nat

/-- The set of a line in its slice of the L2, of 4,096 sets (R19). -/
def l2Set (line : Nat) : Nat := l2Bits line % 4096

/-- The vendor's keys in Nib's ROM (R359), and the owner's as a trusted configuration record names them by
their hashes (R357): an ECDSA key and an LMS root.
DESIGN CHOICE (assumption 20). -/
opaque vendorKey : List Byte
opaque vendorRoot : List Byte
opaque ownerKey : (config : List Byte) → List Byte
opaque ownerRoot : (config : List Byte) → List Byte

/-- The minimum security version number of a KIND in a trusted configuration record (R357).
DEDUCED (assumption 84). -/
opaque minSvn : (config : List Byte) → (kind : Nat) → Nat

/-- Whether the vendor's certificate holds for the identity keys (R360).
DESIGN CHOICE (assumption 20). -/
opaque certificateGood : (certificate ecdsaKey lmsKey : List Byte) → Bool

/-- The response of the management controller's PUF, the seed that it yields with the helper data, and what Nib
derives from the seed (R361): the ECDSA private key, the LMS key's identifier, and the starts of its chains.
DESIGN CHOICE (assumption 20). -/
opaque pufResponse : List Byte
opaque seedOf : (response helper : List Byte) → List Byte
opaque ecdsaSecret : (seed : List Byte) → Nat
opaque lmsIdentifier : (seed : List Byte) → BitVec 128
opaque lmsStart : (seed : List Byte) → (leaf chain : Nat) → BitVec 256

/-- The random numbers of a quote's two signatures (R361), by the LMS leaf it takes.
DESIGN CHOICE (assumption 20). -/
opaque signNonce : (leaf try_ : Nat) → Nat
opaque lmsRandom : (leaf : Nat) → BitVec 256

/-- The hash that is a packet's entropy value (R402), of SRCCORE and of SEQ or OFF.
DESIGN CHOICE (assumption 117). -/
opaque entropyOf : (core key : Nat) → Nat

/-- What the payload of a control packet says (R390): the manual gives it no layout.
DESIGN CHOICE (assumption 110). -/
opaque controlOf : (payload : List Byte) → Option Control
opaque controlBytes : Control → List Byte

/-- The module and the site at the far end of a fibre link of a reticle (R404, R406), as 64 × module + site.
DESIGN CHOICE (assumption 64). -/
opaque peerOf : (site link : Nat) → Nat

/-- What the Barrel image of a body loads into DRAM, and the fields of the system launch by number (R356).
DEDUCED (assumption 84). -/
opaque imageBytes : (body : List Byte) → List (Nat × Byte)
opaque imageField : (body : List Byte) → (field : Nat) → Nat

/-- The module's ordering code (R4) in a trusted configuration record (R357): 0 UBY-62A, 1 UBY-62B, 2 UBY-62D.
DESIGN CHOICE (assumption 26). -/
opaque ordering : (config : List Byte) → Fin 3

/-- The first word of BAR0 (R350): the module's identity and the status of its link.
DESIGN CHOICE (assumption 113). -/
opaque bar0Status : (moduleId : Nat) → (linkOpen : Bool) → DWord

/-- The rail current in A and the rail voltage in mV that a site's PWRSTAT shows at a tick (R431).
DESIGN CHOICE (assumption 27). -/
opaque railAt : (site tick : Nat) → Nat × Nat

end Sys2Proof.Config
end

