-- ==== Sys2Proof/Machine/Memory.lean ====
section
/-! DEFINITION. Byte memories: DRAM by physical address (R21), a team's scratchpad and accumulator
shares (R84, R91), a core's operand buffer (R88) and a Scribe core's SRAM (R296) by offset. A memory
lists the bytes that differ from zero, in rising order of address; a byte not listed reads as zero. -/

namespace Sys2Proof.Machine

/-- Bytes by address: strictly rising addresses, no zero byte listed. -/
abbrev Memory := List Host.Cell

/-- What an unlisted address reads as: zero.
DESIGN CHOICE (assumption 3). -/
def unlistedByte : Byte := 0

/-- The byte at an address.
DESIGN CHOICE (assumption 3). -/
def Memory.get : Memory → Nat → Byte
  | [], _ => unlistedByte
  | (b, v) :: m, a => if b = a then v else if a < b then unlistedByte else Memory.get m a

/-- The memory with one byte written. Writing what an unlisted address reads as removes the entry. -/
def Memory.put : Memory → Nat → Byte → Memory
  | [], a, v => if v = unlistedByte then [] else [(a, v)]
  | (b, w) :: m, a, v =>
    if a < b then (if v = unlistedByte then (b, w) :: m else (a, v) :: (b, w) :: m)
    else if b = a then (if v = unlistedByte then m else (a, v) :: m)
    else (b, w) :: Memory.put m a v

/-- Every listed address is at least `lo`, addresses rise strictly, and no listed byte is zero. -/
def Memory.above (lo : Nat) : Memory → Bool
  | [] => true
  | (a, v) :: m => decide (lo ≤ a) && v != unlistedByte && Memory.above (a + 1) m

/-- The canonical form. -/
def Memory.wf (m : Memory) : Bool := m.above 0

/-- The `n` bytes from `a` upward. -/
def Memory.read (m : Memory) (a : Nat) : Nat → List Byte
  | 0 => []
  | n + 1 => m.get a :: Memory.read m (a + 1) n

/-- The memory with the bytes `bs` written from `a` upward. -/
def Memory.write (m : Memory) (a : Nat) : List Byte → Memory
  | [] => m
  | v :: bs => Memory.write (m.put a v) (a + 1) bs

/-- The little-endian number of `n` bytes at `a` (R1). -/
def Memory.readNat (m : Memory) (a n : Nat) : Nat := natOfBytes (m.read a n)

/-- The low `n` bytes of `v` stored little-endian at `a` (R1). -/
def Memory.writeNat (m : Memory) (a n v : Nat) : Memory := m.write a (bytesOfNat n v)

end Sys2Proof.Machine
end

