-- ==== Sys2Proof/Machine/State.lean ====
section
/-! DEFINITION. The state of one UBY-62 module as plain data, and the state after reset. Everything
numbered (threads, cores, sites, commands) is an association list; what is not listed stands at its
reset value. The fields that are the model's own and not the manual's say so. -/

namespace Sys2Proof.Machine

/-! ## Threads, squads, teams and launches -/

/-- A long-latency instruction of a thread whose lookahead window or completion is still open (R182,
R183). `known` says that its results are decided; it writes them when it completes. -/
structure Window where
  id : Nat
  pc : DWord
  left : Nat
  issued : Nat
  pend : Pending
  known : Bool
  complete : Bool
  regs : List (Nat × Word)
  preds : List (Nat × Bool)
  flags : Nat
  fault : Option (Nat × DWord)
deriving DecidableEq, Repr

/-- Where an address leads: a physical address, or a half and an offset of a team's scratchpad. -/
inductive Loc where
  | glob (pa : Nat)
  | scr (half off : Nat)
deriving DecidableEq, Repr

/-- The paths of R110, and the host's accesses (R109). -/
inductive Path where
  | t | c | m | n | p | host
deriving DecidableEq, Repr

/-- The agent of an effect (R110): a thread and the site it runs on, a Scribe core, the host, an agent of another
module, or a unit of the module itself that acts for no thread: a scheduler, a walker, the Lineup's controller.
DEDUCED (assumption 13). -/
inductive Party where
  | thread (t : Tid) (site : Nat)
  | scribe (sc : Nat)
  | host
  | foreign
  | module
deriving DecidableEq, Repr

/-- The fence that an instruction makes or carries (R116, R122): X, Y and SCOPE. -/
structure Fence where
  x : BitVec 5
  y : BitVec 5
  scope : Nat
deriving DecidableEq, Repr

/-- What is still to come before a write counts as complete (R117, R124): the completion signal of a command, by module
and number, or a Scribe core's completion point. -/
inductive Owed where
  | nothing
  | command (modId id : Nat)
  | scribe (sc : Nat)
deriving DecidableEq, Repr

/-- A write that a reader need not see yet (R107, R111, R120): its path and agent, where it was made, and what stood
there before it in coherence order (R105). -/
structure Unseen where
  path : Path
  agent : Party
  team : Nat
  loc : Loc
  n : Nat
  old : Nat
  /-- The event that it is part of (R104), by number, and the unit within that (R126). -/
  event : Nat × Nat
  /-- Whether it is an indivisible update: a read returns it wholly or not at all (R126), and no other write comes
  between it and what it read (R125). -/
  atomic : Bool
  owed : Owed
  /-- The fences made since it was complete, each with its maker (R117). -/
  fences : List (Fence × Party)
  /-- The parties that have seen it, each with the place of a byte (R105). -/
  seenBy : List (Party × Nat)
  /-- Whether every reader sees it. -/
  shown : Bool
deriving DecidableEq, Repr

/-- A WAITW in progress (R227): the lane's address and where it led, the expected value, the deadline
in ticks, the register written, the type, whether the mode is .ge, the residency flag, the
instruction's length, and the fence it carries (R122). -/
structure Watch where
  addr : DWord
  loc : Loc
  expect : Nat
  deadline : Option Nat
  d : Nat
  ty : Ty
  ge : Bool
  rf : Nat
  len : Nat
  fence : Fence
deriving DecidableEq, Repr

/-- What a parked thread waits for (R49), with what its instruction needs when it wakes. -/
inductive Park where
  /-- R87: the line of a scratchpad half; the instruction is issued again. -/
  | line (half line : Nat)
  | word (w : Watch)
  /-- R235: ring n with the TAIL read, the register written, the instruction's length, and the fence it carries. -/
  | ring (n tail d len : Nat) (fence : Fence)
  | tbar (len : Nat)
  | lease
  | ssync (len : Nat)
  /-- R52: at an EXIT or DEFER whose record event is made; whether a DEFER has met a full ready queue, which its own
  issue reports (R234), and the gang that waits for entries, 0 while it issues. -/
  | tracker (overflow : Bool) (gang : Nat)
deriving DecidableEq, Repr

/-- The status of a resident thread (R37, R42, R49, R55, R345). -/
inductive Status where
  | ready
  | held
  | parked (p : Park)
  | trapped
  /-- R345: the thread of a TLBINV, until every dropped translation is gone. -/
  | invalidating (id len : Nat)
  | exited
deriving DecidableEq, Repr

/-- A thread (R29): what a program sees, and its place in the core. -/
structure Thread where
  pc : DWord
  regs : AMap Nat Word
  /-- Registers never written read as free values numbered from here (R32). -/
  seed : Nat
  preds : BitVec 8
  fflags : BitVec 6
  rng : Word
  depth : Nat
  status : Status
  /-- The core clock since which the thread has been ready without issuing (R37). -/
  since : Nat
  windows : List Window
  hnd : Bool
  /-- The lookahead state kept while the user handler runs (R183, R324). -/
  saved : List Window
  resume : DWord
  trapCause : Word
  trapPc : DWord
  trapAddr : DWord
  trapLanes : DWord
  /-- Uncorrectable registers not yet met (R338). -/
  badRegs : List Nat
  /-- The clocks left, 0 for no timeout, of a WAITW that a CTXLOAD has restored and that is still to make
  its first read (R227). -/
  waitLeft : Option Nat
  /-- Its logical time (R107). -/
  time : Nat
  /-- The core clock since which a bias flip holds its access (R352): its wait count stands (R355). -/
  heldSince : Option Nat
deriving DecidableEq, Repr

/-- A squad (R28, R32, R36, R39, R42). `lead` is none where the first thread to become ready takes the
lead (R40). `task` is the physical address of the record that started it, none for an initial squad. -/
structure Squad where
  base : Nat
  lead : Option Nat
  started : Nat
  window : Option (Nat × DWord)
  task : Option Nat
  /-- The code object its threads run in (R58, R63). -/
  code : DWord
deriving DecidableEq, Repr

/-- A resident team (R33, R34, R69). `core` is core 2j of a paired team. -/
structure Team where
  lid : Nat
  number : Nat
  core : Nat
  paired : Bool
  slot : Nat
  part : Word
  scratch0 : Memory
  scratch1 : Memory
  acc0 : Memory
  acc1 : Memory
  /-- The hidden pending counts above zero, by half and line (R86). -/
  pending : AMap (Nat × Nat) Nat
  ringCfg : AMap Nat DWord
  ringTail : AMap Nat Word
  /-- The number of stamp-kind signals of the team so far (R114). -/
  stamps : Nat
  leaseWait : Bool
  /-- A CTXSAVE of the team is under way: no squad of it issues (R330). -/
  frozen : Bool
  /-- Scratchpad words and accumulator words that hold an uncorrectable error (R338): half, offset. -/
  badScratch : List (Nat × Nat)
  badAcc : List (Nat × Nat)
deriving DecidableEq, Repr

/-- A team off its cores between a CTXSAVE and a CTXLOAD (R330, R331): its number, and by core the numbers
of its reservation records, which its area has no place for.
DEDUCED (assumption 56). -/
structure SavedTeam where
  number : Nat
  records : List (List Nat)
deriving DecidableEq, Repr

/-- A launch (R58, R59): its record's fields at acceptance and how far it has come. -/
structure Launch where
  codeBase : DWord
  codeLen : Nat
  entry : Nat
  shot : Nat
  idem : Bool
  memb : Bool
  noprom : Bool
  lease : Nat
  prio : Nat
  depth : Nat
  regs : Nat
  sqn : Nat
  pair : Bool
  width : Nat
  part : Word
  teams : Nat
  consts : List DWord
  tenant : Nat
  hv : Bool
  hoff : Nat
  wptr : DWord
  wcnt : Nat
  root : Nat
  done : DWord
  rmask : Nat
  queue : Nat
  asn : Nat
  tableRoot : Nat
  /-- Whether it is the system launch (R356). -/
  system : Bool
  /-- Whether its address space is the system launch's, in which register space can be reached (R21, R342). -/
  sysSpace : Bool
  /-- The next team to place, and teams returned to unplaced (R69, R378). -/
  nextTeam : Nat
  returned : List Nat
  /-- Teams that a CTXSAVE has taken off their cores and no CTXLOAD has placed again (R330, R331). -/
  savedTeams : List SavedTeam
  /-- No further team is placed (R323). -/
  ending : Bool
  /-- The cause with which DONE is signalled as failed, 0 for none (R62, R323, R378). -/
  failCause : Nat
  /-- A root decrement waits for its page (R62). -/
  rootWait : Bool
  /-- The core that the next team is held for while its block powers on (R69, R434). -/
  heldAt : Option Nat
deriving DecidableEq, Repr

/-! ## Cores -/

/-- A TLB entry (R342, R343): the page of an ASN with the rights and D it was filled with. -/
structure TlbEntry where
  asn : Nat
  page : Nat
  large : Bool
  pa : Nat
  rd : Bool
  wr : Bool
  x : Bool
  dirty : Bool
deriving DecidableEq, Repr

/-- The retention classes of R97. -/
inductive LineClass where
  | first | normal | last
deriving DecidableEq, Repr

/-- A cached line: its physical address over 128, its class, whether it is dirty, and the write time and the
lease end it carries, in logical ticks (R17, R107). A set lists its lines with the least recently used
first. -/
structure CacheLine where
  line : Nat
  cls : LineClass
  dirty : Bool
  wtime : Nat
  lease : Nat
deriving DecidableEq, Repr

/-- A tile of a share (R91, R254): its offset in bytes, its pitch, its rows and its columns on one core. -/
structure Tile where
  off : Nat
  pitch : Nat
  rows : Nat
  cols : Nat
deriving DecidableEq, Repr

/-- What an entry of a core's engine order is to do (R121, R253): an OBRES that zeroes units, an OBREL
that frees them, and the matrix instructions, with the operands they were issued with. `rec` is the
reservation record's value at issue; A and its scales are offsets in one half of the scratchpad, and `held`
is what the partner core's engine has read of them (R263). -/
inductive EngineWork where
  | clear (base size : Nat)
  | free (base size : Nat)
  | load (addr n v : Nat)
  | mma (aTy : Ty) (turned : Bool) (aHalf aOff sOff apitch bpitch eoff : Nat) (rec : DWord)
      (t : Tile) (chunks : Nat) (held : Option Memory)
  | zero (t : Tile)
  | read (off n d : Nat)
  | write (off n v : Nat)
  | drain (cmd : Nat) (t : Tile)
  | quantScratch (kind : Nat) (t : Tile) (half codes scales pitch : Nat)
  | quantBuffer (kind : Nat) (t : Tile) (rec : DWord) (eoff pitch : Nat)
deriving DecidableEq, Repr

/-- An entry of a core's engine order: what it does, for which team and half of it, and the threads
whose window of the given number it completes. -/
structure EngineOp where
  work : EngineWork
  team : Nat
  half : Nat
  tids : List Tid
  window : Nat
deriving DecidableEq, Repr

/-- An entry of the retirement tracker (R53): the team, its launch and task, and the effects still
outstanding, by command. -/
structure TrackerEntry where
  team : Nat
  lid : Nat
  task : Option Nat
  cmds : List Nat
deriving DecidableEq, Repr

/-- The lease arbiter of a core (R71, R72). -/
structure Lease where
  holder : Option Nat
  left : Nat
  /-- The core clock since which its holder has issued no MMA, and that of the engine's last MMA (R71, R77). -/
  lastMma : Nat
  issued : Option Nat
  lastSlot : Nat
  /-- The paired team for which the engine is held free (R72). -/
  forPair : Option Nat
deriving DecidableEq, Repr

/-- A core by its linear logical index (R9). -/
structure Core where
  order : List Sid
  slots : AMap Nat Nat
  lease : Lease
  engine : List EngineOp
  records : AMap Nat DWord
  opBuf : Memory
  badOpBuf : List Nat
  tracker : List TrackerEntry
  spaFlags : BitVec 6
  tlb : List TlbEntry
  l1 : AMap Nat (List CacheLine)
  /-- The wafer time at which a REALIGN stall ends (R215), in eighths of a nanosecond. -/
  stall : Option Nat
  /-- The core clock since which the picker stands still (R215, R369, R417). -/
  stopClock : Nat
  /-- Gangs of memory-bound launches in the present window, the window, and its cap (R73). -/
  membGangs : Nat
  membWindow : Nat
  cap : Nat
  hreq : Bool
  halted : Bool
  hcause : Nat
  /-- A lossless Blotter stall of the picker (R417). -/
  bltStall : Bool
  gangCount : Nat
deriving DecidableEq, Repr

/-! ## Commands and packets -/

/-- An address space (R340): its number, its level-0 table, and whether it is the system launch's. -/
structure Space where
  asn : Nat
  root : Nat
  system : Bool
deriving DecidableEq, Repr

/-- Where the bytes of a transfer come from: an address, bytes already at hand, lowest first, or a byte
offset of leaf j of the command's tree of a depth (R166). -/
inductive CopySrc where
  | addr (a : Nat)
  | bytes (v : Nat)
  | leaf (depth j off : Nat)
deriving DecidableEq, Repr

/-- One transfer of a command: `n` bytes to an address, in one line and one page. -/
structure Piece where
  dst : Nat
  src : CopySrc
  n : Nat
deriving DecidableEq, Repr

/-- An engine command (R270, R74): the instruction, its issuer, its operand values, and how far it
has come. -/
structure Command where
  op : Op
  sub : Nat
  ty : Ty
  hint : Nat
  core : Nat
  team : Nat
  lid : Nat
  lanes : List Tid
  /-- The thread that issued it (R110), and its launch's address space. -/
  agent : Party
  space : Space
  /-- Whether its entry is one of the core's shared pool (R74). -/
  shared : Bool
  done : DWord
  /-- The transfers still to be made. -/
  pieces : List Piece
  /-- The 64 KiB pages of its addresses, translated at issue (R271): the physical page, or none where
  the page was valid but not resident. -/
  pages : AMap Nat (Option Nat)
  /-- Scratchpad lines whose pending count it still holds (R86). -/
  lines : List (Nat × Nat)
  /-- Whether its transfers may begin: an MDRAIN's tile has been read (R266). -/
  ready : Bool
  /-- Whether its transfer has begun (R330). -/
  began : Bool
  /-- The cause of its first error, 0 for none. -/
  cause : Nat
  /-- PUT, GET and MSG: the window entry, the window word, the local address and the length (R278). -/
  win : Option WinEntry
  word : DWord
  addr : Nat
  len : Nat
  plane : Plane
  /-- Topology refusals so far (R283). -/
  refusals : Nat
  /-- Packets not yet acknowledged, answered or processed; for NMCMD, site × 4 + stack. -/
  parts : List Nat
  /-- NMCMD (R284): each lane's row address and second address. -/
  rows : List (Nat × Nat)
  /-- Partial sums of a .gathersum (R285): site × 4 + stack, destination word, bag, bits. -/
  sums : List (Nat × Nat × Nat × Nat)
  /-- UNSEAL (R287): the root seal. TCOPY (R334): the image of the tensor shape record. -/
  root : Nat
  tsr : Nat
deriving DecidableEq, Repr

/-- An agenda entry: a step of the module that is due at a time, in eighths of a nanosecond (the
model's own). -/
structure Due where
  at_ : Nat
  ev : Ev
deriving DecidableEq, Repr

/-- A gang (R38): the core, its threads in ascending issue position, each with its position, and the
squad that moves to the back of the pick order once it has issued (R39), none under R45. -/
structure Gang where
  core : Nat
  pc : DWord
  move : Option Sid
  members : List (Nat × Tid)
  /-- Whether R45 has chosen it. -/
  overdue : Bool := false
deriving DecidableEq, Repr

/-- The agents that take turns in a round of core clocks (the model's own). -/
inductive Agent where
  | core (c : Nat)
  | scribe (sc : Nat)
deriving DecidableEq, Repr

/-- A trap report as the trap queue takes it (R322), with the threads it names. -/
structure Report where
  lid : Nat
  cause : Nat
  flags : Nat
  core : Nat
  lanes : DWord
  tslot : Nat
  issued : Nat
  pc : DWord
  addr : DWord
  threads : List Tid
deriving DecidableEq, Repr

/-- A TLBINV in progress (R345): its thread, the length of its instruction, and the engine commands
accepted with a dropped translation that are still to finish. -/
structure Invalidation where
  tid : Tid
  len : Nat
  cmds : List Nat
deriving DecidableEq, Repr

/-- A CTXSAVE or CTXLOAD in progress (R330, R331): which, the issuing core and team, the team slot, the
team saved and its squads in pick order by core, what is recorded of its removed commands, and the
completion. -/
structure CtxOp where
  load : Bool
  core : Nat
  issuer : Nat
  lid : Nat
  /-- The thread that issued it, and its launch's address space. -/
  agent : Party
  space : Space
  slot : Nat
  base : DWord
  team : Option Nat
  squads : List Sid
  lwait : Bool
  records : List Command
  done : DWord
  /-- The cause with which a CTXSAVE has failed, while its recorded commands are issued again; 0 for
  none. -/
  cause : Nat
deriving DecidableEq, Repr

/-- A page request (R94): the address space, the address, and who is told. -/
structure PageReq where
  asn : Nat
  tableRoot : Nat
  system : Bool
  va : Nat
  core : Nat
  team : Nat
  done : DWord
  /-- The thread that issued it (R110); of a request of the scheduler's, the module. -/
  agent : Party
deriving DecidableEq, Repr

/-! ## Sites, Scribe cores and the module -/

/-- A sealed line (R153, R161): its class, its 256 content bytes as a little-endian number, and its
reference count. Its seal is the key it is listed under.
DESIGN CHOICE (assumption 16). -/
structure SealLine where
  cls : Nat
  content : Nat
  count : Nat
deriving DecidableEq, Repr

/-- A replay-filter entry (R408): the high mark, the 1,024 numbers up to it that were applied, bit k for
the number k below it, and the tick of its last traffic. -/
structure ReplayEntry where
  high : Nat
  seen : Nat
  last : Nat
deriving DecidableEq, Repr

/-- A completion operand to be signalled (R112, R115): in the address space of a launch, or in a team's
scratchpad; and the agent of the signal (R110). -/
structure Sig where
  core : Nat
  team : Option Nat
  sp : Space
  op : DWord
  n : Nat
  failed : Bool
  cause : Nat
  agent : Party
deriving DecidableEq, Repr

/-- A command that has begun to arrive from another agent (R127, R128, R347): the packets still to come, the
cause of its first error, the registration entry it is counted in with the launch and the address space found
there, the offsets of the packets already dealt with and their bytes, and for a refused one the NAK's reason. -/
structure Arrival where
  left : Nat
  cause : Nat
  entry : Nat
  parts : List Nat
  bytes : Nat
  lid : Nat
  space : Space
  refused : Option Nat
deriving DecidableEq, Repr

/-- An error report of a unit (R339): cause, unit, uncorrectable, generation, logical and physical name, and
address.
DEDUCED (assumption 62). -/
structure ErrorReport where
  cause : Nat
  unit : Nat
  unc : Bool
  gen : Nat
  logical : Nat
  phys : Nat
  addr : Nat
deriving DecidableEq, Repr

/-- A run of corrected errors at one unit (R339): the report of its first, that event's wafer time and tick, and
the events so far. -/
structure ErrorRun where
  first : ErrorReport
  time : Nat
  opened : Nat
  count : Nat
deriving DecidableEq, Repr

/-- A change of the live map in service (R373), as Nib journals it: a retired slot, a dead block or memory
router, a dead mesh edge, a reticle out of service, a dead Scribe core, the L2 slices left, a redirected DRAM
channel, a dead wavelength. -/
inductive Change where
  | slot (site block slot : Nat)
  | blockRouter (site block : Nat)
  | memoryRouter (site router : Nat)
  | edge (site edge : Nat)
  | out (site : Nat)
  | scribe (site core : Nat)
  | slices (site : Nat) (live : Word)
  | channel (site : Nat) (chremap : DWord)
  | wavelength (site w : Nat)
deriving DecidableEq, Repr

/-- An entry of the retirement journal (R373): the change, and whether the entry authenticates.
DEDUCED (assumption 84). -/
structure JournalEntry where
  change : Change
  authentic : Bool
deriving DecidableEq, Repr

/-- A lane underway from one bundle to another (R406): the wavelength, the links it leaves and joins (4
for a link of another reticle), and the version of the steering commit it waits for, once that is
assigned. -/
structure LaneMove where
  wave : Nat
  src : Nat
  dst : Nat
  ver : Option Nat
deriving DecidableEq, Repr

/-- A lane move that a reticle has asked the peers of its links about (R406 step 1): the wavelength, L and H, the peers
that have still to answer, and the tick until which they may. -/
structure SteerAsk where
  wave : Nat
  src : Nat
  dst : Nat
  waits : List Nat
  until_ : Nat
deriving DecidableEq, Repr

/-- A commit request on its way to the commit reticle (R397, R406): the requesting site, the version
Barrel asks for, none for a steering commit, and the tick at which it arrives. -/
structure CommitRequest where
  site : Nat
  ver : Option Nat
  arrives : Nat
deriving DecidableEq, Repr

/-- A commit broadcast on its way to a reticle (R397): the version and the swap flag. -/
structure Broadcast where
  ver : Nat
  swap : Bool
deriving DecidableEq, Repr

/-- A trace stream (R409, R417, R418). `lost` counts the records dropped since the last loss record;
`fell` that it is lossy until BLTCFGs is written again; `fallback` that its fallback record is still to
be written; `stalls` names the stalled emitters, each with the wafer time of its start plus one, or with 0 once its
stall is over and it may pass; `owed` are the stalls whose records are still to be written: the emitter, the start and
the duration. -/
structure Stream where
  cfg : DWord
  base : DWord
  tail : DWord
  head : DWord
  stat : DWord
  /-- The records dropped since the last loss record, and the emitter of the last of them. -/
  lost : Nat
  lostBy : Nat
  fell : Bool
  fallback : Bool
  stalls : AMap Nat Nat
  owed : List (Nat × Nat × Nat)
deriving DecidableEq, Repr

/-- The Lineup registers and counters of one reticle for one slot (R420). -/
structure LupSite where
  bank : DWord
  ver : DWord
  stat : DWord
  cnt : AMap Nat Nat
  /-- The instant at which each replica (expert × 8 + replica) was retired here, in ticks, and the
  version that retired it (R426). -/
  grace : AMap Nat (Nat × Nat)
  /-- The instant at which the last replica on each spare of the list was retired here, in ticks (R426). -/
  rests : AMap Nat Nat
deriving DecidableEq, Repr

/-- How far a review has come (R422-R425): its copies run, its preparation is out, its commit is out, or it has failed
and its end waits. -/
inductive ReviewStage where
  | copying | prepared | committing | failing
deriving DecidableEq, Repr

/-- A review in progress (R422): its launch, its changed table entries by expert, each entry sixteen 64-bit
words, the copies it runs (expert, source, destination, site of the destination, bytes), the spares it uses,
its added replicas (expert, replica, site, team, window), the reticles still to acknowledge, how far it is, the reticle
that runs it, and the instant of its preparation, in ticks. -/
structure Review where
  lid : Nat
  table : AMap Nat (List DWord)
  copies : List (Nat × Nat × Nat × Nat × Nat)
  spares : List Nat
  adds : List (Nat × Nat × Nat × Nat × Nat)
  acks : List Nat
  version : Nat
  stage : ReviewStage
  site : Nat
  sent : Nat
deriving DecidableEq, Repr

/-- A Lineup slot of the module (R419): its registers, its review, and the heartbeats missed (R428, R429). -/
structure LupSlot where
  cfg : DWord
  pol : DWord
  gate : DWord
  nrep : DWord
  spare : DWord
  review : Option Review
  missed : Nat
deriving DecidableEq, Repr

/-- The configuration flash and the management controller's counters (R357, R359, R361, R373, R408): the
envelopes by KIND, the retirement journal, the identity helper data, the vendor's certificate, the next LMS
leaf, the boot count, and the anti-rollback minimums of KINDs 0x01 and 0x10. -/
structure Flash where
  envelopes : AMap Nat (List Byte)
  journal : List JournalEntry
  helper : List Byte
  certificate : List Byte
  lmsLeaf : Nat
  bootCount : Nat
  svnNib : Nat
  svnConfig : Nat
deriving DecidableEq, Repr

/-- How far the module has booted (R360): not yet, its reticles powering up, stopped with the failing KIND,
without launch service, or up. -/
inductive BootStage where
  | cold
  | powering
  | stopped (kind : Nat)
  | noLaunch
  | up
deriving DecidableEq, Repr

/-- A task in a ready queue (R66): its level, its record, its tier, its hints, and its launch. -/
structure ReadyTask where
  prio : Nat
  addr : Nat
  lid : Nat
  scribe : Bool
  stack : Nat
  block : Nat
  sqn : Nat
deriving DecidableEq, Repr

/-- The power states of a block (R433, R434): `powering` counts the gate steps made, none before the
checks have passed. -/
inductive Power where
  | active
  | idle (since : Nat)
  | gated
  | powering (steps : Option Nat)
deriving DecidableEq, Repr

/-- A block (R9-R13, R375): its remap generation, whether its router is dead, the state of each of its
nine slots (0 live, 1 dead at test, 2 retired in service), the slot of each name (14 vacant, 15 no such
name), its published pairs, its power state (R433), the tick since which no squad has been resident in it, the
core clock from which its cores count (R214): that at which they left reset, and the clocks for which they
stood still since; and the halted slots that carry no name, with their HCAUSE (R368). -/
structure Block where
  gen : Nat
  rtdead : Bool
  slots : List Nat
  names : List Nat
  npairs : Nat
  power : Power
  since : Nat
  born : Nat
  spareHalt : AMap Nat Nat
deriving DecidableEq, Repr

/-- A site: its ready queue, device registers, caches, blocks, links, banks, streams and Lineup tables. -/
structure Site where
  /-- The ready queue in order of readying (R66), and tasks Barrel keeps READY until room frees. -/
  readyQ : List ReadyTask
  overflow : List ReadyTask
  dispatches : Nat
  lastDispatch : Nat
  /-- The tick at which a team was last placed on the reticle (R78). -/
  lastPlace : Option Nat
  /-- The congestion cap as last sampled, and as it stood when the present window of 64 core clocks began (R73). -/
  cap : Nat
  windowCap : Nat
  l2cfg : DWord
  l2live : Word
  l2 : AMap Nat (List CacheLine)
  /-- The latest lease end of a line that has left the L2: the write time and lease end of a line fetched
  from DRAM (R107). -/
  l2Time : Nat
  l2aflags : AMap Nat (BitVec 6)
  atomxf : AMap Nat (BitVec 6)
  sealpbase : DWord
  sealpcfg : DWord
  /-- The walker's work (R163): for each freed interior line, the children still to drop. -/
  walker : List (List Nat)
  trapqbase : DWord
  trapqcfg : Word
  trapqtail : Word
  trapqhead : Word
  trapact : DWord
  /-- Reports written, by index, and reports waiting for room (R322). -/
  reports : AMap Nat Report
  waiting : List Report
  /-- The error log (R339), the runs of corrected errors still open, and the tick of each physical slot's last
  uncorrectable error (R377). -/
  errorLog : List (List Byte)
  runs : List ErrorRun
  lastError : AMap Nat Nat
  wregbase : DWord
  wregcfg : Word
  biasbase : DWord
  biascmd : DWord
  /-- CTXBASEs by core and team slot (R329). -/
  ctxbase : AMap (Nat × Nat) DWord
  /-- The site's part of the defect map (R374, R375). -/
  blocks : AMap Nat Block
  out : Bool
  scdead : DWord
  /-- Dead routers, mesh edges, command units, fibre links and wavelengths (R374). -/
  rdead : Nat
  edead : Nat
  cudead : Nat
  fdead : Nat
  wdead : Nat
  /-- Failed DRAM channels (R385, R394). -/
  chdead : Nat
  /-- Reticle-off (R433), the core clock's rate in MHz (R430, R436), how far it has fallen behind 1.6 GHz, in parts of
  1,600 of a clock, and the tick at which the reticle powered up (R431), none before that. -/
  off : Bool
  mhz : Nat
  lag : Nat
  upSince : Option Nat
  /-- The block whose power-on runs (R434), the steps of R77 with the ticks at which they started, in tenths
  of an ampere, and the starts that wait, with the ticks of their notices. -/
  powering : Option Nat
  notices : List (Nat × Nat)
  awaiting : AMap Ev Nat
  chremap : DWord
  /-- NETVER and the banks (R391, R392), bytes by offset. -/
  netver : DWord
  activeBank : Memory
  shadowBank : Memory
  /-- Commit broadcasts underway to the reticle (R397). -/
  broadcasts : List Broadcast
  /-- Edges declared dead in the version in force: within the last ms, and longer ago (R399). -/
  deadWait : List Nat
  deadRefuse : List Nat
  /-- Packets queued at dead edges, and held for a newer version (R398, R399). -/
  queued : List Nat
  held : List Nat
  /-- The packets that link-level retry holds, by the edge whose link has failed for less than 1 µs (R399). -/
  retry : AMap Nat (List Nat)
  /-- Receive-queue occupancies last reported, by site (R393). -/
  occupancy : AMap Nat Nat
  /-- Versions last learned of other modules (R398). -/
  learned : AMap Nat Nat
  /-- The site whose endpoint answers for a lost port (R400). -/
  servedBy : Option Nat
  optlinks : AMap Nat DWord
  optskew : DWord
  steercfg : DWord
  moves : List LaneMove
  /-- The bytes queued for each link in the interval (R405), and the moves asked about (R406). -/
  demand : AMap Nat Nat
  asks : List SteerAsk
  replay : AMap ReplayKey ReplayEntry
  /-- The next SEQ by destination module, destination site and TAG (R408). -/
  seqs : AMap (Nat × Nat × Nat) Nat
  linkdly : AMap Nat DWord
  timeParent : Option Nat
  streams : AMap Nat Stream
  lup : AMap Nat LupSite
deriving DecidableEq, Repr

/-- A Scribe core (R294-R297, R303): site × 64 + stack × 16 + number. -/
structure ScribeCore where
  s : AMap Nat DWord
  z : AMap Nat (List Word)
  m : AMap Nat (BitVec 16)
  flags : BitVec 6
  pc : Nat
  stack : List Nat
  sram : Memory
  /-- The task it runs: its record and launch; none when idle. -/
  task : Option (Nat × Nat)
  image : Nat
  lastLaunch : Nat
  tlb : List TlbEntry
  /-- Registers whose load is outstanding (R294), the oldest load first: s i as i, z i as 32 + i. -/
  loads : List Nat
  /-- The page that stalls it (R294), the address of the access. -/
  stall : Option Nat
  sfault : DWord
  sfaddr : DWord
deriving DecidableEq, Repr

/-- A launch queue (R56, R340). -/
structure LaunchQueue where
  base : DWord
  cfg : Word
  head : Word
  tail : Word
  pt : DWord
  /-- It waits for a page that is not resident (R61). -/
  wait : Bool
deriving DecidableEq, Repr

/-- The state of one module. -/
structure State where
  threads : AMap Tid Thread
  squads : AMap Sid Squad
  teams : AMap Nat Team
  launches : AMap Nat Launch
  cores : AMap Nat Core
  sites : AMap Nat Site
  scribes : AMap Nat ScribeCore
  queues : AMap Nat LaunchQueue
  commands : AMap Nat Command
  packets : AMap Nat Packet
  /-- Packets that have left for other modules. DESIGN CHOICE (assumption 1). -/
  outbox : List Wire
  pageReqs : AMap Nat PageReq
  /-- The live task records (R63), by physical address: the virtual address and the launch that its
  TSPAWN gave it. -/
  tasks : AMap Nat (Nat × Nat)
  /-- Sealed lines by seal (R152), and SEALHOMEn (R155). -/
  seals : AMap Nat SealLine
  sealHome : AMap Nat DWord
  /-- Packets as first sent, by number, until they are acknowledged (R283, R408). -/
  sent : AMap Nat Packet
  /-- Commands being received, by source module and command. -/
  arrivals : AMap (Nat × Nat) Arrival
  commits : List CommitRequest
  /-- NETROOT (R391). -/
  netroot : Nat
  invalidations : AMap Nat Invalidation
  contexts : AMap Nat CtxOp
  /-- Completion signals that a flip or a flush holds (R98, R352), oldest first. -/
  heldSignals : List Sig
  lups : AMap Nat LupSlot
  flash : Flash
  bootStage : BootStage
  dbgstate : DWord
  /-- Whether the host link is open (R360), and what the host has read and the management port has
  reported. -/
  hostLink : Bool
  hostOut : List (List Byte)
  /-- What the debug port has read (R365). -/
  debugOut : List (List Byte)
  dmapgen : DWord
  wtstatus : DWord
  mem : Memory
  /-- The writes that some reader need not see yet, newest first (R107, R111, R117, R120). -/
  unseen : List Unseen
  /-- The number of writes so far (the model's own). -/
  writes : Nat
  /-- The fences that DEFERs have left for their continuation tasks (R122), by the record's physical address. -/
  fences : AMap Nat (List Fence)
  /-- The 32-byte granules of DRAM that hold an uncorrectable error (R337, R338), by address over 32. -/
  badDram : List Nat
  /-- The module's identity (R170, R374). -/
  moduleId : Nat
  nextLid : Nat
  stampSeq : Nat
  /-- The stamp-kind signals so far of the teams that have left their cores (R114). -/
  pastStamps : AMap Nat Nat
  /-- Core clocks since the module left reset, the same for every core. -/
  clock : Nat
  /-- Eighths of a nanosecond since reset, wafer time less its offset (the model's own). -/
  tick : Nat
  /-- Wafer time at reset (R386), in eighths of a nanosecond. -/
  timeBase : Nat
  /-- The correction of wafer time still to be slewed (R386), in eighths of a nanosecond. -/
  slew : Int
  /-- The steps that are due, with their times (the model's own). DESIGN CHOICE (assumption 2). -/
  agenda : List Due
  /-- The agents still to act in the present round (the model's own). -/
  todo : List Agent
  /-- The gang whose instruction the present turn has fetched (R38), and the Scribe core (the model's
  own). -/
  gang : Option Gang
  scribe : Option Nat
  /-- The event points of the present step at which an engine must stall (R417): the site, the stream and the
  emitter. Empty between steps (the model's own). -/
  stops : List (Nat × Nat × Nat)
  /-- Serial numbers of teams, commands, windows, squads and packets (the model's own). -/
  serial : Nat
  /-- The number of free values drawn (the model's own). -/
  free : Nat
deriving DecidableEq, Repr

/-! ## Reset -/

/-- A thread with nothing in it: what an unlisted thread reads as.
DESIGN CHOICE (assumption 21). -/
def Thread.blank : Thread :=
  { pc := 0, regs := [], seed := 0, preds := 1, fflags := 0, rng := 1, depth := 0,
    status := .exited, since := 0, windows := [], hnd := false, saved := [], resume := 0,
    trapCause := 0, trapPc := 0, trapAddr := 0, trapLanes := 0, badRegs := [], waitLeft := none, time := 0,
    heldSince := none }

/-- A squad with nothing in it. -/
def Squad.blank : Squad :=
  { base := 0, lead := none, started := 0, window := none, task := none, code := 0 }

/-- A team with nothing in it: rings unregistered, every shared byte zero, every line present (R85). -/
def Team.blank : Team :=
  { lid := 0, number := 0, core := 0, paired := false, slot := 0, part := 0, scratch0 := [],
    scratch1 := [], acc0 := [], acc1 := [], pending := [], ringCfg := [], ringTail := [],
    stamps := 0, leaseWait := false, frozen := false, badScratch := [], badAcc := [] }

/-- A launch with nothing in it. -/
def Launch.blank : Launch :=
  { codeBase := 0, codeLen := 0, entry := 0, shot := 4096, idem := false, memb := false,
    noprom := false, lease := 0, prio := 0, depth := 0, regs := 8, sqn := 0, pair := false,
    width := 8, part := 0, teams := 0, consts := [], tenant := 0, hv := false, hoff := 0, wptr := 0,
    wcnt := 0, root := 0, done := 0, rmask := 0, queue := 0, asn := 0, tableRoot := 0,
    system := false, sysSpace := false, nextTeam := 0, returned := [], savedTeams := [], ending := false,
    failCause := 0, rootWait := false, heldAt := none }

/-- A core out of reset: nothing resident, its engine free, its operand buffer zero, its caches and
TLB empty, the congestion cap 64 (R73); the first lease goes to the lowest team slot that asks.
DESIGN CHOICE (assumption 21). DESIGN CHOICE (assumption 121). -/
def Core.reset : Core :=
  { order := [], slots := [],
    lease := { holder := none, left := 0, lastMma := 0, issued := none, lastSlot := 63, forPair := none },
    engine := [], records := [], opBuf := [], badOpBuf := [], tracker := [], spaFlags := 0,
    tlb := [], l1 := [], stall := none, stopClock := 0, membGangs := 0, membWindow := 0, cap := 64, hreq := false,
    halted := false, hcause := 0, bltStall := false, gangCount := 0 }

/-- A block with no dead slot (R10), region-gated (R435). -/
def Block.reset : Block :=
  { gen := 0, rtdead := false, slots := List.replicate 9 0, names := List.range 8, npairs := 4,
    power := .gated, since := 0, born := 0, spareHalt := [] }

/-- A site out of reset: every device register at the value its table gives, L2LIVE naming all six
slices (R383), the congestion cap 64 (R73).
DESIGN CHOICE (assumption 21). -/
def Site.reset : Site :=
  { readyQ := [], overflow := [], dispatches := 0, lastDispatch := 0, lastPlace := none, cap := 64, windowCap := 64, l2cfg := 0,
    l2live := 0x3F, l2 := [], l2Time := 0, l2aflags := [], atomxf := [], sealpbase := 0, sealpcfg := 0,
    walker := [], trapqbase := 0, trapqcfg := 0, trapqtail := 0, trapqhead := 0, trapact := 0,
    reports := [], waiting := [], errorLog := [], runs := [], lastError := [], wregbase := 0, wregcfg := 0,
    biasbase := 0, biascmd := 0, ctxbase := [], blocks := [], out := false, scdead := 0, rdead := 0, edead := 0,
    cudead := 0, fdead := 0, wdead := 0, chdead := 0, off := false, mhz := 1600, lag := 0, upSince := none, powering := none,
    notices := [], awaiting := [], chremap := 0, netver := 1, activeBank := [], shadowBank := [],
    broadcasts := [], deadWait := [], deadRefuse := [], queued := [], held := [], retry := [], demand := [], asks := [], occupancy := [], learned := [], servedBy := none,
    optlinks := [], optskew := 0, steercfg := 1000, moves := [], replay := [], seqs := [],
    linkdly := [], timeParent := none, streams := [], lup := [] }

/-- A trace stream out of reset (R409).
DESIGN CHOICE (assumption 21). -/
def Stream.reset : Stream :=
  { cfg := 0, base := 0, tail := 0, head := 0, stat := 0, lost := 0, lostBy := 0, fell := false,
    fallback := false, stalls := [], owed := [] }

/-- The Lineup registers of a reticle and of the module out of reset (R419, R420).
DESIGN CHOICE (assumption 10). -/
def LupSite.reset : LupSite := { bank := 0, ver := 0, stat := 0, cnt := [], grace := [], rests := [] }
def LupSlot.reset : LupSlot :=
  { cfg := 0, pol := 0, gate := 0, nrep := 0, spare := 0, review := none, missed := 0 }

/-- A configuration flash with nothing written.
DESIGN CHOICE (assumption 11). -/
def Flash.blank : Flash :=
  { envelopes := [], journal := [], helper := [], certificate := [], lmsLeaf := 0, bootCount := 0, svnNib := 0,
    svnConfig := 0 }

/-- A Scribe core out of reset: idle, its registers and SRAM zero.
DESIGN CHOICE (assumption 21). -/
def ScribeCore.reset : ScribeCore :=
  { s := [], z := [], m := [], flags := 0, pc := 0, stack := [], sram := [], task := none,
    image := 0, lastLaunch := 0, tlb := [], loads := [], stall := none, sfault := 0,
    sfaddr := 0 }

/-- A launch queue out of reset (R56, R340). -/
def LaunchQueue.reset : LaunchQueue :=
  { base := 0, cfg := 0, head := 0, tail := 0, pt := 0, wait := false }

/-- The module right after reset: nothing resident, memory with nothing listed, and the boot still to
come (R360).
DESIGN CHOICE (assumption 3). DESIGN CHOICE (assumption 5). DESIGN CHOICE (assumption 11). -/
def State.reset : State :=
  { threads := [], squads := [], teams := [], launches := [], cores := [], sites := [], scribes := [], queues := [],
    commands := [], packets := [], outbox := [], pageReqs := [], tasks := [], seals := [], sealHome := [], sent := [],
    arrivals := [], commits := [], netroot := 26, invalidations := [], contexts := [], heldSignals := [], lups := [],
    flash := .blank, bootStage := .cold, dbgstate := 0, hostLink := false, hostOut := [], debugOut := [],
    dmapgen := 0, wtstatus := 0, mem := [], unseen := [], writes := 0, fences := [], badDram := [], moduleId := 0, nextLid := 1,
    stampSeq := 0, pastStamps := [], clock := 0, tick := 0, timeBase := 0, slew := 0,
    agenda := [{ at_ := 0, ev := .boot }], todo := [], gang := none, scribe := none, stops := [],
    serial := 1, free := 0 }

/-- Why the machine stops. -/
inductive Fault where
  /-- An instruction of a thread was executed with no gang chosen (`State.gang` is none), or one of a
  Scribe core with no Scribe core chosen. Raised by the meanings of instructions, never by `step`,
  which chooses both before it executes. Safe: no state of the machine is claimed to follow. -/
  | noAgent
deriving DecidableEq, Repr

/-- Why an instruction has no meaning. -/
inductive Refusal where
  /-- The instruction is not modelled yet. Raised by the dispatcher only. Safe: nothing is claimed of
  such a step. -/
  | notModelled (mnemonic : String)
deriving DecidableEq, Repr

/-- The outcome of one step. -/
abbrev Out := Host.Outcome State Fault Refusal

end Sys2Proof.Machine
end

