-- ==== Sys2Proof/Machine/Lookup.lean ====
section
/-! DEFINITION. Reading and changing one entry of the state: threads, squads, teams, launches, cores,
sites, Scribe cores, queues and commands by their numbers, the registers and predicates of a thread
(R169, R171), the agenda, and fresh numbers and free values. -/

namespace Sys2Proof.Machine

variable (s : State)

def State.thread (t : Tid) : Thread := s.threads.getD t .blank
def State.squad (q : Sid) : Squad := s.squads.getD q .blank
def State.team (n : Nat) : Team := s.teams.getD n .blank
def State.launch (l : Nat) : Launch := s.launches.getD l .blank
def State.core (c : Nat) : Core := s.cores.getD c .reset
def State.site (n : Nat) : Site := s.sites.getD n .reset
def State.scribeCore (n : Nat) : ScribeCore := s.scribes.getD n .reset
def State.queue (q : Nat) : LaunchQueue := s.queues.getD q .reset

def State.setThread (t : Tid) (v : Thread) : State := { s with threads := s.threads.set t v }
def State.setSquad (q : Sid) (v : Squad) : State := { s with squads := s.squads.set q v }
def State.setTeam (n : Nat) (v : Team) : State := { s with teams := s.teams.set n v }
def State.setLaunch (l : Nat) (v : Launch) : State := { s with launches := s.launches.set l v }
def State.setCore (c : Nat) (v : Core) : State := { s with cores := s.cores.set c v }
def State.setSite (n : Nat) (v : Site) : State := { s with sites := s.sites.set n v }
def State.setScribe (n : Nat) (v : ScribeCore) : State := { s with scribes := s.scribes.set n v }
def State.setQueue (q : Nat) (v : LaunchQueue) : State := { s with queues := s.queues.set q v }
def State.setCommand (c : Nat) (v : Command) : State := { s with commands := s.commands.set c v }

def State.modThread (t : Tid) (f : Thread → Thread) : State := s.setThread t (f (s.thread t))
def State.modSquad (q : Sid) (f : Squad → Squad) : State := s.setSquad q (f (s.squad q))
/-- A team or launch that is gone is not changed. -/
def State.modTeam (n : Nat) (f : Team → Team) : State :=
  if (AMap.find? n s.teams).isSome then s.setTeam n (f (s.team n)) else s
def State.modLaunch (l : Nat) (f : Launch → Launch) : State :=
  if (AMap.find? l s.launches).isSome then s.setLaunch l (f (s.launch l)) else s
def State.modCore (c : Nat) (f : Core → Core) : State := s.setCore c (f (s.core c))
def State.modSite (n : Nat) (f : Site → Site) : State := s.setSite n (f (s.site n))
def State.modScribe (n : Nat) (f : ScribeCore → ScribeCore) : State :=
  s.setScribe n (f (s.scribeCore n))
def State.modQueue (q : Nat) (f : LaunchQueue → LaunchQueue) : State := s.setQueue q (f (s.queue q))

/-- The state with a step of the module due `after` eighths of a nanosecond from now. -/
def State.due (ev : Ev) (after : Nat) : State :=
  { s with agenda := s.agenda ++ [{ at_ := s.tick + after, ev }] }

/-- One core clock at 1.6 GHz, in eighths of a nanosecond (R3).
DESIGN CHOICE (assumption 12). -/
def coreTicks : Nat := 5

/-- Wafer time in ns (R214, R386).
DESIGN CHOICE (assumption 69). -/
def State.waferNs : Nat := (s.tick + s.timeBase) / 8

/-- A fresh serial number.
DESIGN CHOICE (assumption 98). -/
def State.fresh : Nat × State := (s.serial, { s with serial := s.serial + 1 })

/-- A free value of the manual, and the state with one more drawn. -/
def State.drawFree : Nat × State := (Config.freeBits s.free, { s with free := s.free + 1 })

/-- Whether a record is about a byte of a range of memory. -/
def Unseen.meets (r : Unseen) (pa n : Nat) : Bool :=
  match r.loc with
  | .glob p => decide (p < pa + n ∧ pa < p + r.n)
  | .scr _ _ => false

/-- What a unit of the module has written to a range of memory, every reader sees (R107, R411).
DEDUCED (assumption 13). -/
def State.shows (pa n : Nat) : State :=
  { s with unseen := s.unseen.map fun r => if r.meets pa n then { r with shown := true } else r }

/-! ## Where things are -/

/-- The site of a core (R9). -/
def siteOf (core : Nat) : Nat := core / 96

/-- The block of a core on its site (R9). -/
def blockOf (core : Nat) : Nat := core / 8 % 12

/-- A block of a site (R375). -/
def Site.block (st : Site) (b : Nat) : Block := st.blocks.getD b .reset

/-- Whether a linear logical index names a core (R10-R12, R377). -/
def State.named (core : Nat) : Bool :=
  let b := (s.site (siteOf core)).block (blockOf core)
  decide (core < 5760) && !b.rtdead && decide (b.names.getD (core % 8) 15 < 9)

/-- Whether a core and its partner form a published pair (R11, R34). -/
def State.pairPublished (core : Nat) : Bool :=
  let b := (s.site (siteOf core)).block (blockOf core)
  core % 2 == 0 && decide (core % 8 / 2 < b.npairs) && s.named core && s.named (core + 1)

/-- The launch of a team. -/
def State.teamLaunch (team : Nat) : Launch := s.launch (s.team team).lid

/-- The launch of a thread. -/
def State.launchOf (t : Tid) : Launch := s.teamLaunch t.team

/-- The launch of a thread with the code object that bounds its PCs (R58, R63): its squad's, or in the user
handler the launch's own (R324).
DEDUCED (assumption 58). -/
def State.codeOf (t : Tid) : Launch :=
  let l := s.launchOf t
  if (s.thread t).hnd then l else { l with codeBase := (s.squad t.sid).code }

/-- Which half of a paired team a squad runs on (R34). -/
def State.half (q : Sid) : Nat := if (s.team q.team).paired then q.squad % 2 else 0

/-- The core a squad runs on (R34). -/
def State.coreOf (q : Sid) : Nat := (s.team q.team).core + s.half q

/-- The issue position of a thread (R36). -/
def State.position (t : Tid) : Nat := (s.squad t.sid).base + t.lane

/-- The squads of a core, in pick order (R39). -/
def State.squadsOn (c : Nat) : List Sid := (s.core c).order

/-- The threads of a squad, by lane. -/
def State.threadsOf (q : Sid) : List Tid :=
  (List.range (s.teamLaunch q.team).width).map fun l => ⟨q.team, q.squad, l⟩

/-- The live threads of a squad: those that have not exited (R41). -/
def State.liveOf (q : Sid) : List Tid :=
  (s.threadsOf q).filter fun t => (s.thread t).status != .exited

/-- The resident squads of a team. -/
def State.squadsOfTeam (n : Nat) : List Sid := s.squads.keys.filter fun q => q.team == n

/-- The resident squads of a launch. -/
def State.squadsOfLaunch (l : Nat) : List Sid :=
  s.squads.keys.filter fun q => (s.team q.team).lid == l

/-- The teams of a launch. -/
def State.teamsOfLaunch (l : Nat) : List Nat :=
  (s.teams.filter fun p => p.2.lid == l).map Prod.fst

/-! ## Registers and predicates -/

/-- Register i of a thread (R169): x0 reads as zero; a register never written reads as a free value
(R32).
DESIGN CHOICE (assumption 4). -/
def Thread.x (th : Thread) (i : Nat) : Word :=
  if i = 0 then 0
  else
    match AMap.find? i th.regs with
    | some v => v
    | none => .ofNat 32 (Config.freeBits (th.seed + i))

/-- A write of register i (R169): a write to x0 is discarded. -/
def Thread.setX (th : Thread) (i : Nat) (v : Word) : Thread :=
  if i = 0 then th else { th with regs := th.regs.set i v }

/-- Predicate i (R171): p0 reads as 1. -/
def Thread.p (th : Thread) (i : Nat) : Bool := i == 0 || th.preds.getLsbD i

/-- A write of predicate i (R171): a write to p0 is discarded. -/
def Thread.setP (th : Thread) (i : Nat) (v : Bool) : Thread :=
  if i = 0 then th
  else
    { th with
      preds := if v then th.preds ||| (1#8 <<< i) else th.preds &&& ~~~(1#8 <<< i) }

/-- The value of `n` registers from i, the lowest register in the lowest bits (R169). -/
def Thread.xs (th : Thread) (i : Nat) : Nat → Nat
  | 0 => 0
  | n + 1 => (th.x i).toNat + 2 ^ 32 * th.xs (i + 1) n

/-- The value `v` as the words of `n` registers from i. -/
def regWrites (i : Nat) : Nat → Nat → List (Nat × Word)
  | 0, _ => []
  | n + 1, v => (i, .ofNat 32 v) :: regWrites (i + 1) n (v / 2 ^ 32)

/-- A list of register writes, in order. -/
def Thread.setRegs (th : Thread) : List (Nat × Word) → Thread
  | [] => th
  | (i, v) :: ws => (th.setX i v).setRegs ws

/-- A list of predicate writes, in order. -/
def Thread.setPreds (th : Thread) : List (Nat × Bool) → Thread
  | [] => th
  | (i, v) :: ws => (th.setP i v).setPreds ws

/-- A write of `n` registers from i. -/
def Thread.setXs (th : Thread) (i n v : Nat) : Thread := th.setRegs (regWrites i n v)

/-- Flags ORed into FFLAGS (R144). -/
def Thread.raise (th : Thread) (f : Nat) : Thread :=
  { th with fflags := th.fflags ||| BitVec.ofNat 6 f }

/-- The k register of a launch (R170), with the identity of the module for k114. -/
def Launch.k (l : Launch) (lid modId i : Nat) : DWord :=
  match i with
  | 112 => .ofNat 64 lid
  | 113 => .ofNat 64 l.teams
  | 114 => .ofNat 64 modId
  | 115 => .ofNat 64 l.width
  | 116 => .ofNat 64 l.regs
  | 117 => .ofNat 64 l.depth
  | 118 => l.codeBase
  | 119 => .ofNat 64 l.codeLen
  | 120 => l.wptr
  | 121 => .ofNat 64 l.wcnt
  | 122 => .ofNat 64 l.shot
  | 123 => .ofNat 64 (bit01 l.idem + 2 * bit01 l.memb + 4 * bit01 l.noprom + 8 * bit01 l.pair)
  | 124 => .ofNat 64 l.part.toNat
  | 125 => .ofNat 64 l.prio
  | 126 => .ofNat 64 (if l.rmask = 0 then 2 ^ 60 - 1 else l.rmask)
  | 127 => .ofNat 64 l.queue
  | i => l.consts.getD i 0

/-- The squads resident on a core. -/
def State.residentOn (s : State) (c : Nat) : List Sid := s.squads.keys.filter fun q => s.coreOf q == c

end Sys2Proof.Machine
end

