-- ==== Sys2Proof/Machine/Translate.lean ====
section
/-! DEFINITION. Translation (R340-R345): the walk of the page tables with its A and D updates, and the
TLBs, whose entries keep the rights and D they were filled with until they are dropped. -/

namespace Sys2Proof.Machine

/-- The kinds of access the walker tells apart (R342); an atomic needs reads and writes permitted. -/
inductive AccessKind where
  | read | write | atomic | fetch
deriving DecidableEq, Repr

def AccessKind.writes : AccessKind → Bool
  | .write | .atomic => true
  | _ => false

def Launch.space (l : Launch) : Space := ⟨l.asn, l.tableRoot, l.sysSpace⟩

/-- The first offset of the device register space within a reticle (R21). -/
def registerSpace : Nat := 0x1800000000

/-- The site of a physical address (R21). -/
def siteOfPa (pa : Nat) : Nat := pa / 2 ^ 42

/-- The offset within its reticle of a physical address (R21). -/
def offsetOfPa (pa : Nat) : Nat := pa % 2 ^ 42

/-- Whether a physical address lies in the device register space (R21). -/
def isRegisterPa (pa : Nat) : Bool := decide (registerSpace ≤ offsetOfPa pa)

/-- The site's DRAM holds 96 GiB (R20). -/
def isDramPa (pa : Nat) : Bool := decide (siteOfPa pa < 60) && !isRegisterPa pa

/-- Why a translation fails: the cause, PROTECTION or NONRESIDENT, or that a flip or a flush holds the walk. -/
abbrev TransFault := Nat
def heldCause : TransFault := 0

/-- Whether accesses to a physical address are held: during an L2 flush of its site (R98, R383) or a
bias flip of its page (R352, R353). Register space has no cached line (R21).
DESIGN CHOICE (assumption 79). DEDUCED (assumption 95). -/
def State.accessHeld (s : State) (pa : Nat) : Bool :=
  let st := s.site (siteOfPa pa)
  !isRegisterPa pa &&
    (st.l2cfg.getLsbD 31 || st.l2live.getLsbD 31 ||
      (st.biascmd.getLsbD 63 && bitsOf st.biascmd.toNat 41 16 == offsetOfPa pa / 2 ^ 16))

/-- Whether a bias flip is under way on the module. -/
def State.flipping (s : State) : Bool := s.sites.any fun p => p.2.biascmd.getLsbD 63

/-- A page-table entry's fields (R341). -/
def pteAddr (e : Nat) : Nat := bitsOf e 47 16 * 2 ^ 16
def pteNext (e : Nat) : Nat := pteAddr e + bit01 (bitOf e 15) * 2 ^ 15

/-- R341: a reserved bit, bits 7:3 of a non-leaf entry, or address bits a leaf must keep zero. -/
def pteReserved (e lvl : Nat) : Bool :=
  bitsOf e 14 8 != 0 ||
    (if bitOf e 2 then bitOf e 15 || (lvl == 1 && bitsOf e 27 16 != 0) else bitsOf e 7 3 != 0)

/-- Whether the rights of a leaf permit the access (R342). -/
def pteRights (e : Nat) : AccessKind → Bool
  | .read => bitOf e 3
  | .write => bitOf e 4
  | .atomic => bitOf e 3 && bitOf e 4
  | .fetch => bitOf e 5

/-- The index bits of a virtual address at a level (R341). -/
def levelIndex (va lvl : Nat) : Nat := va / 2 ^ (40 - 12 * lvl) % 4096

/-- The walk down to a leaf (R342): the leaf's physical address, its level and its value.
DESIGN CHOICE (assumption 7). -/
def walkDown (m : Memory) (va : Nat) : (fuel t lvl : Nat) → Except TransFault (Nat × Nat × Nat)
  | 0, _, _ => .error Cause.protection
  | fuel + 1, t, lvl =>
    let a := t + 8 * levelIndex va lvl
    let e := m.readNat a 8
    if !bitOf e 0 || pteReserved e lvl || decide (60 ≤ siteOfPa t) ||
        decide (60 ≤ siteOfPa (pteAddr e)) || (lvl == 0 && bitOf e 2) ||
        (lvl == 2 && !bitOf e 2) then .error Cause.protection
    else if !bitOf e 1 then .error Cause.nonresident
    else if bitOf e 2 then .ok (a, lvl, e)
    else walkDown m va fuel (pteNext e) (lvl + 1)

/-- The addresses of the entries that a walk reads (R342). -/
def walkPlaces (m : Memory) (va : Nat) : (fuel t lvl : Nat) → List Nat
  | 0, _, _ => []
  | fuel + 1, t, lvl =>
    let a := t + 8 * levelIndex va lvl
    let e := m.readNat a 8
    a :: (if bitOf e 0 && bitOf e 1 && !bitOf e 2 then walkPlaces m va fuel (pteNext e) (lvl + 1) else [])

/-- Whether a flip or a flush holds a read of a walk (R98, R352). -/
def State.walkHeld (s : State) (sp : Space) (va : Nat) : Bool :=
  (walkPlaces s.mem va 3 sp.root 0).any s.accessHeld

/-- A completed walk: the TLB entry, and the memory with A, and D for a write, set (R342).
DESIGN CHOICE (assumption 7). -/
def walk (m : Memory) (sp : Space) (va : Nat) (kind : AccessKind) :
    Except TransFault (TlbEntry × Memory) :=
  match walkDown m va 3 sp.root 0 with
  | .error c => .error c
  | .ok (a, lvl, e) =>
    if isRegisterPa (pteAddr e) && !sp.system then .error Cause.protection
    else if !pteRights e kind then .error Cause.protection
    else
      let n := setBits (if kind.writes then setBits e 7 7 1 else e) 6 6 1
      let large := lvl == 1
      .ok (⟨sp.asn, if large then va / 2 ^ 28 else va / 2 ^ 16, large, pteAddr e,
        bitOf e 3, bitOf e 4, bitOf e 5, bitOf n 7⟩,
        if n = e then m else m.writeNat a 8 n)

/-- Whether a TLB entry maps an address. -/
def TlbEntry.hits (t : TlbEntry) (asn va : Nat) : Bool :=
  t.asn == asn && t.page == (if t.large then va / 2 ^ 28 else va / 2 ^ 16)

/-- The physical address an entry gives. -/
def TlbEntry.pa_ (t : TlbEntry) (va : Nat) : Nat :=
  t.pa + (if t.large then va % 2 ^ 28 else va % 2 ^ 16)

/-- Whether an entry's rights permit the access. -/
def TlbEntry.permits (t : TlbEntry) : AccessKind → Bool
  | .read => t.rd
  | .write => t.wr
  | .atomic => t.rd && t.wr
  | .fetch => t.x

/-- A TLB with an entry filled: one mapping of its page, the newest first, at most `small` entries for
64 KiB pages and `large` for 256 MiB pages, the oldest dropped.
DESIGN CHOICE (assumption 23). -/
def tlbFill (small large : Nat) (tlb : List TlbEntry) (e : TlbEntry) : List TlbEntry :=
  let rest := tlb.filter fun t => !(t.asn == e.asn && t.page == e.page && t.large == e.large)
  (e :: rest.filter fun t => t.large == e.large).take (if e.large then large else small) ++
    rest.filter fun t => t.large != e.large

/-- A translation through a TLB (R342, R343): the physical address, the TLB and the memory after it.
An entry whose D is 0 is walked again before a write.
DESIGN CHOICE (assumption 23). -/
def translateWith (small large : Nat) (tlb : List TlbEntry) (m : Memory) (sp : Space) (va : Nat)
    (kind : AccessKind) : Except TransFault (Nat × List TlbEntry × Memory) :=
  match tlb.find? (·.hits sp.asn va) with
  | some t =>
    if !t.permits kind then .error Cause.protection
    else if kind.writes && !t.dirty then
      (match walk m sp va kind with
        | .error c => .error c
        | .ok (e, m') => .ok (e.pa_ va, tlbFill small large tlb e, m'))
    else .ok (t.pa_ va, tlb, m)
  | none =>
    match walk m sp va kind with
    | .error c => .error c
    | .ok (e, m') => .ok (e.pa_ va, tlbFill small large tlb e, m')

/-- Whether an access walks the table. -/
def needsWalk (tlb : List TlbEntry) (sp : Space) (va : Nat) (kind : AccessKind) : Bool :=
  match tlb.find? (·.hits sp.asn va) with
  | some t => t.permits kind && kind.writes && !t.dirty
  | none => true

/-- A thread whose .ne WAITW waits on bytes that differ between two memories, and now differs from what it
waits on (R227). -/
def Thread.sees (th : Thread) (old new : Memory) : Bool :=
  match th.status with
  | .parked (.word w) =>
    (match w.loc with
      | .glob pa =>
        !w.ge && new.readNat pa w.ty.size != old.readNat pa w.ty.size &&
          new.readNat pa w.ty.size != w.expect
      | .scr _ _ => false)
  | _ => false

/-- The entry that a walk has updated, if it has: every reader sees it (R107, R342). -/
def State.showEntry (s : State) (sp : Space) (va : Nat) (m : Memory) : State :=
  match walkDown s.mem va 3 sp.root 0 with
  | .ok (a, _, e) => if m.readNat a 8 = e then s else s.shows a 8
  | .error _ => s

/-- The memory after a walk. Its updates of A and D are writes like any other: the threads that wait on such
a word wake (R227, R342). -/
def State.walked (s : State) (sp : Space) (va : Nat) (m : Memory) : State :=
  s.threads.foldl (fun s' p => if p.2.sees s.mem m then s'.due (.waitwWake p.1) 0 else s')
    { s.showEntry sp va m with mem := m }

/-- A translation in a core's TLB: 1,024 and 64 entries (R83). -/
def State.translate (s : State) (core : Nat) (sp : Space) (va : Nat) (kind : AccessKind) :
    Except TransFault (Nat × State) :=
  if needsWalk (s.core core).tlb sp va kind && s.walkHeld sp va then .error heldCause
  else
    match translateWith 1024 64 (s.core core).tlb s.mem sp va kind with
    | .error c => .error c
    | .ok (pa, tlb, m) => .ok (pa, (s.modCore core fun c => { c with tlb }).walked sp va m)

/-- A walk whatever holds its table: what a check of an address rests on. -/
def State.translateCheck (s : State) (sp : Space) (va : Nat) (kind : AccessKind) :
    Except TransFault (Nat × State) :=
  match walk s.mem sp va kind with
  | .error c => .error c
  | .ok (e, m) => .ok (e.pa_ va, s.walked sp va m)

/-- A translation without a TLB, for the scheduler, the target of a packet and the machine's own
agents (R61, R347): the walk alone. -/
def State.translateWalk (s : State) (sp : Space) (va : Nat) (kind : AccessKind) :
    Except TransFault (Nat × State) :=
  if s.walkHeld sp va then .error heldCause else s.translateCheck sp va kind

/-- An access of theirs: it is held with its page, too (R98, R352). -/
def State.translateAccess (s : State) (sp : Space) (va : Nat) (kind : AccessKind) :
    Except TransFault (Nat × State) :=
  match s.translateWalk sp va kind with
  | .error c => .error c
  | .ok (pa, s1) => if s.accessHeld pa then .error heldCause else .ok (pa, s1)

/-- Whether TLBINV drops an entry (R345): `.page` by its address, `.all` by its ASN, every entry where
the ASN is 4,095. -/
def TlbEntry.dropped (t : TlbEntry) (all : Bool) (asn va : Nat) : Bool :=
  if all then asn == 4095 || t.asn == asn else t.hits asn va

end Sys2Proof.Machine
end

