-- ==== Sys2Proof/Machine/Cache.lean ====
section
/-! DEFINITION. The caches as directories (R17, R19, R95-R99): which lines the L1 of a core and the L2
of a site hold, their retention classes and their order of use, their write times and leases. Path t is one
order over all threads (R107), so a cached copy never differs from memory and the directories hold no data. -/

namespace Sys2Proof.Machine

/-- The hints of R96. -/
inductive Hint where
  | normal | first | last | noAllocate
deriving DecidableEq, Repr

def Hint.ofCode (n : Nat) : Hint :=
  if n = 1 then .first else if n = 2 then .last else if n = 3 then .noAllocate else .normal

/-- The class after an access to a present line (R97). -/
def Hint.onLine : Hint → LineClass → LineClass
  | .normal, .last => .last
  | .normal, _ => .normal
  | .first, .last => .last
  | .first, _ => .first
  | .last, _ => .last
  | .noAllocate, c => c

/-- The class an absent line is allocated with, if it is (R97). -/
def Hint.onAbsent : Hint → Option LineClass
  | .normal => some .normal
  | .first => some .first
  | .last => some .last
  | .noAllocate => none

/-- A set without its first line of a class; the set itself where it has none. -/
def dropFirst (c : LineClass) : List CacheLine → List CacheLine
  | [] => []
  | l :: ls => if l.cls = c then ls else l :: dropFirst c ls

/-- The victim of R97 dropped: the least recently used evict-first line, else normal, else
evict-last. -/
def dropVictim (set : List CacheLine) : List CacheLine :=
  if set.any (·.cls == .first) then dropFirst .first set
  else if set.any (·.cls == .normal) then dropFirst .normal set
  else dropFirst .last set

/-- The least recently used evict-last line turned to normal. -/
def demoteFirst : List CacheLine → List CacheLine
  | [] => []
  | l :: ls => if l.cls = .last then { l with cls := .normal } :: ls else l :: demoteFirst ls

/-- R97: at most `limit` evict-last lines stay in a set. -/
def capLast (limit : Nat) (set : List CacheLine) : List CacheLine :=
  if limit < (set.filter (·.cls == .last)).length then demoteFirst set else set

/-- The write time and the lease end of a line (R17). -/
structure Times where
  wtime : Nat
  lease : Nat
deriving DecidableEq, Repr

/-- A set after an access to a line under a hint (R97): the line becomes the most recently used. A victim is
chosen before the evict-last lines are counted.
DESIGN CHOICE (assumption 107). -/
def touchSet (ways limit : Nat) (set : List CacheLine) (line : Nat) (h : Hint) (dirty : Bool) (t : Times) :
    List CacheLine :=
  match set.find? (·.line == line) with
  | some l =>
    capLast limit ((set.filter (·.line != line)) ++
      [⟨line, h.onLine l.cls, l.dirty || dirty, t.wtime, t.lease⟩])
  | none =>
    match h.onAbsent with
    | none => set
    | some c =>
      capLast limit ((if set.length < ways then set else dropVictim set) ++
        [⟨line, c, dirty, t.wtime, t.lease⟩])

/-- The latest lease end of some lines. -/
def latestLease (ls : List CacheLine) : Nat := ls.foldl (fun n l => max n l.lease) 0

/-- The L2 of a site with its sets as a function leaves them: the leases of the lines that go are kept in one
number, the time of a line fetched from DRAM.
DESIGN CHOICE (assumption 108). -/
def Site.mapL2 (st : Site) (f : Nat → List CacheLine → List CacheLine) : Site :=
  let gone := st.l2.flatMap fun p => p.2.filter fun l => !(f p.1 p.2).any (·.line == l.line)
  { st with l2 := st.l2.map fun p => (p.1, f p.1 p.2), l2Time := max st.l2Time (latestLease gone) }

/-- The slices in service of each partition of a site's L2 (R98, R99, R383). -/
def Site.partitions (st : Site) : List (List Nat) :=
  let live := fun (l : List Nat) => l.filter fun i => st.l2live.getLsbD i
  match st.l2cfg.toNat % 4 with
  | 1 => [live [0, 1, 2], live [3, 4, 5]]
  | 2 => [live [0, 1], live [2, 3], live [4, 5]]
  | _ => [live [0, 1, 2, 3, 4, 5]]

/-- The partition of an offset (R99). -/
def Site.partitionOf (st : Site) (off : Nat) : Nat :=
  let b1 := bitsOf st.l2cfg.toNat 16 8 * 2 ^ 28
  let b2 := bitsOf st.l2cfg.toNat 25 17 * 2 ^ 28
  match st.l2cfg.toNat % 4 with
  | 1 => if off < b1 then 0 else 1
  | 2 => if off < b1 then 0 else if off < b2 then 1 else 2
  | _ => 0

/-- The home slice of a line (R99, R383). -/
def State.sliceOf (s : State) (pa : Nat) : Nat :=
  let st := s.site (siteOfPa pa)
  let ls := st.partitions.getD (st.partitionOf (offsetOfPa pa)) []
  ls.getD (pa / 128 % ls.length) 0

/-- The set of the home slice that holds a line: the slice and the set within it. -/
def State.l2Index (s : State) (pa : Nat) : Nat :=
  s.sliceOf pa + 6 * Config.l2Set (pa / 128)

/-- The times a line has at its home L2; a line it does not hold has those of a fetch from DRAM. -/
def State.l2Times (s : State) (pa : Nat) : Times :=
  let st := s.site (siteOfPa pa)
  match (st.l2.getD (s.l2Index pa) []).find? (·.line == pa / 128) with
  | some l => ⟨l.wtime, l.lease⟩
  | none => ⟨st.l2Time, st.l2Time⟩

/-- An access at the home L2 under a hint that leaves the line with some times. -/
def State.touchL2At (s : State) (pa : Nat) (h : Hint) (dirty : Bool) (t : Times) : State :=
  if isRegisterPa pa then s
  else
    let i := s.l2Index pa
    s.modSite (siteOfPa pa) fun st =>
      let old := st.l2.getD i []
      let new := touchSet 16 12 old (pa / 128) h dirty t
      let gone := old.filter fun l => !new.any (·.line == l.line)
      let kept := if new.any (·.line == pa / 128) then 0 else t.lease
      { st with l2 := st.l2.set i new, l2Time := max st.l2Time (max kept (latestLease gone)) }

/-- An access at the home L2 under a hint, by no thread. Register space is never cached (R21). -/
def State.touchL2 (s : State) (pa : Nat) (h : Hint) (dirty : Bool) : State :=
  s.touchL2At pa h dirty (s.l2Times pa)

/-- A thread's logical time at least a time (R107). -/
def State.advanceTime (s : State) (t : Tid) (n : Nat) : State :=
  s.modThread t fun th => { th with time := max th.time n }

/-- The times a thread's read at the home L2 leaves the line with: its lease is extended past the thread. -/
def State.readTimes (s : State) (t : Tid) (pa : Nat) : Times :=
  let old := s.l2Times pa
  let now := max (s.thread t).time old.wtime
  ⟨old.wtime, max old.lease (now + Config.leaseTicks (pa / 128) now)⟩

/-- The times a thread's write leaves the line with: behind every lease of the line.
DESIGN CHOICE (assumption 108). -/
def State.writeTimes (s : State) (t : Tid) (pa : Nat) : Times :=
  let now := max (s.thread t).time ((s.l2Times pa).lease + 1)
  ⟨now, now⟩

/-- A load through the issuing core's L1 (R95): it allocates there and at the home L2. A copy whose lease is
live for the thread serves it. -/
def State.cacheLoad (s : State) (core : Nat) (t : Tid) (pa : Nat) (h : Hint) : State :=
  if isRegisterPa pa then s
  else
    let i := Config.l1Set (pa / 128)
    let hit := (((s.core core).l1.getD i []).find? (·.line == pa / 128)).filter fun l =>
      (s.thread t).time ≤ l.lease
    let home := match hit with | some _ => s.l2Times pa | none => s.readTimes t pa
    let copy := match hit with | some l => Times.mk l.wtime l.lease | none => home
    ((s.modCore core fun c =>
      { c with l1 := c.l1.set i (touchSet 8 6 (c.l1.getD i []) (pa / 128) h false copy) }).touchL2At pa h
        false home).advanceTime t copy.wtime

/-- A store (R95): it writes through to the home L2 and keeps a copy the L1 has. -/
def State.cacheStore (s : State) (core : Nat) (t : Tid) (pa : Nat) (h : Hint) : State :=
  if isRegisterPa pa then s
  else
    let i := Config.l1Set (pa / 128)
    let now := s.writeTimes t pa
    ((s.modCore core fun c =>
      if (c.l1.getD i []).any (·.line == pa / 128) then
        { c with l1 := c.l1.set i (touchSet 8 6 (c.l1.getD i []) (pa / 128) h false now) }
      else c).touchL2At pa h true now).advanceTime t now.wtime

/-- A line dropped from a core's L1. -/
def State.dropL1 (s : State) (core line : Nat) : State :=
  let i := Config.l1Set line
  s.modCore core fun c => { c with l1 := c.l1.set i ((c.l1.getD i []).filter (·.line != line)) }

/-- An atomic (R95, R225): made at the home L2; the issuing core's copy is invalidated. -/
def State.cacheAtomic (s : State) (core : Nat) (t : Tid) (pa : Nat) (h : Hint) : State :=
  if isRegisterPa pa then s
  else
    let now := s.writeTimes t pa
    ((s.dropL1 core (pa / 128)).touchL2At pa h true now).advanceTime t now.wtime

/-- An atomic that writes nothing (R224): a read at the home L2. -/
def State.cachePeek (s : State) (t : Tid) (pa : Nat) (h : Hint) : State :=
  if isRegisterPa pa then s
  else
    let r := s.readTimes t pa
    (s.touchL2At pa h false r).advanceTime t r.wtime

/-- CLHINT's effect on a present line of one directory (R230): classes normal, evict-first,
evict-last, or eviction. -/
def clhintSet (limit : Nat) (set : List CacheLine) (line sub : Nat) : List CacheLine :=
  if sub = 3 then set.filter (·.line != line)
  else
    capLast limit (set.map fun l =>
      if l.line = line then
        { l with cls := if sub = 0 then .normal else if sub = 1 then .first else .last }
      else l)

/-- CLHINT on the line of a physical address, in the issuing core's L1 and at the home L2 (R230). -/
def State.clhint (s : State) (core pa sub : Nat) : State :=
  if isRegisterPa pa then s
  else
    let i := Config.l1Set (pa / 128)
    let s := s.modCore core fun c =>
      { c with l1 := c.l1.set i (clhintSet 6 (c.l1.getD i []) (pa / 128) sub) }
    let j := s.l2Index pa
    s.modSite (siteOfPa pa) fun st =>
      st.mapL2 fun k set => if k = j then clhintSet 12 set (pa / 128) sub else set

end Sys2Proof.Machine
end

