-- ==== Sys2Proof/Machine/Hash.lean ====
section
/-! DEFINITION. SHA3-256 (R152) and SHA-384 (R357, R359) over lists of bytes. The manual names the
functions; their constants are those of FIPS 202 and FIPS 180-4. -/

namespace Sys2Proof.Machine

/-! ## SHA3-256 -/

/-- A lane of the Keccak state by its number x + 5 y. -/
def lane (a : List DWord) (i : Nat) : DWord := a.getD (i % 25) 0

/-- A rotation of a lane to the left. -/
def rot64 (v : DWord) (n : Nat) : DWord := v.rotateLeft (n % 64)

/-- The theta step. -/
def keccakTheta (a : List DWord) : List DWord :=
  let c := (List.range 5).map fun x =>
    lane a x ^^^ lane a (x + 5) ^^^ lane a (x + 10) ^^^ lane a (x + 15) ^^^ lane a (x + 20)
  let d := (List.range 5).map fun x => c.getD ((x + 4) % 5) 0 ^^^ rot64 (c.getD ((x + 1) % 5) 0) 1
  (List.range 25).map fun i => lane a i ^^^ d.getD (i % 5) 0

/-- The rotation offsets of the rho step by lane number.
PRESUMED (assumption 19). -/
def rhoOffsets : List Nat :=
  [0, 1, 62, 28, 27, 36, 44, 6, 55, 20, 3, 10, 43, 25, 39, 41, 45, 15, 21, 8, 18, 2, 61, 56, 14]

/-- The rho and pi steps: lane (x, y) comes from lane (x + 3 y, x). -/
def keccakRhoPi (a : List DWord) : List DWord :=
  (List.range 25).map fun i =>
    let x := i % 5
    let y := i / 5
    let from_ := (x + 3 * y) % 5 + 5 * x
    rot64 (lane a from_) (rhoOffsets.getD from_ 0)

/-- The chi step. -/
def keccakChi (a : List DWord) : List DWord :=
  (List.range 25).map fun i =>
    let y := 5 * (i / 5)
    lane a i ^^^ (~~~lane a (y + (i + 1) % 5) &&& lane a (y + (i + 2) % 5))

/-- The round constants of the iota step.
PRESUMED (assumption 19). -/
def keccakRc : List DWord :=
  [0x0000000000000001, 0x0000000000008082, 0x800000000000808A, 0x8000000080008000,
   0x000000000000808B, 0x0000000080000001, 0x8000000080008081, 0x8000000000008009,
   0x000000000000008A, 0x0000000000000088, 0x0000000080008009, 0x000000008000000A] ++
  [0x000000008000808B, 0x800000000000008B, 0x8000000000008089, 0x8000000000008003,
   0x8000000000008002, 0x8000000000000080, 0x000000000000800A, 0x800000008000000A,
   0x8000000080008081, 0x8000000000008080, 0x0000000080000001, 0x8000000080008008]

/-- One round. -/
def keccakRound (a : List DWord) (rc : DWord) : List DWord :=
  match keccakChi (keccakRhoPi (keccakTheta a)) with
  | [] => []
  | l :: ls => (l ^^^ rc) :: ls

/-- The permutation. -/
def keccakF (a : List DWord) : List DWord := keccakRc.foldl keccakRound a

/-- The bytes of a block in a sponge of SHA3-256. -/
def sha3Rate : Nat := 136

/-- A block absorbed. -/
def absorb (a : List DWord) (block : List Byte) : List DWord :=
  let words := (List.range 25).map fun i => BitVec.ofNat 64 (natOfBytes ((block.drop (8 * i)).take 8))
  keccakF (List.zipWith (· ^^^ ·) a words)

/-- The message's blocks absorbed, `n` of them. -/
def absorbAll : (n : Nat) → List DWord → List Byte → List DWord
  | 0, a, _ => a
  | n + 1, a, m => absorbAll n (absorb a (m.take sha3Rate)) (m.drop sha3Rate)

/-- The message with its padding. -/
def sha3Pad (m : List Byte) : List Byte :=
  let room := sha3Rate - m.length % sha3Rate
  if room = 1 then m ++ [0x86]
  else m ++ [0x06] ++ List.replicate (room - 2) 0 ++ [0x80]

/-- SHA3-256.
PRESUMED (assumption 19). -/
def sha3 (m : List Byte) : List Byte :=
  let p := sha3Pad m
  let a := absorbAll (p.length / sha3Rate) (List.replicate 25 0) p
  (a.take 4).flatMap fun l => bytesOfNat 8 l.toNat

/-! ## SHA-384 -/

/-- The first 64 bits of the fraction of the cube root of a prime, and of the square root: the largest
r with r ^ k ≤ p x 2 ^ (64 k), modulo 2 ^ 64, found bit by bit. -/
def rootBits (k p : Nat) : (fuel root : Nat) → Nat
  | 0, r => r
  | fuel + 1, r =>
    let t := r + 2 ^ fuel
    rootBits k p fuel (if t ^ k ≤ p * 2 ^ (64 * k) then t else r)

/-- The first 80 primes. -/
def sha2Primes : List Nat :=
  [2, 3, 5, 7, 11, 13, 17, 19, 23, 29, 31, 37, 41, 43, 47, 53, 59, 61, 67, 71] ++
  [73, 79, 83, 89, 97, 101, 103, 107, 109, 113, 127, 131, 137, 139, 149, 151, 157, 163, 167, 173] ++
  [179, 181, 191, 193, 197, 199, 211, 223, 227, 229, 233, 239, 241, 251, 257, 263, 269, 271, 277, 281] ++
  [283, 293, 307, 311, 313, 317, 331, 337, 347, 349, 353, 359, 367, 373, 379, 383, 389, 397, 401, 409]

/-- The round constants: cube roots of the primes.
PRESUMED (assumption 19). -/
def sha2K : List DWord := sha2Primes.map fun p => .ofNat 64 (rootBits 3 p 68 0)

/-- The initial value: square roots of the ninth to sixteenth primes.
PRESUMED (assumption 19). -/
def sha384Init : List DWord :=
  ((sha2Primes.drop 8).take 8).map fun p => .ofNat 64 (rootBits 2 p 70 0)

def rotR (v : DWord) (n : Nat) : DWord := v.rotateRight n

/-- The message schedule, the newest word first, `n` words still to add. -/
def sha2Schedule : (n : Nat) → List DWord → List DWord
  | 0, w => w
  | n + 1, w =>
    let w2 := w.getD 1 0
    let w15 := w.getD 14 0
    let s1 := rotR w2 19 ^^^ rotR w2 61 ^^^ (w2 >>> 6)
    let s0 := rotR w15 1 ^^^ rotR w15 8 ^^^ (w15 >>> 7)
    sha2Schedule n ((s1 + w.getD 6 0 + s0 + w.getD 15 0) :: w)

/-- One round on the eight working words. -/
def sha2Round (v : List DWord) (kw : DWord × DWord) : List DWord :=
  let g := fun i => v.getD i 0
  let e := g 4
  let a := g 0
  let t1 := g 7 + (rotR e 14 ^^^ rotR e 18 ^^^ rotR e 41) + ((e &&& g 5) ^^^ (~~~e &&& g 6)) + kw.1 + kw.2
  let t2 := (rotR a 28 ^^^ rotR a 34 ^^^ rotR a 39) + ((a &&& g 1) ^^^ (a &&& g 2) ^^^ (g 1 &&& g 2))
  [t1 + t2, a, g 1, g 2, g 3 + t1, e, g 5, g 6]

/-- A number from bytes, the highest first. -/
def natOfBytesBe (bs : List Byte) : Nat := bs.foldl (fun n b => n * 256 + b.toNat) 0

/-- The low `n` bytes of a number, the highest first. -/
def bytesBe (n v : Nat) : List Byte := (bytesOfNat n v).reverse

/-- One block of 128 bytes. -/
def sha2Block (h : List DWord) (block : List Byte) : List DWord :=
  let w := (List.range 16).map fun i => BitVec.ofNat 64 (natOfBytesBe ((block.drop (8 * i)).take 8))
  let ws := (sha2Schedule 64 w.reverse).reverse
  let v := (List.zip sha2K ws).foldl sha2Round h
  List.zipWith (· + ·) h v

/-- The message's blocks, `n` of them. -/
def sha2Blocks : (n : Nat) → List DWord → List Byte → List DWord
  | 0, h, _ => h
  | n + 1, h, m => sha2Blocks n (sha2Block h (m.take 128)) (m.drop 128)

/-- The message with its padding and length. -/
def sha2Pad (m : List Byte) : List Byte :=
  m ++ [0x80] ++ List.replicate ((239 - m.length % 128) % 128) 0 ++ bytesBe 16 (8 * m.length)

/-- SHA-384.
PRESUMED (assumption 19). -/
def sha384 (m : List Byte) : List Byte :=
  let p := sha2Pad m
  ((sha2Blocks (p.length / 128) sha384Init p).take 6).flatMap fun w => bytesBe 8 w.toNat

end Sys2Proof.Machine
end

