-- ==== Sys2Proof/Machine/Seals.lean ====
section
/-! DEFINITION. The sealed region as a store (R152-R168): lines listed by seal, the home table and the
pools, making, counting and freeing lines, the walkers, and the reading of a tree's leaves. -/

namespace Sys2Proof.Machine

/-! ## Seals and their homes -/

/-- The HASH of a class and a content in its place in a seal (R152): digest byte 0 in bits 127:120, byte
14 in bits 15:8. -/
def sealHash (cls content : Nat) : Nat :=
  ((sha3 (BitVec.ofNat 8 cls :: bytesOfNat 256 content)).take 15).foldl
    (fun n b => n * 256 + b.toNat) 0 * 256

/-- HASH and CIX of a seal (R152). -/
def sealHashOf (v : Nat) : Nat := v / 256 * 256
def sealIndexOf (v : Nat) : Nat := v % 256

/-- The home table entry of a seal: HASH bits 127:122 (R155). -/
def State.sealHomeEntry (s : State) (v : Nat) : DWord := AMap.getD s.sealHome (v / 2 ^ 122 % 64) 0

/-- The site a seal is homed on (R155). -/
def State.sealSite (s : State) (v : Nat) : Nat := (s.sealHomeEntry v).toNat % 64

/-- The home entry is valid and the home pool in service (R158). -/
def State.sealHomed (s : State) (v : Nat) : Bool :=
  (s.sealHomeEntry v).getLsbD 31 && (s.site (s.sealSite v)).sealpcfg.getLsbD 63

/-- The live line a seal names, if any (R154, R158). A line stays where it is when its home entry or its home pool is
taken out of service: it is live again once they are in service, at the site that the entry names then.
DESIGN CHOICE (assumption 114). -/
def State.sealLine (s : State) (v : Nat) : Option SealLine :=
  if v ≠ 0 ∧ s.sealHomed v then AMap.find? v s.seals else none

/-- Live (R158, R163). -/
def State.sealLive (s : State) (v : Nat) : Bool := (s.sealLine v).isSome

/-- SEALPFREE of a site (R156): its capacity less its lines and those that wait for the walker.
DESIGN CHOICE (assumption 16). DESIGN CHOICE (assumption 114). -/
def State.sealFree (s : State) (site : Nat) : Nat :=
  (s.site site).sealpcfg.toNat % 2 ^ 32 -
    ((s.seals.filter fun p => s.sealSite p.1 == site).length + (s.site site).walker.length)

/-- The nonzero children of an interior line, in child order (R153). -/
def sealChildren (content : Nat) : List Nat :=
  ((List.range 16).map fun i => content / 2 ^ (128 * i) % 2 ^ 128).filter (· != 0)

/-! ## Counts -/

/-- The largest reference count. -/
def sealMax : Nat := 0xFFFFFFFF

/-- A line's reference count. -/
def State.sealCount (s : State) (v : Nat) : Nat :=
  match AMap.find? v s.seals with
  | some l => l.count
  | none => 0

/-- A line's count set. -/
def State.setSealCount (s : State) (v n : Nat) : State :=
  match AMap.find? v s.seals with
  | some l => { s with seals := s.seals.set v { l with count := n } }
  | none => s

/-- One reference more. -/
def State.sealAdd (s : State) (v : Nat) : State := s.setSealCount v (s.sealCount v + 1)

/-- One reference dropped (R162, R163): at zero the line is live no more, and an interior line's children
are left to its home's walker. -/
def State.sealDrop (s : State) (v : Nat) : State :=
  match AMap.find? v s.seals with
  | none => s
  | some l =>
    if 1 < l.count then s.setSealCount v (l.count - 1)
    else
      let s1 := { s with seals := s.seals.erase v }
      if l.cls = 0 then s1
      else
        (s1.modSite (s.sealSite v) fun st => { st with walker := st.walker ++ [sealChildren l.content] }).due
          (.sealWalkerDrop (s.sealSite v)) coreTicks

/-- SEAL_WALKER_DROP (R163): a site's walker drops one child of the line it works on; after the last the
line's storage is free again. -/
def execSealWalkerDrop (site : Nat) (s : State) : Out :=
  let put := fun (s : State) w => s.modSite site fun st => { st with walker := w }
  let more := fun (s : State) =>
    if (s.site site).walker.isEmpty then s else s.due (.sealWalkerDrop site) coreTicks
  match (s.site site).walker with
  | [] => .next s
  | [] :: w => .next (more (put s w))
  | [c] :: w => .next (more ((put s w).sealDrop c))
  | (c :: cs) :: w => .next (more ((put s (cs :: w)).sealDrop c))

/-! ## SealPut (R159) -/

/-- The live line of a class and content under a hash. -/
def State.sealFind (s : State) (h cls content : Nat) : Option Nat :=
  ((List.range 256).map (h + ·)).find? fun v =>
    match s.sealLine v with
    | some l => l.cls == cls && l.content == content
    | none => false

/-- The index a new line takes under a hash (R154, R159). -/
def State.sealIndex (s : State) (h : Nat) : Nat :=
  match ((List.range 256).reverse.find? fun i => s.sealLive (h + i)) with
  | some i => i + 1
  | none => if h = 0 then 1 else 0

/-- What making a line comes to. -/
inductive SealOut where
  | ok (v : Nat) (s : State)
  | trap (cause : Nat)

/-- A new line allocated (R159). -/
def State.sealAlloc (s : State) (h cls content : Nat) : SealOut :=
  let i := s.sealIndex h
  if 255 < i then .trap Cause.sealCollisionOverflow
  else if !s.sealHomed h || s.sealFree (s.sealSite h) == 0 then .trap Cause.sealPoolFull
  else
    let s := { s with seals := s.seals.set (h + i) ⟨cls, content, 1⟩ }
    .ok (h + i) (if cls = 1 then (sealChildren content).foldl State.sealAdd s else s)

/-- SealPut of a content under a class (R159, R160). -/
def State.sealPut (s : State) (cls content : Nat) : SealOut :=
  let h := sealHash cls content
  match s.sealFind h cls content with
  | some v =>
    if s.sealCount v = sealMax then .trap Cause.sealRefOverflow else .ok v (s.sealAdd v)
  | none =>
    let cs := if cls = 1 then sealChildren content else []
    if !cs.all s.sealLive then .trap Cause.sealInvalid
    else if cs.any fun c => decide (sealMax < s.sealCount c + cs.count c) then .trap Cause.sealRefOverflow
    else s.sealAlloc h cls content

/-! ## Reading a tree (R153, R166) -/

/-- Leaf j of the tree of depth d under a seal: its content, zeros under an empty seal, none where the
leaf is left unwritten. -/
def State.sealLeaf (s : State) : (d v j : Nat) → Option Nat
  | _, 0, _ => some 0
  | 0, v, _ =>
    match s.sealLine v with
    | some l => if l.cls = 0 then some l.content else none
    | none => none
  | d + 1, v, j =>
    match s.sealLine v with
    | some l =>
      if l.cls = 1 then s.sealLeaf d (l.content / 2 ^ (128 * (j / 16 ^ d)) % 2 ^ 128) (j % 16 ^ d)
      else none
    | none => none

end Sys2Proof.Machine
end

