-- ==== Sys2Proof/Machine/DevRegs.lean ====
section
/-! DEFINITION. The device registers (R2, R21) as 64-bit values: what a read of each returns. -/

namespace Sys2Proof.Machine

/-! ## The live map (R374, R375) -/

/-- The slot states of a block, two bits each. -/
def slotField (slots : List Nat) : Nat := (slots.zipIdx.map fun p => p.1 % 4 * 4 ^ p.2).sum

/-- The names of a block, four bits each. -/
def nameField (names : List Nat) : Nat := (names.zipIdx.map fun p => p.1 % 16 * 16 ^ p.2).sum

/-- The named cores of a block, vacant names included; a block with a dead router names none (R12). -/
def Block.ncores (b : Block) : Nat := if b.rtdead then 0 else (b.names.filter (· != 15)).length

/-- A block of at most seven names is short (R11): one that has lost a slot in service is so only when its names have been
derived again (R375, R379). Of a block without names the slots decide. -/
def Block.short (b : Block) : Bool :=
  decide ((if b.rtdead then (b.slots.filter (· == 0)).length else (b.names.filter (· != 15)).length) ≤ 7)

/-- The two words of a block entry (R375). -/
def Block.word0 (b : Block) : Nat :=
  b.gen % 2 ^ 16 * 2 ^ 48 + bit01 b.short * 2 ^ 45 + bit01 b.rtdead * 2 ^ 44 + b.ncores * 2 ^ 40 +
    (if b.rtdead then 0 else b.npairs) * 2 ^ 37 + slotField b.slots
def Block.word1 (b : Block) : Nat := nameField b.names

/-- A word of a site record (R374), by its offset. -/
def Site.mapWord (st : Site) (site off : Nat) : Nat :=
  if off = 0 then
    st.rdead % 2 ^ 18 * 2 ^ 28 + st.edead % 16 * 2 ^ 24 + (63 - st.l2live.toNat % 64) * 2 ^ 18 +
      bit01 (st.chremap.getLsbD 63) * 2 ^ 17 +
      (if st.chremap.getLsbD 63 then bitsOf st.chremap.toNat 53 48 else 0) * 2 ^ 11 + st.cudead % 16 * 2 ^ 7 +
      bit01 st.out * 2 ^ 6 + site
  else if off = 8 then st.scdead.toNat
  else if off = 16 then st.fdead % 16 * 2 ^ 24 + st.wdead % 2 ^ 24
  else if 64 ≤ off then
    (if off % 16 = 0 then (st.block ((off - 64) / 16)).word0 else (st.block ((off - 64) / 16)).word1)
  else 0

/-- A word of DEFMAP (R374): the header, then sixty site records. -/
def State.defmap (s : State) (off : Nat) : Nat :=
  if off = 0 then s.moduleId * 2 ^ 48 + 1
  else if off = 8 then s.dmapgen.toNat
  else if off < 64 then 0
  else (s.site ((off - 64) / 256)).mapWord ((off - 64) / 256) ((off - 64) % 256)

/-! ## Reads -/

/-- The current of a reticle's core rail in A, averaged over 1 µs, and its voltage in mV (R431), within the rail's limits
(R430): zero, as at reset, until the reticle has had power for 1 µs.
DESIGN CHOICE (assumption 27). -/
def State.rail (s : State) (site : Nat) : Nat × Nat :=
  match (s.site site).upSince with
  | some t =>
    if (s.site site).off ∨ s.tick < t + 8000 then (0, 0)
    else ((Config.railAt site s.tick).1 % 1101, 650 + (Config.railAt site s.tick).2 % 201)
  | none => (0, 0)

/-- PWRSTAT (R431): the gated blocks, and the rail's current and voltage.
DESIGN CHOICE (assumption 27). -/
def State.pwrstat (s : State) (site : Nat) : Nat :=
  let gated := ((List.range 12).map fun b =>
    match ((s.site site).block b).power with
    | .gated | .powering _ => 2 ^ b
    | _ => 0).sum
  let r := s.rail site
  gated * 2 ^ 40 + r.1 % 2 ^ 12 * 2 ^ 16 + r.2 % 2 ^ 10

/-- LQHEADn as it is read (R56): modulo the ring size. The queue itself counts on (R57).
DEDUCED (assumption 106). -/
def LaunchQueue.headIndex (q : LaunchQueue) : Nat := q.head.toNat % 2 ^ (q.cfg.toNat % 16 + 4)

/-- The register that holds a word of register space (R2, R21). -/
def regOf (pa : Nat) : Option DevReg :=
  match Config.deviceAt (siteOfPa pa) (offsetOfPa pa) with
  | some r => some r
  | none => if pa % 8 = 4 then Config.deviceAt (siteOfPa pa) (offsetOfPa pa - 4) else none

/-- What a read of a device register returns. -/
def State.devRead (s : State) : DevReg → Nat
  | .lqbase q => (s.queue q).base.toNat
  | .lqcfg q => (s.queue q).cfg.toNat
  | .lqtail q => (s.queue q).tail.toNat
  | .lqhead q => (s.queue q).headIndex
  | .lqpt q => (s.queue q).pt.toNat
  | .sealhome n => (AMap.getD s.sealHome n 0).toNat
  | .sealpbase n => (s.site n).sealpbase.toNat
  | .sealpcfg n => (s.site n).sealpcfg.toNat
  | .sealpfree n => s.sealFree n
  | .trapqbase n => (s.site n).trapqbase.toNat
  | .trapqcfg n => (s.site n).trapqcfg.toNat
  | .trapqtail n => (s.site n).trapqtail.toNat
  | .trapqhead n => (s.site n).trapqhead.toNat
  | .trapact n => (s.site n).trapact.toNat
  | .wregbase n => (s.site n).wregbase.toNat
  | .wregcfg n => (s.site n).wregcfg.toNat
  | .biasbase n => (s.site n).biasbase.toNat
  | .biascmd n => (s.site n).biascmd.toNat
  | .l2cfg n => (s.site n).l2cfg.toNat
  | .l2live n => (s.site n).l2live.toNat
  | .chremap n => (s.site n).chremap.toNat
  | .ctxbase c k => (AMap.getD (s.site (siteOf c)).ctxbase (c, k) 0).toNat
  | .obrec c n => (AMap.getD (s.core c).records n 0).toNat
  | .netver n => (s.site n).netver.toNat
  | .netcommit _ => 0
  | .netroot => s.netroot
  | .shadowBank n off => (s.site n).shadowBank.readNat off 8
  | .activeBank n off => (s.site n).activeBank.readNat off 8
  | .optlink n k => (AMap.getD (s.site n).optlinks k 0).toNat
  | .optskew n => (s.site n).optskew.toNat
  | .steercfg n => (s.site n).steercfg.toNat
  | .linkdly n e => (AMap.getD (s.site n).linkdly e 0).toNat
  | .wtstatus => s.wtstatus.toNat
  | .dbgstate => s.dbgstate.toNat
  | .pwrstat n => s.pwrstat n
  | .bltcfg n k => (AMap.getD (s.site n).streams k .reset).cfg.toNat
  | .bltbase n k => (AMap.getD (s.site n).streams k .reset).base.toNat
  | .blttail n k => (AMap.getD (s.site n).streams k .reset).tail.toNat
  | .blthead n k => (AMap.getD (s.site n).streams k .reset).head.toNat
  | .bltstat n k => (AMap.getD (s.site n).streams k .reset).stat.toNat
  | .lupcfg l => (AMap.getD s.lups l .reset).cfg.toNat
  | .luppol l => (AMap.getD s.lups l .reset).pol.toNat
  | .lupgate l => (AMap.getD s.lups l .reset).gate.toNat
  | .lupnrep l => (AMap.getD s.lups l .reset).nrep.toNat
  | .lupspare l => (AMap.getD s.lups l .reset).spare.toNat
  | .lupbank n l => (AMap.getD (s.site n).lup l .reset).bank.toNat
  | .lupver n l => (AMap.getD (s.site n).lup l .reset).ver.toNat
  | .lupstat n l => (AMap.getD (s.site n).lup l .reset).stat.toNat
  | .lupcnt n l e => AMap.getD (AMap.getD (s.site n).lup l .reset).cnt e 0
  | .sfault c => (s.scribeCore c).sfault.toNat
  | .sfaddr c => (s.scribeCore c).sfaddr.toNat
  | .defmap off => s.defmap off

/-- What a store of one half of a register leaves in the other: its value, but zero in the fields that a 1
would clear.
DEDUCED (assumption 82). -/
def State.devHold (s : State) (r : DevReg) : Nat :=
  match r with
  | .bltstat _ _ => 0
  | .netver n => setBits (s.site n).netver.toNat 33 33 0
  | .lupstat _ _ => 0
  | r => s.devRead r

/-- A read of `n` bytes of a site's register space (R21): 0 where no register stands.
DESIGN CHOICE (assumption 14). DESIGN CHOICE (assumption 22). -/
def State.deviceRead (s : State) (pa n : Nat) : Nat :=
  match Config.deviceAt (siteOfPa pa) (offsetOfPa pa) with
  | some r => s.devRead r % 2 ^ (8 * n)
  | none =>
    if n = 4 ∧ pa % 8 = 4 then
      (match Config.deviceAt (siteOfPa pa) (offsetOfPa pa - 4) with
        | some r => s.devRead r / 2 ^ 32 % 2 ^ 32
        | none => 0)
    else 0

/-- A write of `n` bytes to a site's register space (R21), asked for: a lane's is made with its instruction, an
engine's in the very next step of the module, and several in their order; nothing happens where no register
stands.
DESIGN CHOICE (assumption 14). DESIGN CHOICE (assumption 22). -/
def State.deviceWrite (s : State) (pa n v : Nat) : State :=
  let put := fun r w =>
    { s with agenda := s.agenda ++ [{ at_ := 0, ev := .registerWrite r (BitVec.ofNat 64 w) }] }
  match Config.deviceAt (siteOfPa pa) (offsetOfPa pa) with
  | some r => put r (if n = 8 then v else setBits (s.devHold r) 31 0 v)
  | none =>
    if n = 4 ∧ pa % 8 = 4 then
      (match Config.deviceAt (siteOfPa pa) (offsetOfPa pa - 4) with
        | some r => put r (setBits (s.devHold r) 63 32 v)
        | none => s)
    else s

end Sys2Proof.Machine
end

