-- ==== Sys2Proof/Machine/Ordering.lean ====
section
/-! DEFINITION. The consistency of the five paths (R105, R107, R110, R111, R116-R124, R131): the writes that a reader
need not see yet, and the fences that make it see them. A write takes its place in coherence order at once: memory
holds the last write of each byte, and the record of a write keeps what stands before it, which a reader that nothing
orders after the write may still be given. -/

namespace Sys2Proof.Machine

/-! ## Places -/

/-- Whether two byte ranges of one place overlap. -/
def Loc.overlaps (sameTeam : Bool) (a : Loc) (n : Nat) (b : Loc) (m : Nat) : Bool :=
  match a, b with
  | .glob p, .glob q => decide (p < q + m ∧ q < p + n)
  | .scr h p, .scr k q => sameTeam && h == k && decide (p < q + m ∧ q < p + n)
  | _, _ => false

/-- A location's place among the bytes of its kind. -/
def Loc.place : Loc → Nat
  | .glob pa => pa
  | .scr _ o => o

/-- A location of the same kind at another place. -/
def Loc.at_ : Loc → Nat → Loc
  | .glob _, b => .glob b
  | .scr h _, b => .scr h b

/-- Whether a location is in register space, where every access is one event at the register (R21). -/
def Loc.register : Loc → Bool
  | .glob pa => isRegisterPa pa
  | .scr _ _ => false

/-- The bytes of a range that a record is about, by their places. -/
def Unseen.bytes (r : Unseen) (team : Nat) (l : Loc) (n : Nat) : List Nat :=
  if r.loc.overlaps (r.team == team) r.n l n then
    let lo := max r.loc.place l.place
    List.range' lo (min (r.loc.place + r.n) (l.place + n) - lo)
  else []

/-- What stood at a place before the write. -/
def Unseen.before (r : Unseen) (a : Nat) : Byte := .ofNat 8 (r.old / 2 ^ (8 * (a - r.loc.place)))

/-! ## Scopes and fences -/

/-- The site an agent stands on (R118). -/
def Party.site : Party → Option Nat
  | .thread _ n => some n
  | .scribe sc => some (sc / 64)
  | .host | .foreign | .module => none

/-- Whether an agent is a thread of a team or, where `squad` says so, of a squad. -/
def Party.mate (squad : Bool) : Party → Party → Bool
  | .thread t _, .thread u _ => t.team == u.team && (!squad || t.squad == u.squad)
  | _, _ => false

/-- The agents a scope covers, relative to the party that fences (R118); a unit of the module that acts for no thread
stands with the threads of the module.
DEDUCED (assumption 13). -/
def covers (scope : Nat) (maker a : Party) : Bool :=
  match scope with
  | 0 => maker.mate true a
  | 1 => maker.mate false a
  | 2 => a.site.isSome && maker.site == a.site
  | 3 => a.site.isSome || a == .module
  | _ => true

/-- The bit of a path in a mask (R176). The host's accesses stand with path t (R131). -/
def Path.bit : Path → Nat
  | .t | .host => 0
  | .c => 1
  | .m => 2
  | .n => 3
  | .p => 4

/-- Whether a mask of a fence names a path; the host's only at system scope (R131). -/
def Fence.names (f : Fence) (mask : BitVec 5) (p : Path) : Bool :=
  mask.getLsbD p.bit && (p != .host || f.scope == 4)

/-! ## What a reader must see -/

/-- Whether what a write owes is a Scribe core's own completion point. -/
def Party.owes : Party → Owed → Bool
  | .scribe sc, .scribe k => sc == k
  | _, _ => false

/-- Whether a write is ordered before what a party reads or writes on a path: every reader sees it, both travel path t
(R107), it is complete and on the party's own path (R119), it is the Scribe core's own, or a fence orders it (R117).
DEDUCED (assumption 13). -/
def Unseen.ordered (r : Unseen) (y : Path) (a : Party) : Bool :=
  r.shown || (r.path == y && (r.owed == .nothing || a.owes r.owed)) ||
    r.fences.any fun f => f.1.names f.1.y y && covers f.1.scope f.2 a

/-- Whether a party must see a write's byte: the write is ordered before its access, or it has seen that byte (R105). -/
def Unseen.settled (r : Unseen) (y : Path) (a : Party) (b : Nat) : Bool := r.ordered y a || r.seenBy.contains (a, b)

/-- A record of which a party has seen some bytes. -/
def Unseen.seenAt (r : Unseen) (a : Party) (bs : List Nat) : Unseen :=
  { r with seenBy := ((bs.filter fun b => !r.seenBy.contains (a, b)).map fun b => (a, b)) ++ r.seenBy }

/-- What a read comes to: the records as it leaves them, the bytes it is given from before a write, newest first, and
the free values drawn so far. -/
structure Sight where
  records : List Unseen
  olds : List (Nat × Byte)
  free : Nat
deriving DecidableEq, Repr

/-- A record kept as it is. -/
def Sight.keep (r : Unseen) (v : Sight) : Sight := { v with records := r :: v.records }

/-- A read of some bytes of a record: those it is given from the write, and those from before it. -/
def Sight.part (r : Unseen) (a : Party) (bs : List Nat) (sees : Nat → Bool) (v : Sight) : Sight :=
  { v with
    records := r.seenAt a (bs.filter sees) :: v.records
    olds := (bs.filter fun b => !sees b).map (fun b => (b, r.before b)) ++ v.olds }

/-- Whether a party has seen some byte of an event that a read of a range meets. -/
def eventSeen (a : Party) (team : Nat) (l : Loc) (n : Nat) (e : Nat × Nat) (rs : List Unseen) : Bool :=
  rs.any fun r => r.event == e && (r.bytes team l n).any fun b => r.seenBy.contains (a, b)

/-- A read of `n` bytes by a party on a path, against the records, newest first. Whether a write that need not be seen
is seen is a free value: one for all of an indivisible update (R126), and one for all of a write where an access of
path t meets it (R104); else one for each byte (R120). `all` are all the records, `fin` the places whose value is
settled, `met` the events that the read has met as a whole.
DEDUCED (assumption 13). -/
def sight (y : Path) (a : Party) (team : Nat) (l : Loc) (n : Nat) (all : List Unseen) :
    List Unseen → (fin : List Nat) → (met : AMap (Nat × Nat) Bool) → (free : Nat) → Sight
  | [], _, _, free => ⟨[], [], free⟩
  | r :: rs, fin, met, free =>
    let bs := (r.bytes team l n).filter fun b => !fin.contains b
    if bs.isEmpty then (sight y a team l n all rs fin met free).keep r
    else if r.ordered y a then (sight y a team l n all rs (bs ++ fin) met free).keep r
    else if y == .t || r.atomic then
      let drawn := (AMap.find? r.event met).isNone && !eventSeen a team l n r.event all
      let sees := (AMap.find? r.event met).getD
        (eventSeen a team l n r.event all || Config.freeBits free % 2 == 1)
      Sight.part r a bs (fun _ => sees)
        (sight y a team l n all rs (if sees then bs ++ fin else fin) (met.set r.event sees)
          (if drawn then free + 1 else free))
    else
      let sees := fun b => r.seenBy.contains (a, b) || Config.freeBits (free + (b - l.place)) % 2 == 1
      Sight.part r a bs sees (sight y a team l n all rs (bs.filter sees ++ fin) met (free + n))

/-- A number with one of its bytes replaced. -/
def setByte (v k : Nat) (b : Byte) : Nat := v - v / 2 ^ (8 * k) % 2 ^ 8 * 2 ^ (8 * k) + b.toNat * 2 ^ (8 * k)

/-- The bytes of a range, of which some are given from before a write. -/
def Sight.apply (v : Sight) (place now : Nat) : Nat := v.olds.foldl (fun w p => setByte w (p.1 - place) p.2) now

/-- A memory, of which some bytes are given from before a write. -/
def Sight.patch (v : Sight) (m : Memory) : Memory := v.olds.foldl (fun m p => m.put p.1 p.2) m

/-! ## Where a write stands in coherence order -/

/-- Whether a write may come before a recorded one in the coherence order of a byte: nothing orders the recorded one
before it (R111, R117), and neither is an indivisible update (R125). -/
def Unseen.yields (r w : Unseen) (b : Nat) : Bool := !r.atomic && !w.atomic && !r.settled w.path w.agent b

/-- A record of which what stood before one byte has changed. -/
def Unseen.setOld (r : Unseen) (b : Nat) (v : Byte) : Unseen := { r with old := setByte r.old (b - r.loc.place) v }

/-- A record of one byte of a write, and what stands before it. -/
def Unseen.atByte (w : Unseen) (b : Nat) (old : Byte) : Unseen :=
  { w with loc := w.loc.at_ b, n := 1, old := old.toNat }

/-- One byte of a write put beneath the records that come after it in coherence order, each with whether it does, if
the newest of them does.
DEDUCED (assumption 13). -/
def sinkByte (w : Unseen) (b : Nat) (v : Byte) : List (Unseen × Bool) → Option (List (Unseen × Bool))
  | [] => none
  | (r, after) :: rs =>
    if (r.bytes w.team (w.loc.at_ b) 1).isEmpty then (sinkByte w b v rs).map ((r, after) :: ·)
    else if !after || !r.yields w b then none
    else
      match sinkByte w b v rs with
      | some rs => some ((r, after) :: rs)
      | none => some ((r.setOld b v, after) :: (w.atByte b (r.before b), false) :: rs)

/-- Records, each with a free value: whether it comes after the write being made. -/
def drawAfter : List Unseen → (free : Nat) → List (Unseen × Bool)
  | [], _ => []
  | r :: rs, free => (r, Config.freeBits free % 2 == 1) :: drawAfter rs (free + 1)

/-- The bytes of a write put where they stand: those that come last, and the records with the others among them. -/
def sinkBytes (w : Unseen) (v : Nat) : List Nat → List (Unseen × Bool) → List Nat × List (Unseen × Bool)
  | [], rs => ([], rs)
  | b :: bs, rs =>
    match sinkByte w b (.ofNat 8 (v / 2 ^ (8 * (b - w.loc.place)))) rs with
    | some rs => sinkBytes w v bs rs
    | none =>
      let r := sinkBytes w v bs rs
      (b :: r.1, r.2)

/-- A number of which the bytes of a range that are not in a list are those of another. -/
def keepBytes (place : Nat) (bs : List Nat) (v now n : Nat) : Nat :=
  ((List.range' place n).filter fun b => !bs.contains b).foldl
    (fun x b => setByte x (b - place) (.ofNat 8 (now / 2 ^ (8 * (b - place))))) v

/-! ## The records of the module -/

/-- The agent that a thread is (R110). -/
def State.party (s : State) (t : Tid) : Party := .thread t (siteOf (s.coreOf t.sid))

/-- Whether nothing stands between a party and the newest value: it must see every write there is. -/
def State.plain (s : State) (y : Path) (a : Party) (team : Nat) (l : Loc) (n : Nat) : Bool :=
  s.unseen.all fun r => (r.bytes team l n).all (r.settled y a)

/-- What memory holds after a write of `v` at the place of a record, whose `old` is what it holds now: `v`, but for
the bytes that come before a write already made; and the state with the write's records.
DEDUCED (assumption 13). -/
def State.layWrite (s : State) (w : Unseen) (v : Nat) : Nat × State :=
  let s := { s with writes := s.writes + 1 }
  if w.loc.register then (v, s)
  else if w.atomic || s.plain w.path w.agent w.team w.loc w.n then (v, { s with unseen := w :: s.unseen })
  else
    let r := sinkBytes w v (List.range' w.loc.place w.n) (drawAfter s.unseen s.free)
    let tops := if r.1.length = w.n then [w] else r.1.map fun b => w.atByte b (w.before b)
    (keepBytes w.loc.place r.1 v w.old w.n,
      { s with unseen := tops ++ r.2.map Prod.fst, free := s.free + s.unseen.length })

/-- A range of which every reader sees what is there now.
DEDUCED (assumption 13). -/
def State.settle (s : State) (team : Nat) (l : Loc) (n : Nat) : State :=
  let rest := s.unseen.filter fun r => (r.bytes team l n).length != r.n
  { s with
    unseen :=
      if rest.all fun r => (r.bytes team l n).isEmpty then rest
      else
        { path := .t, agent := .module, team, loc := l, n, old := 0, event := (s.writes, 0), atomic := true,
          owed := .nothing, fences := [], seenBy := [], shown := true } :: rest }

/-- A range that a party has seen as it stands (R105). -/
def State.sees (s : State) (a : Party) (team : Nat) (l : Loc) (n : Nat) : State :=
  { s with unseen := s.unseen.map fun r => r.seenAt a (r.bytes team l n) }

/-- A fence made by a party (R117): it is kept with every complete write of X whose agent its scope covers.
DEDUCED (assumption 13). -/
def State.fence (s : State) (f : Fence) (maker : Party) : State :=
  { s with
    unseen := s.unseen.map fun r =>
      if f.names f.x r.path && r.owed == .nothing && covers f.scope maker r.agent && f.y != 0 then
        { r with fences := (f, maker) :: r.fences }
      else r }

/-- Writes that owe something complete (R117, R124). -/
def State.completeWrites (s : State) (o : Owed) : State :=
  { s with unseen := s.unseen.map fun r => if r.owed == o then { r with owed := .nothing } else r }

/-- The crossing that a wake on a line carries for a thread (R123): the copies' writes on that line are seen. -/
def State.crossLine (s : State) (team : Nat) (l : Nat × Nat) (a : Party) : State :=
  { s with
    unseen := s.unseen.map fun r =>
      if r.path == .c then r.seenAt a (r.bytes team (.scr l.1 (128 * l.2)) 128) else r }

/-- The order of a thread's store to a scratchpad line whose presence bit is clear, which the commands that are pending
on the line overwrite (R87): it stands as if a fence t>c followed it, while the bit is clear.
DEDUCED (assumption 13). -/
def absentFence : Fence × Party := (⟨1, 2, 5⟩, .module)

/-- A line whose presence bit sets: no command is pending on it any more, for which stores would wait (R87). -/
def State.presentLine (s : State) (team : Nat) (l : Nat × Nat) : State :=
  { s with
    unseen := s.unseen.map fun r =>
      if (r.bytes team (.scr l.1 (128 * l.2)) 128).isEmpty then r
      else { r with fences := r.fences.filter (· != absentFence) } }

/-- Whether a party is a thread of a team. -/
def Party.ofTeam (n : Nat) : Party → Bool
  | .thread t _ => t.team == n
  | _ => false

/-- Whether a record is of a team's scratchpad. -/
def Unseen.within (r : Unseen) (n : Nat) : Bool :=
  r.team == n && (match r.loc with | .scr _ _ => true | .glob _ => false)

/-- Whether a record keeps something of the history of a team's threads. -/
def Unseen.about (r : Unseen) (n : Nat) : Bool :=
  r.agent.ofTeam n || (r.seenBy.any fun a => a.1.ofTeam n) || r.fences.any fun f => f.2.ofTeam n

/-- The records of a team's scratchpad ended, and every other record about the team shown to all: its threads go on
elsewhere with their history unchanged (R132).
DEDUCED (assumption 13). -/
def State.settleTeam (s : State) (n : Nat) : State :=
  { s with
    unseen := (s.unseen.filter fun r => !r.within n).map fun r => if r.about n then { r with shown := true } else r }

end Sys2Proof.Machine
end

