-- ==== Sys2Proof/Machine/Ops.lean ====
section
/-! DEFINITION. The operations that the meanings share: addresses and their checks (R79-R81), reads and
writes of memory and of a team's scratchpad, presence bits (R86, R87), readiness and leads (R37, R40),
taking a trap (R55, R320-R322, R326) and returning from the user handler (R325), and the call stack
(R31, R203). -/

namespace Sys2Proof.Machine

/-! ## Addresses -/

/-- What the checks of R81 on one address answer. `held` is an access that a bias flip or an L2 flush
holds (R98, R352). -/
inductive Checked where
  | ok (l : Loc) (s : State)
  | trap (cause : Nat)
  | absent
  | held

/-- Whether the address is in the scratchpad form's tag (R79). -/
def isScratch (a : DWord) : Bool := a.toNat / 2 ^ 56 == 1

/-- Whether the address is in the global form (R79). -/
def isGlobal (a : DWord) : Bool := a.toNat / 2 ^ 52 == 0

/-- R81 step 1: the address is in one of the two forms of R79, bit 23 set in paired teams only. -/
def formOk (paired : Bool) (a : DWord) : Bool :=
  isGlobal a || (isScratch a && bitsOf a.toNat 55 24 == 0 && (paired || !bitOf a.toNat 23))

/-- The bytes of a team's scratchpad on each core (R68, R84). -/
def Team.scratchBytes (t : Team) : Nat := bitsOf t.part.toNat 14 8 * 24576

/-- The bytes of a team's accumulator share on each core (R68, R91). -/
def Team.accBytes (t : Team) : Nat := bitsOf t.part.toNat 22 16 * 24576

/-- The half and offset a scratchpad address names (R34, R79). -/
def scratchHalf (a : DWord) : Nat := bit01 (bitOf a.toNat 23)
def scratchOff (a : DWord) : Nat := a.toNat % 2 ^ 23

/-- The checks of R81 on a lane's address, for `n` bytes aligned to `align`, in a space and a team. A
register-space access is of 4 or 8 bytes (R21). -/
def State.checkAddr (s : State) (core team : Nat) (sp : Space) (a : DWord) (n align : Nat)
    (kind : AccessKind) : Checked :=
  let t := s.team team
  if !formOk t.paired a then .trap Cause.addressForm
  else if a.toNat % align ≠ 0 then .trap Cause.alignment
  else if isScratch a then
    (if t.scratchBytes < scratchOff a + n then .trap Cause.scratchBounds
    else .ok (.scr (scratchHalf a) (scratchOff a)) s)
  else
    match s.translate core sp a.toNat kind with
    | .error c => if c = Cause.nonresident then .absent else if c = heldCause then .held else .trap c
    | .ok (pa, s') =>
      if isRegisterPa pa && !(n == 4 || n == 8) then .trap Cause.alignment
      else if s.accessHeld pa then .held
      else .ok (.glob pa) s'

/-! ## Reads and writes -/

/-- One half of a team's scratchpad. -/
def Team.scratch (t : Team) (half : Nat) : Memory := if half = 0 then t.scratch0 else t.scratch1

def Team.setScratch (t : Team) (half : Nat) (m : Memory) : Team :=
  if half = 0 then { t with scratch0 := m } else { t with scratch1 := m }

/-- One half of a team's accumulator share. -/
def Team.acc (t : Team) (half : Nat) : Memory := if half = 0 then t.acc0 else t.acc1

def Team.setAcc (t : Team) (half : Nat) (m : Memory) : Team :=
  if half = 0 then { t with acc0 := m } else { t with acc1 := m }

/-- The bytes at a location. A load, store, atomic or copy of lines makes no lookup in a route table: what R392 refuses
are packets.
DESIGN CHOICE (assumption 118). -/
def State.readLoc (s : State) (team : Nat) (l : Loc) (n : Nat) : Nat :=
  match l with
  | .glob pa => if isRegisterPa pa then s.deviceRead pa n else s.mem.readNat pa n
  | .scr h o => ((s.team team).scratch h).readNat o n

/-- A thread made ready in the present clock (R50). -/
def State.wake (s : State) (t : Tid) : State :=
  s.modThread t fun th => { th with status := .ready, since := s.clock, heldSince := none }

/-- The offset of ring n's header in its half's share, and the half (R101). -/
def Team.ringBase (t : Team) (n : Nat) : Nat := bitsOf (AMap.getD t.ringCfg n 0).toNat 22 6 * 64
def Team.ringHalf (t : Team) (n : Nat) : Nat := bit01 (bitOf (AMap.getD t.ringCfg n 0).toNat 23)

/-- Ring n's HEAD and TAIL words (R102). -/
def Team.ringHead (t : Team) (n : Nat) : Nat := (t.scratch (t.ringHalf n)).readNat (t.ringBase n) 4
def Team.ringTailWord (t : Team) (n : Nat) : Nat :=
  (t.scratch (t.ringHalf n)).readNat (t.ringBase n + 4) 4

/-- The end of a parked RWAIT (R235): the slots filled are written, and the thread goes on. -/
def State.ringWake (s : State) (t : Tid) (filled d len : Nat) : State :=
  (s.modThread t fun th =>
    { th.setX d (.ofNat 32 filled) with pc := th.pc + BitVec.ofNat 64 len }).wake t

/-- The header of a ring, which its reader has seen (R105). -/
def State.seesRing (s : State) (t : Tid) (n : Nat) : State :=
  let tm := s.team t.team
  s.sees (s.party t) t.team (.scr (tm.ringHalf n) (tm.ringBase n)) 8

/-- What a write to a location means to one thread: a WAITW .ne whose watched word now differs is due to
wake (R227), and an RWAIT whose TAIL word has changed goes on (R235). -/
def State.notifyOne (s : State) (team : Nat) (l : Loc) (n : Nat) (t : Tid) (th : Thread) : State :=
  match th.status with
  | .parked (.word w) =>
    if !w.ge && l.overlaps (t.team == team) n w.loc w.ty.size &&
        s.readLoc t.team w.loc w.ty.size != w.expect then s.due (.waitwWake t) 0
    else s
  | .parked (.ring r tail d len f) =>
    let tm := s.team t.team
    if t.team == team && tm.ringTailWord r != tail then
      ((s.seesRing t r).ringWake t ((tm.ringTailWord r + 2 ^ 32 - tm.ringHead r) % 2 ^ 32) d len).fence f (s.party t)
    else s
  | _ => s

/-- The threads that a write to a location concerns.
DEDUCED (assumption 96). -/
def State.notify (s : State) (team : Nat) (l : Loc) (n : Nat) : State :=
  s.threads.foldl (fun s p => s.notifyOne team l n p.1 p.2) s

/-- What a write to a device register means to the threads that wait on a word of it (R227). -/
def State.notifyRegister (s : State) (r : DevReg) : State :=
  s.threads.foldl (fun s p =>
    match p.2.status with
    | .parked (.word w) =>
      (match w.loc with
        | .glob pa =>
          if !w.ge && isRegisterPa pa && regOf pa == some r &&
              s.readLoc p.1.team w.loc w.ty.size != w.expect then s.due (.waitwWake p.1) 0
          else s
        | .scr _ _ => s)
    | _ => s) s

/-- The state with `n` bytes of `v` stored at a location, and nothing told of it. A store covering a
whole granule of DRAM, or a scratchpad word, makes it good again (R338). -/
def State.putLoc (s : State) (team : Nat) (l : Loc) (n v : Nat) : State :=
  match l with
  | .glob pa =>
    if isRegisterPa pa then s.deviceWrite pa n v
    else
      { s with
        mem := s.mem.writeNat pa n v
        badDram := s.badDram.filter fun g => !decide (pa ≤ g * 32 ∧ g * 32 + 32 ≤ pa + n) }
  | .scr h o =>
    s.modTeam team fun t =>
      { t.setScratch h ((t.scratch h).writeNat o n v) with
        badScratch := t.badScratch.filter fun b => !(b.1 == h && decide (o ≤ b.2 ∧ b.2 + 4 ≤ o + n)) }

/-- A write of `n` bytes of `v` at a location that every later read sees. -/
def State.writeLoc (s : State) (team : Nat) (l : Loc) (n v : Nat) : State :=
  ((s.putLoc team l n v).settle team l n).notify team l n

/-- The unit of an indivisible update that a location stands in (R126): its 256-byte line of DRAM, or the whole of a
scratchpad. -/
def Loc.unit : Loc → Nat
  | .glob pa => pa / 256
  | .scr _ _ => 0

/-- Whether a range lies in a scratchpad line whose presence bit is clear (R86). -/
def State.absentAt (s : State) (team : Nat) (l : Loc) (n : Nat) : Bool :=
  match l with
  | .scr h o =>
    (s.team team).pending.any fun p => p.1.1 == h && decide (p.1.2 * 128 < o + n ∧ o < p.1.2 * 128 + 128)
  | .glob _ => false

/-- The fences that a write has behind it as it is made (R87). -/
def State.writeFences (s : State) (path : Path) (team : Nat) (l : Loc) (n : Nat) : List (Fence × Party) :=
  if path == .t && s.absentAt team l n then [absentFence] else []

/-- A write of `n` bytes of `v` at a location on a path, by an agent (R110), and what it still owes: an event of its
own, or a part of an indivisible update, by its number (R126). -/
def State.writeAs (s : State) (path : Path) (agent : Party) (owed : Owed) (update : Option Nat) (team : Nat) (l : Loc)
    (n v : Nat) : State :=
  let r := s.layWrite
    { path, agent, team, loc := l, n, old := s.readLoc team l n,
      event := (update.map fun k => (k, l.unit)).getD (s.writes, 0), atomic := update.isSome, owed,
      fences := s.writeFences path team l n, seenBy := [], shown := false } v
  (r.2.putLoc team l n r.1).notify team l n

/-- A thread's own store (R108). -/
def State.threadWrite (s : State) (t : Tid) (l : Loc) (n v : Nat) : State :=
  s.writeAs .t (s.party t) .nothing none t.team l n v

/-- The write of a read-modify-write on path t (R104, R125). -/
def State.updateLoc (s : State) (a : Party) (team : Nat) (l : Loc) (n v : Nat) : State :=
  s.writeAs .t a .nothing (some s.writes) team l n v

/-- A thread's own read-modify-write (R108), whose read it has made. -/
def State.threadUpdate (s : State) (t : Tid) (l : Loc) (n v : Nat) : State :=
  s.updateLoc (s.party t) t.team l n v

/-- The bytes at a location as a party reads them on a path (R107, R117-R120): the newest, but where it need not see
a write. -/
def State.seen (s : State) (y : Path) (a : Party) (team : Nat) (l : Loc) (n : Nat) : Nat × State :=
  if s.plain y a team l n then (s.readLoc team l n, s)
  else
    let v := sight y a team l n s.unseen s.unseen [] [] s.free
    (v.apply l.place (s.readLoc team l n), { s with unseen := v.records, free := v.free })

/-- A half of a team's scratchpad as a party reads it on a path. -/
def State.seenHalf (s : State) (y : Path) (a : Party) (team half : Nat) : Memory × State :=
  let m := (s.team team).scratch half
  let n := (s.team team).scratchBytes
  if s.plain y a team (.scr half 0) n then (m, s)
  else
    let v := sight y a team (.scr half 0) n s.unseen s.unseen [] [] s.free
    (v.patch m, { s with unseen := v.records, free := v.free })

/-- The channel and the region that CHREMAP names (R384). -/
def chanOf (v : Nat) : Nat := bitsOf v 53 48
def regionOf (v : Nat) : Nat := bitsOf v 18 0 * 196608

/-- The target of a redirected granule of a reticle (R384). -/
def remapTarget (v a : Nat) : Nat :=
  let j := a / 12288
  let p := j % 47
  regionOf v + (48 * (j / 47) + (if p < chanOf v then p else p + 1)) * 256

/-- The channel that serves an offset of a reticle: where the granule is redirected and has been copied, that of its
target (R384). -/
def Site.channelOf (st : Site) (a : Nat) : Nat :=
  let v := st.chremap.toNat
  if bitOf v 63 && !bitOf v 62 && a / 256 % 48 == chanOf v then remapTarget v a / 256 % 48 else a / 256 % 48

/-- Whether a read of an address reaches a failed DRAM channel (R385), of a line that the home L2 does not hold.
DESIGN CHOICE (assumption 111). -/
def State.channelLost (s : State) (pa : Nat) : Bool :=
  let st := s.site (siteOfPa pa)
  st.chdead != 0 && !isRegisterPa pa && bitOf st.chdead (st.channelOf (offsetOfPa pa)) &&
    !(st.l2.any fun p => p.2.any fun l => l.line == pa / 128)

/-- Whether a location holds an uncorrectable error (R338). -/
def State.badLoc (s : State) (team : Nat) (l : Loc) (n : Nat) : Bool :=
  match l with
  | .glob pa =>
    (s.badDram.any fun g => decide (pa / 32 ≤ g ∧ g ≤ (pa + n - 1) / 32)) || s.channelLost pa
  | .scr h o =>
    (s.team team).badScratch.any fun b => b.1 == h && decide (o < b.2 + 4 ∧ b.2 < o + n)

/-- Whether a store to a location meets an uncorrectable error that it does not cover whole (R338): one of a
granule of DRAM that it writes in part. -/
def State.badStore (s : State) (l : Loc) (n : Nat) : Bool :=
  match l with
  | .glob pa =>
    (s.badDram.any fun g =>
      decide (pa / 32 ≤ g ∧ g ≤ (pa + n - 1) / 32) && !decide (pa ≤ 32 * g ∧ 32 * g + 32 ≤ pa + n)) ||
      (s.channelLost pa && (pa % 32 != 0 || n % 32 != 0))
  | .scr _ _ => false

/-- Whether a line of the location has its presence bit clear (R86). -/
def State.lineAbsent (s : State) (team : Nat) (l : Loc) (n : Nat) : Option (Nat × Nat) :=
  match l with
  | .glob _ => none
  | .scr h o =>
    ((List.range' (o / 128) ((o + n - 1) / 128 + 1 - o / 128)).find? fun i =>
      AMap.getD (s.team team).pending (h, i) 0 != 0).map fun i => (h, i)

/-- The bytes of the next access of a read or write of `n` bytes at an address: 8, 4 or 1. -/
def accessBytes (va n : Nat) : Nat := if va % 8 = 0 ∧ 8 ≤ n then 8 else if va % 4 = 0 ∧ 4 ≤ n then 4 else 1

/-! ## Readiness and leads -/

/-- The thread waits at the end of a lookahead window for its result (R37, R182).
DEDUCED (assumption 24). -/
def Thread.windowWait (th : Thread) : Bool := th.windows.any fun w => w.left == 0 && !w.complete

/-- R37: the thread is ready.
DEDUCED (assumption 24). -/
def Thread.isReady (th : Thread) : Bool := th.status == .ready && !th.windowWait

/-- The wait count (R37). It stands while a flip holds the thread's access (R355). -/
def Thread.waitCount (th : Thread) (clock : Nat) : Nat := th.heldSince.getD clock - th.since

/-- The ready thread of a list with the largest wait count, the first of equals, but for one. -/
def State.longest (s : State) (except : Option Nat) : List Tid → Option Tid
  | [] => none
  | t :: ts =>
    match s.longest except ts with
    | none => if (s.thread t).isReady && except != some t.lane then some t else none
    | some u =>
      if (s.thread t).isReady && except != some t.lane &&
          decide ((s.thread u).waitCount s.clock ≤ (s.thread t).waitCount s.clock) then some t
      else some u

/-- R40's events on a lead: it has parked, become held, exited or trapped. A thread whose TLBINV is not
complete has done none of them. -/
def Status.losesLead : Status → Bool
  | .ready | .invalidating _ _ => false
  | .held | .parked _ | .trapped | .exited => true

/-- R40: the squad's lead where its lead thread has parked, become held, exited, trapped, or issued
YIELD (`yielded`): the ready thread that has waited longest, by lowest lane. -/
def State.relead (s : State) (q : Sid) (yielded : Bool) : State :=
  match (s.squad q).lead with
  | some l =>
    if !yielded && !(s.thread ⟨q.team, q.squad, l⟩).status.losesLead then s
    else
      s.modSquad q fun sq =>
        { sq with lead := (s.longest (if yielded then some l else none) (s.threadsOf q)).map (·.lane) }
  | none =>
    s.modSquad q fun sq => { sq with lead := (s.longest none (s.threadsOf q)).map (·.lane) }

/-! ## Taking a trap -/

/-- One thread's trap: its cause, the address of the access or 0, the instruction's PC, the PC at which
it resumes (R326), and the flags and count of R321. -/
structure TrapRec where
  tid : Tid
  cause : Nat
  addr : DWord
  pc : DWord
  resume : DWord
  llf : Bool
  fatal : Bool
  issued : Nat
deriving DecidableEq, Repr

/-- R322: the traps that one report names together: of one issue, whose threads stand at one PC, of one
cause, team and HND.
DEDUCED (assumption 101). -/
def State.sameReport (s : State) (a b : TrapRec) : Bool :=
  a.cause == b.cause && a.tid.team == b.tid.team && (s.thread a.tid).hnd == (s.thread b.tid).hnd &&
    (s.thread a.tid).pc == (s.thread b.tid).pc

/-- A mask with the issue positions of threads (R321). -/
def State.laneMask (s : State) (ts : List Tid) : DWord :=
  ts.foldl (fun m t => m ||| (1#64 <<< s.position t)) 0

/-- The threads of the traps that share a report with one. -/
def State.reportThreads (s : State) (all : List TrapRec) (r : TrapRec) : List Tid :=
  (all.filter (s.sameReport r)).map (·.tid)

/-- The trap CSRs and the resume PC of one trapped thread (R321, R326), which is in trap delivery from
then on (R55). -/
def Thread.takeTrap (th : Thread) (r : TrapRec) (lanes : DWord) : Thread :=
  { th with
    status := .trapped
    trapCause := .ofNat 32 (r.cause + bit01 r.llf * 2 ^ 8 + r.issued * 2 ^ 16 + bit01 r.fatal * 2 ^ 20)
    trapPc := r.pc &&& 0xFFFFFFFFFFFFF#64
    trapAddr := if Cause.hasAddress r.cause then r.addr else 0
    trapLanes := lanes
    waitLeft := none
    resume := r.resume }

/-- The trap of the lowest issue position of a list, `r` among them (R322). -/
def State.foremost (s : State) (r : TrapRec) (rs : List TrapRec) : TrapRec :=
  rs.foldl (fun m a => if s.position a.tid < s.position m.tid then a else m) r

/-- The report of one trap and of those that share it (R322): what differs among them is that of the
lowest issue position, and FATAL is set where one of them is.
DEDUCED (assumption 101). -/
def State.reportOf (s : State) (all : List TrapRec) (r : TrapRec) : Report :=
  let rs := all.filter (s.sameReport r)
  let ts := rs.map (·.tid)
  let r := s.foremost r rs
  { lid := (s.team r.tid.team).lid
    cause := r.cause
    flags := bit01 r.llf + 8 * bit01 (s.thread r.tid).hnd + 16 * bit01 (rs.any (·.fatal))
    core := s.coreOf r.tid.sid
    lanes := s.laneMask ts
    tslot := (s.team r.tid.team).slot
    issued := r.issued
    pc := r.pc &&& 0xFFFFFFFFFFFFF#64
    addr := if Cause.hasAddress r.cause then r.addr else 0
    threads := ts }

/-- The reports of a list of traps, one for each set that shares one, in the traps' order. -/
def State.reportsOf (s : State) (all : List TrapRec) : List TrapRec → List Report
  | [] => []
  | r :: rs =>
    let rest := s.reportsOf all rs
    if (all.find? (s.sameReport r)) == some r then s.reportOf all r :: rest else rest

/-- A report handed to the trap queue of a core's site, to be written when it can be (R322). -/
def State.submit (s : State) (r : Report) : State :=
  (s.modSite (siteOf r.core) fun st => { st with waiting := st.waiting ++ [r] }).due
    (.trapReport (siteOf r.core)) 0

/-- The threads of a list of traps, each with its CSRs written. -/
def State.trapThreads (s0 s : State) (all : List TrapRec) : List TrapRec → State
  | [] => s
  | r :: rs =>
    State.trapThreads s0
      (s.modThread r.tid fun th => th.takeTrap r (s0.laneMask (s0.reportThreads all r))) all rs

/-- The time after which Nib retires a slot.
DEDUCED (assumption 74). -/
def retireTicks : Nat := 320000

/-- R377: a core on which a register error has made a thread FATAL is to be retired.
DEDUCED (assumption 74). -/
def State.retireLater (s : State) (c : Nat) : State :=
  let b := (s.site (siteOf c)).block (blockOf c)
  s.due (.slotRetire (siteOf c) (blockOf c) (b.names.getD (c % 8) 15)) retireTicks

/-- Taking traps: every thread named leaves its gang with its trap CSRs written (R55, R320, R321), each
squad's lead passes (R40), and one report for each issue, cause, team and HND goes to the reticle's
trap queue (R322). -/
def State.takeTraps (s : State) (ts : List TrapRec) : State :=
  let s1 := State.trapThreads s s ts ts
  let s2 := (s.reportsOf ts ts).foldl State.submit s1
  let s3 := (ts.map (·.tid.sid)).dedup.foldl (fun s q => s.relead q false) s2
  ((ts.filter (·.fatal)).map fun r => s3.coreOf r.tid.sid).dedup.foldl State.retireLater s3

/-! ## The call stack, and returning from the handler -/

/-- The index that places a thread's call stack (R31). -/
def State.stackIndex (s : State) (t : Tid) : Nat :=
  let w := (s.launchOf t).width
  if (s.team t.team).paired then t.squad / 2 * w + t.lane else t.squad * w + t.lane

/-- The scratchpad offset of entry `e` of a thread's call stack (R31). -/
def State.stackEntry (s : State) (t : Tid) (e : Nat) : Nat :=
  (s.team t.team).scratchBytes - (s.stackIndex t + 1) * (s.launchOf t).depth * 8 + e * 8

/-- The location of entry `e` of a thread's call stack, on the thread's own core (R31). -/
def State.stackLoc (s : State) (t : Tid) (e : Nat) : Loc := .scr (s.half t.sid) (s.stackEntry t e)

/-- The address of a location in the scratchpad form (R79). -/
def State.locAddr (_ : State) : Loc → DWord
  | .scr h o => .ofNat 64 (2 ^ 56 + 2 ^ 23 * h + o)
  | .glob pa => .ofNat 64 pa

/-- The address of the top entry of a thread's call stack, in the scratchpad form (R31, R79). -/
def stackAddr (s : State) (t : Tid) : DWord := s.locAddr (s.stackLoc t ((s.thread t).depth - 1))

/-- A push onto the call stack (R203): a store on path t, made at once; none at depth D. -/
def State.push (s : State) (t : Tid) (v : DWord) : Option State :=
  let th := s.thread t
  if (s.launchOf t).depth ≤ th.depth then none
  else
    some ((s.threadWrite t (s.stackLoc t th.depth) 8 v.toNat).modThread t fun th =>
      { th with depth := th.depth + 1 })

/-- What a pop answers (R203): the return PC, a trap, or a line to park on (R87). -/
inductive Popped where
  | ok (pc : DWord) (s : State)
  | trap (cause : Nat)
  | line (half line : Nat)

/-- A pop of the call stack (R203): a load on path t, which parks on an absent line. A return PC is taken as it stands
in bits 51:0, whatever its bits 1:0.
DESIGN CHOICE (assumption 128). -/
def State.pop (s : State) (t : Tid) : Popped :=
  let th := s.thread t
  if th.depth = 0 then .trap Cause.callStackOverflow
  else
    let l := s.stackLoc t (th.depth - 1)
    match s.lineAbsent t.team l 8 with
    | some (h, i) => .line h i
    | none =>
      if s.badLoc t.team l 8 then .trap Cause.dataUncorrectable
      else
        let r := s.seen .t (s.party t) t.team l 8
        if r.1 / 2 ^ 52 ≠ 0 then .trap Cause.addressForm
        else .ok (.ofNat 64 r.1) (r.2.modThread t fun th => { th with depth := th.depth - 1 })

/-- A window whose instruction is known to have faulted (R328). -/
def Window.faulted (w : Window) : Bool := w.complete && w.fault.isSome

/-- Entering the user handler (R324), the resume PC pushed: HND set, the PC at the handler, the
lookahead state kept for the return (R183). A fault that is known is met in place of the next instruction,
the handler's first (R328).
DEDUCED (assumption 58). -/
def Thread.enterHandler (th : Thread) (l : Launch) : Thread :=
  { th with
    hnd := true
    pc := l.codeBase + BitVec.ofNat 64 l.hoff
    saved := th.windows.filter fun w => !w.faulted
    windows := th.windows.filter Window.faulted }

/-- Leaving the user handler at the popped PC (R325): HND clear, the saved windows and pending sets
restored. -/
def Thread.leaveHandler (th : Thread) (pc : DWord) : Thread :=
  { th with hnd := false, pc := pc, windows := th.saved, saved := [] }

end Sys2Proof.Machine
end

