-- ==== Sys2Proof/Machine/Trace.lean ====
section
/-! DEFINITION. The Blotter's streams (R409-R413, R417, R418): which stream takes an event, the records
and the ring, lossy and lossless operation, and the event points at which an emitter stalls. -/

namespace Sys2Proof.Machine

/-! ## Fields of a stream's registers (R409) -/

def Stream.isOpen (t : Stream) : Bool := t.cfg.getLsbD 63
def Stream.lossless (t : Stream) : Bool := t.cfg.getLsbD 62
def Stream.tenant (t : Stream) : Nat := bitsOf t.cfg.toNat 55 48
def Stream.psamp (t : Stream) : Nat := bitsOf t.cfg.toNat 38 35
def Stream.hwm (t : Stream) : Nat := bitsOf t.cfg.toNat 31 28
def Stream.size (t : Stream) : Nat := 2 ^ (t.cfg.toNat % 32 + 10)
def Stream.stallTicks (t : Stream) : Nat := max 1 (bitsOf t.cfg.toNat 23 16) * 4000 * 8

/-- TAIL − HEAD (R409). -/
def Stream.occupancy (t : Stream) : Nat := t.tail.toNat - t.head.toNat

/-- The occupancy is at or above the high watermark (R417). -/
def Stream.atMark (t : Stream) : Bool := decide (t.hwm * t.size ≤ 16 * t.occupancy)

/-- A stream of a site. -/
def Site.stream (st : Site) (n : Nat) : Stream := AMap.getD st.streams n .reset

def State.modStream (s : State) (site n : Nat) (f : Stream → Stream) : State :=
  s.modSite site fun st => { st with streams := st.streams.set n (f (st.stream n)) }

/-- The open stream of a site that takes a tenant (R410). -/
def Site.streamOf (st : Site) (tenant : Nat) : Option Nat :=
  (List.range 8).find? fun n => (st.stream n).isOpen && (st.stream n).tenant == tenant

/-- The code of sampled gang-issue events (R413).
DEDUCED (assumption 45). -/
def codeGang : Nat := 0x1000

/-- Whether a stream's filter admits an event (R409): software events by SW, the others by their engine's
bit, gang issues also by the sample of the core's issues.
DEDUCED (assumption 45). -/
def Stream.admits (t : Stream) (code src gangs : Nat) : Bool :=
  if 0xE000 ≤ code then t.cfg.getLsbD 39
  else
    t.cfg.getLsbD (40 + src) &&
      (code != codeGang ||
        (t.psamp != 0 && gangs % 2 ^ (t.psamp - 1) == 0))

/-! ## Records (R411) -/

/-- An event: where, its code, engine, core, tenant, payload and the extension words of an extended
record, at a wafer time. -/
structure Event where
  site : Nat
  code : Nat
  src : Nat
  core : Nat
  tenant : Nat
  payload : Nat
  ext : Option (Nat × Nat)
  time : Nat
deriving DecidableEq, Repr

/-- The number for an engine that is not a core (R411). -/
def noCore : Nat := 0x1FFF

/-- The second word of a record. -/
def Event.word (e : Event) : Nat :=
  e.payload % 2 ^ 24 * 2 ^ 40 + e.tenant % 256 * 2 ^ 32 + e.src % 8 * 2 ^ 29 + e.core % 2 ^ 13 * 2 ^ 16 +
    e.code % 2 ^ 16

/-- One slot written at TAIL, which every reader then sees. -/
def State.putSlot (s : State) (site n w0 w1 : Nat) : State :=
  let t := (s.site site).stream n
  let base := bitsOf t.base.toNat 41 12 * 4096
  let a := site * 2 ^ 42 + base + 16 * (t.tail.toNat % t.size)
  { (s.shows a 16).modStream site n fun t => { t with tail := t.tail + 1 } with
    mem := (s.mem.writeNat a 8 w0).writeNat (a + 8) 8 w1 }

/-- The slots a record takes: an extended one starts at an even slot. -/
def Event.slots (e : Event) (t : Stream) : Nat :=
  match e.ext with
  | none => 1
  | some _ => 2 + t.tail.toNat % 2

/-- A record written, a pad before it where it needs one. -/
def State.putRecord (s : State) (n : Nat) (e : Event) : State :=
  match e.ext with
  | none => s.putSlot e.site n e.time e.word
  | some (x, y) =>
    let s := if ((s.site e.site).stream n).tail.toNat % 2 = 1 then
        s.putSlot e.site n e.time { e with code := 0, src := 0, payload := 0 }.word
      else s
    (s.putSlot e.site n e.time e.word).putSlot e.site n x y

/-- Whether a stream has room for a record. -/
def Stream.room (t : Stream) (k : Nat) : Bool := decide (t.occupancy + k ≤ t.size)

/-- The name of an emitter among a stream's stalls and losses: its engine and its core.
DEDUCED (assumption 44). -/
def emitter (src core : Nat) : Nat := src * 8192 + core % 8192

/-- The unit among those of a reticle's near-memory tier (R412) that an event's payload names: a command unit, or a Scribe
core. -/
def Event.unit (e : Event) : Nat :=
  if e.src ≠ 4 then 0 else if e.code = 0x2300 then 1 + e.payload / 2 ^ 22 % 4 else 5 + e.payload / 2 ^ 18 % 64

/-- The emitter of an event: of the near-memory tier, each unit by itself.
DEDUCED (assumption 44). -/
def Event.emitter (e : Event) : Nat := Machine.emitter e.src e.core + 65536 * e.unit

/-- A record that a stream itself writes, in an emitter's name. -/
def State.streamEvent (s : State) (site n code k payload : Nat) : Event :=
  { site, code, src := k / 8192 % 8, core := k % 8192, tenant := ((s.site site).stream n).tenant
    payload, ext := none, time := s.waferNs }

/-- R418: the fallback record of a stream that fell back, once there is room for it. -/
def State.putFallback (s : State) (site n : Nat) : State :=
  let t := (s.site site).stream n
  if t.fallback && t.room 1 then
    (s.putRecord n (s.streamEvent site n 0x0003 (emitter 0 noCore) 0)).modStream site n
      fun t => { t with fallback := false }
  else s

/-- R417: the loss record of a stream that dropped records, once there is room for it.
DEDUCED (assumption 44). -/
def State.putLoss (s : State) (site n : Nat) : State :=
  let t := (s.site site).stream n
  if t.lost ≠ 0 ∧ t.room 1 then
    (s.putRecord n (s.streamEvent site n 0x0001 t.lostBy (min t.lost 0xFFFFFF))).modStream site n
      fun t => { t with lost := 0 }
  else s

/-- R417: the record of a stall that is over, while there is room for it. -/
def State.putStall (s : State) (site n : Nat) (p : Nat × Nat × Nat) : State :=
  if ((s.site site).stream n).room 1 then
    (s.putRecord n { s.streamEvent site n 0x0002 p.1 (min (p.2.2 / 16) 0xFFFFFF) with time := p.2.1 }).modStream site n
      fun t => { t with owed := t.owed.drop 1 }
  else s

/-- The records of the stalls that are over, in order. -/
def State.putStalls (s : State) (site n : Nat) : State :=
  ((s.site site).stream n).owed.foldl (fun s p => s.putStall site n p) s

/-- What a stream owes its reader, written as soon as there is room, before any other record. -/
def State.putOwed (s : State) (site n : Nat) : State := ((s.putFallback site n).putStalls site n).putLoss site n

/-- A record of an emitter dropped: DROPS rises, saturating (R409, R417). -/
def Stream.drop (t : Stream) (k : Nat) : Stream :=
  let d := bitsOf t.stat.toNat 63 32
  { t with
    lost := t.lost + 1, lostBy := k
    stat := .ofNat 64 (setBits t.stat.toNat 63 32 (min (d + 1) 0xFFFFFFFF)) }

/-- An event emitted to the stream that takes it and admits it (R410, R417). -/
def State.emitEvent (s : State) (e : Event) : State :=
  match (s.site e.site).streamOf e.tenant with
  | none => s
  | some n =>
    if !((s.site e.site).stream n).admits e.code e.src (s.core e.core).gangCount then s
    else
      let s := s.putOwed e.site n
      if ((s.site e.site).stream n).room (e.slots ((s.site e.site).stream n)) then s.putRecord n e
      else s.modStream e.site n fun t => t.drop e.emitter

/-- An event of now. -/
def State.event (s : State) (site code src core tenant payload : Nat) (ext : Option (Nat × Nat)) : Event :=
  { site, code, src, core, tenant, payload, ext, time := s.waferNs }

def State.emit (s : State) (site code src core tenant payload : Nat) : State :=
  s.emitEvent (s.event site code src core tenant payload none)

/-- The tenant of a launch. -/
def State.tenantOf (s : State) (lid : Nat) : Nat := (s.launch lid).tenant

/-! ## Pickers that stand still (R215, R369, R417) -/

/-- A core's picker stands still. -/
def Core.stopped (c : Core) : Bool := c.stall.isSome || c.halted || c.bltStall

/-- A core's picker stands still from a clock on. -/
def State.stopPicker (s : State) (c from_ : Nat) (f : Core → Core) : State :=
  s.modCore c fun co => f (if co.stopped then co else { co with stopClock := from_ })

/-! ## Event points (R417) -/

/-- What an event point is to an emitter: no hindrance, one it may pass once since its stall has been logged,
or one it stands at. -/
inductive Gate where
  | clear
  | pass (n : Nat)
  | shut (n : Nat)

/-- The event point of an event. An emitter stands at it where its stream is lossless, admits the event and has
reached its watermark; one whose stall is over passes once there is room for its records. A stall is kept with its
start plus one; zero lets the emitter pass once.
DEDUCED (assumption 44). -/
def State.gate (s : State) (e : Event) : Gate :=
  match (s.site e.site).streamOf e.tenant with
  | none => .clear
  | some n =>
    let t := (s.site e.site).stream n
    if !t.admits e.code e.src (s.core e.core).gangCount then .clear
    else
      match AMap.find? e.emitter t.stalls with
      | some 0 => if t.lossless && !t.fell && !t.room (t.owed.length + e.slots t) then .shut n else .pass n
      | some _ => .shut n
      | none => if t.lossless && !t.fell && t.atMark then .shut n else .clear

/-- An emitter stalled on a stream, from now on if it is not already (R417, R418). -/
def State.stallAt (s : State) (site n k : Nat) : State :=
  let t := (s.site site).stream n
  if AMap.getD t.stalls k 0 ≠ 0 then s
  else
    (s.modStream site n fun t =>
      { t with stalls := t.stalls.set k (s.waferNs + 1), stat := t.stat ||| (1#64 <<< 30) }).due
      (.blotterStallTimeout site n) t.stallTicks

/-- The pass of an emitter used. -/
def State.usePass (s : State) (site n k : Nat) : State :=
  s.modStream site n fun t => { t with stalls := t.stalls.erase k }

/-- What an event point comes to. -/
inductive Point where
  | go (s : State)
  | stall (s : State)

/-- An emitter at an event point.
DEDUCED (assumption 44). -/
def State.point (s : State) (e : Event) : Point :=
  match s.gate e with
  | .clear => .go s
  | .pass n => .go (s.usePass e.site n e.emitter)
  | .shut n => .stall (s.stallAt e.site n e.emitter)

/-- An event in the midst of a step: where its engine must stall, the point is noted, and the step is not made
(`State.atPoints`).
DEDUCED (assumption 44). -/
def State.engineEvent (s : State) (e : Event) : State :=
  match s.gate e with
  | .clear => s.emitEvent e
  | .pass n => (s.usePass e.site n e.emitter).emitEvent e
  | .shut n => { s with stops := s.stops ++ [(e.site, n, e.emitter)] }

def State.report (s : State) (site code src core tenant payload : Nat) : State :=
  s.engineEvent (s.event site code src core tenant payload none)

/-- The emitters of some event points stalled, a picker among them standing still (R417). -/
def State.stallEmitters (s : State) (ps : List (Nat × Nat × Nat)) : State :=
  ps.foldl (fun s p =>
    let s := s.stallAt p.1 p.2.1 p.2.2
    if p.2.2 < 8192 then s.stopPicker p.2.2 s.clock fun co => { co with bltStall := true } else s) s

/-- A step that is to be made again in the next core clock: a step of the module is due then, but that the plan
finds a watchdog or a convergence window by itself; an instruction has not issued.
DEDUCED (assumption 44). -/
def State.remake (s : State) : Option Ev → State
  | none => { s with gang := none, scribe := none }
  | some (.watchdog _) | some (.convergenceTimeout _) => s
  | some e => s.due e coreTicks

/-- The outcome of a step of the module, or of an instruction, from a state: where an engine comes to an event
point at which it must stall, the step is held, and nothing of it is done yet (R417).
DEDUCED (assumption 44). -/
def State.atPoints (s : State) (e : Option Ev) : Out → Out
  | .next t => .next (if t.stops.isEmpty then t else (s.stallEmitters t.stops).remake e)
  | o => o

/-- The streams of a site without the passes of one core's picker.
DEDUCED (assumption 44). -/
def State.clearPass (s : State) (site core : Nat) : State :=
  s.modSite site fun st =>
    { st with streams := st.streams.map fun p =>
      (p.1, { p.2 with stalls := p.2.stalls.filter fun q => !(q.1 == emitter 0 core && q.2 == 0) }) }

/-- The core's picker at the event points of one issue: it stalls at the first that must, and the gang
has then not issued (R417).
DEDUCED (assumption 44). -/
def State.points (s : State) (core : Nat) : List Event → Point
  | [] => .go s
  | e :: es =>
    match s.point e with
    | .go s => s.points core es
    | .stall s =>
      .stall { s.stopPicker core s.clock (fun co => { co with bltStall := true }) with gang := none }

/-- The stall of one emitter over: its record is owed, and it may pass (R417). -/
def State.logStall (s : State) (site n : Nat) (p : Nat × Nat) : State :=
  if p.2 = 0 then s
  else
    s.modStream site n fun t =>
      { t with stalls := t.stalls.set p.1 0, owed := t.owed ++ [(p.1, p.2 - 1, s.waferNs - (p.2 - 1))] }

/-- Every stall of a stream over. -/
def State.logStalls (s : State) (site n : Nat) : State :=
  ((((s.site site).stream n).stalls.foldl (fun s p => s.logStall site n p) s).modStream site n fun t =>
    { t with stat := t.stat &&& ~~~(1#64 <<< 30) }).putOwed site n

end Sys2Proof.Machine
end

