-- ==== Sys2Proof/Machine/Issue.lean ====
section
/-! DEFINITION. How an instruction issues to its gang: the checks of R181 steps 4 to 9, taken by every
thread; the lookahead rules of R182 per thread; then each lane's or each squad's effect in ascending
issue position (R82, R192), the next PCs, the windows of long-latency instructions, the traps (R55) and
the leads (R40). Every SIMT meaning is one of the two skeletons here around its own effect. -/

namespace Sys2Proof.Machine

/-- The instruction a gang issues: its opcode, fields and bytes, the core, and its PC. -/
structure Issue where
  op : Op
  x : Ext
  len : Nat
  core : Nat
  pc : DWord
deriving DecidableEq, Repr

/-- The PC of the next instruction in program order (R174). -/
def Issue.nextPc (i : Issue) : DWord := i.pc + BitVec.ofNat 64 i.len

/-- What one lane's effect comes to. -/
inductive LaneOut where
  /-- The lane goes on at the next instruction. -/
  | next (s : State)
  /-- The lane goes on at a PC. -/
  | jump (s : State) (pc : DWord)
  /-- The lane traps, with no effect (R55, R320). -/
  | trap (cause : Nat) (addr : DWord)
  /-- The lane's effect is complete and it traps, to resume at the next instruction (R326). -/
  | trapNext (s : State) (cause : Nat) (addr : DWord)
  /-- The lane parks; its instruction is performed when it wakes (R49). -/
  | park (s : State) (p : Park)
  /-- The lane parks and its instruction is issued again when it wakes (R87, R71). -/
  | parkAgain (p : Park)
  /-- The access is held by a flip or a flush: the thread stays ready at the instruction (R352, R98). -/
  | hold
  /-- The thread stays ready at the instruction until what it waits for has come (R325). -/
  | wait
  /-- The lane's own effect has set what becomes of the thread (EXIT, DEFER, TLBINV). -/
  | stop (s : State)

/-- A lane is active when P(GP) xor GN = 1 (R178). -/
def laneActive (x : Ext) (th : Thread) : Bool := Bool.xor (th.p x.gp.toNat) x.gn

/-- The windows after one more instruction of the thread has issued (R182): a window counts down, and
one that has run out and is complete is gone.
DEDUCED (assumption 24). -/
def tickWindows (ws : List Window) : List Window :=
  (ws.map fun w => if w.left = 0 then w else { w with left := w.left - 1, issued := w.issued + 1 }).filter
    fun w => !(w.left == 0 && w.complete)

/-- A thread whose instruction has issued: the windows count, and its wait count starts again (R37). -/
def State.issued (s : State) (t : Tid) : State :=
  s.modThread t fun th => { th with windows := tickWindows th.windows, since := s.clock + 1, heldSince := none }

/-- A thread at a PC. -/
def State.goto (s : State) (t : Tid) (pc : DWord) : State := s.modThread t fun th => { th with pc := pc }

/-- A long-latency instruction's window opened (R182): L = LA instructions follow before the thread
waits. Its results are the given ones once `known`; it completes as a step of its own.
DEDUCED (assumption 24). -/
def State.openWindow (s : State) (i : Issue) (t : Tid) (known : Bool) (regs : List (Nat × Word))
    (preds : List (Nat × Bool)) (flags : Nat) (fault : Option (Nat × DWord)) : Nat × State :=
  let (id, s) := s.fresh
  let w : Window :=
    { id, pc := i.pc, left := i.x.la.toNat, issued := 0, pend := pendingSet i.op i.x, known,
      complete := false, regs, preds, flags, fault }
  let s := s.modThread t fun th => { th with windows := th.windows ++ [w] }
  (id, if known then
      s.due (match fault with
        | none => .longLatencyComplete t id
        | some (c, a) => .longLatencyFault t id (.ofNat 8 c) a) coreTicks
    else s)

/-- A long-latency instruction whose results are decided at issue. -/
def State.later (s : State) (i : Issue) (t : Tid) (regs : List (Nat × Word))
    (preds : List (Nat × Bool)) (flags : Nat) : LaneOut :=
  .next (s.openWindow i t true regs preds flags none).2

/-- A long-latency instruction that will fault after issue (R328). -/
def State.laterFault (s : State) (i : Issue) (t : Tid) (cause : Nat) (addr : DWord) : LaneOut :=
  .next (s.openWindow i t true [] [] 0 (some (cause, addr))).2

/-- Traps a thread takes in place of its next instruction, whatever that is: an uncorrectable register
(R338), or a long-latency instruction that has faulted (R328). -/
def Thread.pendingTrap (th : Thread) (t : Tid) : Option TrapRec :=
  if !th.badRegs.isEmpty then
    some ⟨t, Cause.dataUncorrectable, 0, th.pc, th.pc, false, true, 0⟩
  else
    match th.windows.find? Window.faulted with
    | some w =>
      let f := w.fault.getD (0, 0)
      some ⟨t, f.1, f.2, w.pc, th.pc, true, false, w.issued⟩
    | none => none

/-- The list without the first element that satisfies a test. -/
def withoutFirst {α : Type} (f : α → Bool) : List α → List α
  | [] => []
  | a :: as => if f a then as else a :: withoutFirst f as

/-- A thread that takes a long-latency fault loses that instruction's window (R328); another fault that is
known is met at its next issue. -/
def Thread.dropFaulted (th : Thread) : Thread :=
  { th with windows := if th.badRegs.isEmpty then withoutFirst Window.faulted th.windows else th.windows }

/-- The trap of a lane at the issued instruction, which is executed again on resume (R326). -/
def Issue.trapRec (i : Issue) (t : Tid) (cause : Nat) (addr : DWord) : TrapRec :=
  ⟨t, cause, addr, i.pc, i.pc, false, false, 0⟩

/-- R182: the instruction reads or writes a member of an open window's pending set. -/
def Issue.violates (i : Issue) (th : Thread) : Bool :=
  th.windows.any fun w => w.left != 0 && w.pend.conflicts i.op i.x

/-- What has come of the lanes so far: the state and the traps to take. -/
structure Progress where
  s : State
  traps : List TrapRec

/-- A thread whose access is held: a flip holds its wait count too (R355). -/
def State.holdThread (s : State) (t : Tid) : State :=
  if s.flipping then s.modThread t fun th => { th with heldSince := some (th.heldSince.getD s.clock) } else s

/-- A lane whose check of an address fails, or waits for a walk that is held. -/
def failLane (cause : Nat) (addr : DWord) : LaneOut := if cause = heldCause then .hold else .trap cause addr

/-- One lane's outcome applied: the thread advances, parks, or joins the traps. `s0` is the state
before the lane, to which a lane without effect leaves the machine. -/
def Progress.apply (p : Progress) (i : Issue) (t : Tid) (s0 : State) : LaneOut → Progress
  | .next s => { p with s := s.goto t i.nextPc }
  | .jump s pc => { p with s := s.goto t pc }
  | .trap c a => { s := s0, traps := p.traps ++ [i.trapRec t c a] }
  | .trapNext s c a =>
    { s := s.goto t i.nextPc
      traps := p.traps ++ [{ i.trapRec t c a with resume := i.nextPc }] }
  | .park s k => { p with s := s.modThread t fun th => { th with status := .parked k } }
  | .parkAgain k => { p with s := s0.modThread t fun th => { th with status := .parked k } }
  | .hold => { p with s := s0.holdThread t }
  | .wait => { p with s := s0 }
  | .stop s => { p with s := s }

/-- One thread of the gang: a trap that pends, a lookahead violation, an inactive lane, or the lane's
effect. -/
def issueLane (i : Issue) (guarded : Bool) (lane : Issue → Tid → State → LaneOut) (p : Progress)
    (m : Nat × Tid) : Progress :=
  let t := m.2
  let th := p.s.thread t
  match th.pendingTrap t with
  | some r => { s := p.s.modThread t Thread.dropFaulted, traps := p.traps ++ [r] }
  | none =>
    if i.violates th then
      { p with traps := p.traps ++ [i.trapRec t Cause.lookaheadViolation 0] }
    else
      let s1 := p.s.issued t
      if guarded && !laneActive i.x th then { p with s := s1.goto t i.nextPc }
      else p.apply i t p.s (lane i t s1)

/-- The squads of a gang, each once. -/
def Gang.squads (g : Gang) : List Sid := (g.members.map (·.2.sid)).dedup

/-- Squads moved to the back of a core's pick order, keeping their relative order (R39, R46). -/
def State.toBack (s : State) (c : Nat) (qs : List Sid) : State :=
  s.modCore c fun co =>
    { co with order := co.order.filter (fun q => !qs.contains q) ++ co.order.filter (qs.contains ·) }

/-- The PKIND of a park (R333). -/
def Park.kind : Park → Nat
  | .line _ _ => 1
  | .word _ => 2
  | .ring _ _ _ _ _ => 3
  | .tbar _ => 4
  | .lease => 5
  | .ssync _ => 6
  | .tracker _ _ => 7

/-- The PKIND of a thread's status, 0 where it is not parked. -/
def Status.kind : Status → Nat
  | .parked p => p.kind
  | _ => 0

/-- The record of a trap report (R413), at the lowest issue position of its threads. -/
def State.trapEvent (s : State) (r : TrapRec) : Event :=
  let c := s.coreOf r.tid.sid
  s.event (siteOf c) 0x1003 0 c (s.launchOf r.tid).tenant (r.cause * 2 ^ 16 + s.position r.tid) none

/-- The traps of a list that stand for their reports. -/
def State.leadTraps (s : State) (rs : List TrapRec) : List TrapRec :=
  rs.filter fun r => (rs.find? (s.sameReport r)) == some r

/-- Traps that come outside the issue of a gang, each report with its record (R413, R417). -/
def State.takeTrapsAside (s : State) (rs : List TrapRec) : State :=
  (s.leadTraps rs).foldl (fun s' r => s'.engineEvent (s.trapEvent r)) (s.takeTraps rs)

/-- The picker's events of one issue (R413): the issue, the parks by kind and the traps by report, each
with the lowest issue position. A park on the tracker is an event of its own (`State.exitThreads`).
DEDUCED (assumption 45). -/
def gangEvents (s0 : State) (p : Progress) (g : Gang) : List Event :=
  let l := match g.members with
    | m :: _ => s0.launchOf m.2
    | [] => .blank
  let ev := fun code payload => s0.event (siteOf g.core) code 0 g.core l.tenant payload none
  let issue := (g.members.length - 1) * 2 ^ 18 + (g.pc - l.codeBase).toNat / 4 % 2 ^ 18
  let parked := g.members.filter fun m =>
    (p.s.thread m.2).status.kind != 0 && (p.s.thread m.2).status.kind != 7 && !(p.traps.any fun r => r.tid == m.2)
  let parks := ((parked.map fun m => (p.s.thread m.2).status.kind).dedup).map fun k =>
    ev 0x1001 (k * 2 ^ 20 +
      ((parked.find? fun m => (p.s.thread m.2).status.kind == k).map Prod.fst).getD 0)
  [ev codeGang issue] ++ (if g.overdue then [ev 0x1002 issue] else []) ++ parks ++
    (s0.leadTraps p.traps).map fun r => ev 0x1003 (r.cause * 2 ^ 16 + s0.position r.tid)

/-- The launch whose threads the gang holds (R38). -/
def State.gangLaunch (s : State) (g : Gang) : Launch :=
  match g.members with
  | m :: _ => s.launchOf m.2
  | [] => .blank

/-- The end of an issue: the traps are taken, each squad's lead is settled, the squad chosen by R39
moves to the back, a gang of a memory-bound launch counts against the cap (R48), and no gang is chosen. Where a
lossless stream holds the picker at an event of the issue, the gang has not issued (R417). A lead of a gang of R45
that parks, traps or exits in its issue passes the lead by R40.
DEDUCED (assumption 93). DESIGN CHOICE (assumption 115). -/
def Progress.finish (p : Progress) (s0 : State) (g : Gang) : State :=
  let es := gangEvents s0 p g
  match s0.points g.core es with
  | .stall s => s
  | .go _ =>
    let s := (p.s.clearPass (siteOf g.core) g.core).takeTraps p.traps
    let s := s.toBack g.core g.move.toList
    let s := es.foldl State.emitEvent (g.squads.foldl (fun s q => s.relead q false) s)
    let s := s.modCore g.core fun co =>
      { co with
        gangCount := co.gangCount + 1
        membGangs := co.membGangs + if (s0.gangLaunch g).memb then 1 else 0 }
    { s with gang := none }

/-- Every thread of the gang takes one trap at the instruction, whatever its guard and its windows
(R181).
DEDUCED (assumption 34). -/
def trapGang (g : Gang) (cause : Nat) (addr : DWord) (s : State) : State :=
  let i : Issue := ⟨.nop, .zero, 4, g.core, g.pc⟩
  (g.members.foldl (issueLane i false fun _ _ _ => .trap cause addr) ⟨s, []⟩).finish s g

/-- R181 steps 4 to 9 on the instruction's words for a launch: the first check that fails. -/
def issueCheck (op : Op) (x : Ext) (l : Launch) : Option Nat :=
  match decodeCheck op x with
  | some c => some c
  | none =>
    if illegalRegister op x l.regs then some Cause.illegalRegister
    else if privilegedForm op x && !l.system then some Cause.privileged
    else none

/-- The skeleton of an instruction that acts lane by lane. `guarded` is false for the branches, whose
guard is their condition (R178, R201). -/
def simt (op : Op) (x : Ext) (len : Nat) (guarded : Bool) (lane : Issue → Tid → State → LaneOut)
    (s : State) : Out :=
  match s.gang with
  | none => .fault .noAgent
  | some g =>
    let i : Issue := ⟨op, x, len, g.core, g.pc⟩
    match issueCheck op x (s.gangLaunch g) with
    | some c => .next (trapGang g c 0 s)
    | none => .next ((g.members.foldl (issueLane i guarded lane) ⟨s, []⟩).finish s g)

/-- What a squad's effect comes to: the state with its effect, the threads that trap, those that park
to issue again, those that park to be woken, and whether the whole squad is held back. A thread in none
of these goes on at the next instruction. -/
structure SquadOut where
  s : State
  traps : List (Tid × Nat × DWord) := []
  again : List (Tid × Park) := []
  held : Bool := false

/-- Every given thread traps with one cause. -/
def SquadOut.trapAll (s : State) (ts : List Tid) (cause : Nat) (addr : DWord) : SquadOut :=
  { s, traps := ts.map fun t => (t, cause, addr) }

/-- Every given thread traps with the cause of an address's failure, or the squad waits for a walk that is
held. -/
def SquadOut.fail (s : State) (ts : List Tid) (cause : Nat) (addr : DWord) : SquadOut :=
  if cause = heldCause then { s, held := true } else .trapAll s ts cause addr

/-- A thread after its squad's effect. -/
def SquadOut.settle (o : SquadOut) (i : Issue) (s0 : State) (p : Progress) (t : Tid) : Progress :=
  match o.traps.find? (·.1 == t) with
  | some (_, c, a) =>
    { s := p.s.modThread t fun th =>
        { th with windows := (s0.thread t).windows, since := (s0.thread t).since
                  heldSince := (s0.thread t).heldSince }
      traps := p.traps ++ [i.trapRec t c a] }
  | none =>
    match o.again.find? (·.1 == t) with
    | some (_, k) =>
      { p with s := p.s.modThread t fun th =>
        { th with windows := (s0.thread t).windows, status := .parked k } }
    | none => { p with s := p.s.goto t i.nextPc }

/-- One squad of the gang. Where a thread of it takes a pending trap or violates a window, that thread
traps; then a collective instruction does not issue to the squad, which is no longer complete (R41,
R55), and any other issues to the rest. -/
def issueSquad (i : Issue) (collective : Bool)
    (f : Issue → Sid → List Tid → State → SquadOut) (g : Gang) (p : Progress) (q : Sid) : Progress :=
  let all := (g.members.filter fun m => m.2.sid == q).map (·.2)
  let pend := all.filterMap fun t => (p.s.thread t).pendingTrap t
  let bad := all.filter fun t =>
    ((p.s.thread t).pendingTrap t).isNone && i.violates (p.s.thread t)
  let s := pend.foldl (fun s r => s.modThread r.tid Thread.dropFaulted) p.s
  let traps := p.traps ++ pend ++ bad.map fun t => i.trapRec t Cause.lookaheadViolation 0
  let ok := all.filter fun t => !(bad.contains t || (pend.map (·.tid)).contains t)
  if collective && ok.length != all.length then { s, traps }
  else
    let s1 := ok.foldl State.issued s
    let o := f i q (ok.filter fun t => laneActive i.x (s.thread t)) s1
    if o.held then { s := ok.foldl State.holdThread s, traps } else ok.foldl (o.settle i s) { s := o.s, traps }

/-- The skeleton of an instruction that acts squad by squad: the squad-collective instructions (R41)
and the engine commands (R270). The effect is given the squad's active threads by lane.
DESIGN CHOICE (assumption 87). -/
def simtSquad (op : Op) (x : Ext) (len : Nat) (f : Issue → Sid → List Tid → State → SquadOut)
    (s : State) : Out :=
  match s.gang with
  | none => .fault .noAgent
  | some g =>
    let i : Issue := ⟨op, x, len, g.core, g.pc⟩
    match issueCheck op x (s.gangLaunch g) with
    | some c => .next (trapGang g c 0 s)
    | none =>
      .next ((g.squads.foldl (issueSquad i (op.uses x).collective f g) ⟨s, []⟩).finish s g)

/-- A fetch or decode failure of R181 steps 1 to 7: every thread of the gang traps.
DESIGN CHOICE (assumption 87). -/
def fetchTrap (cause : Nat) (addr : DWord) (s : State) : Out :=
  match s.gang with
  | none => .fault .noAgent
  | some g => .next (trapGang g cause addr s)

end Sys2Proof.Machine
end

