-- ==== Sys2Proof/Machine/Picker.lean ====
section
/-! DEFINITION. The picker (R37-R48): fetching a gang's instruction (R174, R181 step 1), holding threads
at squad-collective instructions (R41, R42), choosing the leading thread (R39, R45) and forming the
gang (R38). -/

namespace Sys2Proof.Machine

/-! ## Fetching -/

/-- What a fetch answers: the instruction's bits, or the trap of every thread of the gang. -/
inductive Fetched where
  | ok (bits : Nat) (s : State)
  | trap (cause : Nat) (addr : DWord) (s : State)

/-- The `n` words at a virtual address, translated for fetching (R342): the first that cannot be read
gives its fault and its address, or that a flip or a flush holds it.
DEDUCED (assumption 34). -/
def State.fetchWords (s : State) (core : Nat) (sp : Space) : (va n : Nat) → Fetched
  | _, 0 => .ok 0 s
  | va, n + 1 =>
    match s.translate core sp va .fetch with
    | .error c => .trap c (.ofNat 64 va) s
    | .ok (pa, s1) =>
      if s.accessHeld pa then .trap heldCause (.ofNat 64 va) s
      else if s1.badLoc 0 (.glob pa) 4 then .trap Cause.dataUncorrectable (.ofNat 64 va) s1
      else
        match s1.fetchWords core sp (va + 4) n with
        | .trap c a s2 => .trap c a s2
        | .ok w s2 => .ok (s2.readLoc 0 (.glob pa) 4 + 2 ^ 32 * w) s2

/-- The instruction of a launch at a PC (R174): CODE_BOUNDS where a byte of it lies outside the code
object.
DEDUCED (assumption 58). -/
def State.fetchAt (s : State) (core : Nat) (l : Launch) (pc : DWord) : Fetched :=
  let lo := l.codeBase.toNat
  let hi := lo + l.codeLen
  let p := pc.toNat
  if p < lo ∨ hi < p + 4 then .trap Cause.codeBounds 0 s
  else
    match s.fetchWords core l.space p 1 with
    | .trap c a s1 => .trap c a s1
    | .ok w s1 =>
      if instrLen w = 4 then .ok w s1
      else if hi < p + instrLen w then .trap Cause.codeBounds 0 s1
      else
        match s1.fetchWords core l.space (p + 4) (instrLen w / 4 - 1) with
        | .trap c a s2 => .trap c a s2
        | .ok w' s2 => .ok (w + 2 ^ 32 * w') s2

/-- The opcode at a PC, where an instruction of it stands there that passes the decode checks. -/
def State.opAt (s : State) (core : Nat) (l : Launch) (pc : DWord) : Option Op :=
  match s.fetchAt core l pc with
  | .trap _ _ _ => none
  | .ok w _ =>
    match decodeSimt w with
    | .trap _ => none
    | .ok i _ => i.simt.map fun p => p.1

/-- The squad-collective instructions that only complete squads issue (R41). -/
def isCollective (op : Op) : Bool := (op.uses .zero).collective

/-- Those that require that no thread of the squad has exited (R41). -/
def isFullSquad : Op → Bool
  | .mma | .mmap | .mzero | .mdrain | .quant => true
  | _ => false

/-! ## Holding -/

/-- The thread stands at the PC in the present clock: ready or held there (R41, R42). A thread whose
instruction issues in this clock is ready in the next. -/
def State.standsAt (s : State) (pc : DWord) (t : Tid) : Bool :=
  let th := s.thread t
  th.pc == pc && ((th.isReady && decide (th.since ≤ s.clock)) || th.status == .held)

/-- Every live thread of the squad is gathered at the PC (R41, R42). -/
def State.gathered (s : State) (q : Sid) (pc : DWord) : Bool := (s.liveOf q).all (s.standsAt pc)

/-- Held threads of a list released as ready in the present clock (R42, R50). -/
def State.release (s : State) (ts : List Tid) : State :=
  ts.foldl (fun s t => if (s.thread t).status == .held then s.wake t else s) s

/-- The squad's window closed. -/
def State.closeWindow (s : State) (q : Sid) : State := s.modSquad q fun sq => { sq with window := none }

/-- ILLEGAL_CONVERGENCE on the given threads, each at its own PC (R41, R42). -/
def State.trapConvergence (s : State) (ts : List Tid) : State :=
  s.takeTrapsAside <| ts.map fun t =>
    ⟨t, Cause.illegalConvergence, 0, (s.thread t).pc, (s.thread t).pc, false, false, 0⟩

/-- R41, R42 for the threads of a squad that stand at a squad-collective instruction: a full-squad
instruction traps them where a thread has exited, a complete squad is released, an incomplete one is
held, and the first hold opens the convergence window of 64 clocks.
DEDUCED (assumption 28). -/
def State.holdAt (s : State) (q : Sid) (op : Op) (pc : DWord) : State :=
  let here := (s.liveOf q).filter (s.standsAt pc)
  if isFullSquad op && (s.liveOf q).length != (s.threadsOf q).length then s.trapConvergence here
  else if s.gathered q pc then
    (if (s.squad q).window.isSome then (s.release here).closeWindow q else s.release here)
  else if here.isEmpty then s
  else
    let s := here.foldl (fun s t => s.modThread t fun th => { th with status := .held }) s
    if (s.squad q).window.isSome then s
    else s.modSquad q fun sq => { sq with window := some (s.clock, pc) }

/-- Whether a reticle's core clock, slower than 1.6 GHz, has no edge in the present round (R430).
DESIGN CHOICE (assumption 12). -/
def State.skips (s : State) (site : Nat) : Bool := decide (1600 ≤ (s.site site).lag)

/-- The squads of a core whose convergence window has lasted 64 clocks (R42). A picker that stands still
stops the window. -/
def State.lateSquads (s : State) (co : Core) : List Sid :=
  if co.stopped then []
  else co.order.filter fun q =>
    match (s.squad q).window with
    | some (c0, _) => decide (c0 + 64 ≤ s.clock)
    | none => false

/-- The squads of the module whose convergence window ends with the present clock. -/
def State.windowsOver (s : State) : List Sid :=
  s.cores.flatMap fun p => if s.skips (siteOf p.1) then [] else s.lateSquads p.2

/-- The PCs at which threads of a squad are ready or held. -/
def State.pcsOf (s : State) (q : Sid) : List DWord :=
  (((s.threadsOf q).map s.thread).filter fun th => th.isReady || th.status == .held).map (·.pc) |>.dedup

/-- The opcode at a PC of a squad, in its code object or the launch's. -/
def State.opIn (s : State) (core : Nat) (q : Sid) (pc : DWord) : Option Op :=
  let l := s.teamLaunch q.team
  match s.opAt core { l with codeBase := (s.squad q).code } pc with
  | some op => some op
  | none => s.opAt core l pc

/-- The holds and the lead of one squad brought up to date (R40-R42).
DEDUCED (assumption 28). -/
def State.settleSquad (s : State) (core : Nat) (q : Sid) : State :=
  let s := (s.pcsOf q).foldl (fun s pc =>
    match s.opIn core q pc with
    | some op => if isCollective op then s.holdAt q op pc else s
    | none => s) s
  s.relead q false

/-- Every squad of a core brought up to date.
DEDUCED (assumption 28). -/
def State.settleCore (s : State) (c : Nat) : State :=
  (s.core c).order.foldl (fun s q => s.settleSquad c q) s

/-! ## Choosing -/

/-- The ready threads of a core, in the order of its squads' starts and their lanes (R45). -/
def State.readyOn (s : State) (c : Nat) : List Tid :=
  (((s.core c).order.flatMap s.threadsOf).filter fun t => (s.thread t).isReady)

/-- Whether a thread is overdue (R44). -/
def State.overdue (s : State) (t : Tid) : Bool :=
  !(s.launchOf t).noprom && decide ((s.launchOf t).shot ≤ (s.thread t).waitCount s.clock)

/-- Whether thread `t` comes before `u` under R45: the larger wait count, the squad started earlier,
the lower lane. -/
def State.before (s : State) (t u : Tid) : Bool :=
  let a := (s.thread t).waitCount s.clock
  let b := (s.thread u).waitCount s.clock
  if a ≠ b then decide (b < a)
  else if t.sid = u.sid then decide (t.lane < u.lane)
  else decide ((s.squad t.sid).started < (s.squad u.sid).started)

/-- The first of a list under R45. -/
def State.mostOverdue (s : State) : List Tid → Option Tid
  | [] => none
  | t :: ts =>
    match s.mostOverdue ts with
    | none => some t
    | some u => if s.before t u then some t else some u

/-- Whether the congestion cap passes a squad over (R48, R73).
DEDUCED (assumption 93). -/
def State.capped (s : State) (c : Nat) (q : Sid) : Bool :=
  (s.teamLaunch q.team).memb && decide ((s.core c).cap ≤ (s.core c).membGangs)

/-- R39: the lead of the first squad in pick order whose lead is ready and that the cap lets pass. -/
def State.normalLead (s : State) (c : Nat) : Option Tid :=
  (s.core c).order.findSome? fun q =>
    match (s.squad q).lead with
    | none => none
    | some l =>
      let t : Tid := ⟨q.team, q.squad, l⟩
      if (s.thread t).isReady && !s.capped c q then some t else none

/-- A list of threads and positions kept in ascending order of position. -/
def insertMember (m : Nat × Tid) : List (Nat × Tid) → List (Nat × Tid)
  | [] => [m]
  | n :: ns => if m.1 < n.1 then m :: n :: ns else n :: insertMember m ns

/-- R38 step 3 for one squad: its ready threads at the PC whose positions are free; for a
squad-collective instruction, the whole squad or none of it (R41). -/
def State.join (s : State) (pc : DWord) (coll : Bool) (ms : List (Nat × Tid)) (q : Sid) :
    List (Nat × Tid) :=
  let ts := (s.threadsOf q).filter fun t => (s.thread t).isReady && (s.thread t).pc == pc
  let free := ts.filter fun t => !ms.any fun m => m.1 == s.position t
  if coll && (free.length != (s.liveOf q).length) then ms
  else free.foldl (fun ms t => insertMember (s.position t, t) ms) ms

/-- R38: the gang that a leading thread forms. -/
def State.formGang (s : State) (c : Nat) (t : Tid) (move : Option Sid) : Gang :=
  let pc := (s.thread t).pc
  let coll := match s.opAt c (s.codeOf t) pc with
    | some op => isCollective op
    | none => false
  let first := s.join pc false [] t.sid
  let lid := (s.team t.team).lid
  let others := (s.core c).order.filter fun q => q != t.sid && (s.team q.team).lid == lid
  { core := c, pc, move, members := others.foldl (s.join pc coll) first, overdue := move.isNone }

/-- The congestion cap that a core applies in an aligned window of 64 core clocks (R73): the reticle's as it stood when
the window began. A sample taken in the clock in which a window begins applies from the one after.
DEDUCED (assumption 93). DESIGN CHOICE (assumption 123). -/
def State.openMembWindow (s : State) (c : Nat) : State :=
  let w := s.clock / 64
  if (s.core c).membWindow = w ∧ (s.core c).cap = (s.site (siteOf c)).windowCap then s
  else
    s.modCore c fun co =>
      { co with
        membWindow := w
        membGangs := if co.membWindow = w then co.membGangs else 0
        cap := (s.site (siteOf c)).windowCap }

/-- The code object in which a gang's instruction is fetched. -/
def State.gangCode (s : State) (g : Gang) : Launch :=
  match g.members with
  | m :: _ => s.codeOf m.2
  | [] => .blank

/-- The gang a core issues in the present clock, if it issues one (R38, R39, R45). -/
def State.pick (s : State) (c : Nat) : Option Gang :=
  match s.mostOverdue ((s.readyOn c).filter s.overdue) with
  | some t => some (s.formGang c t none)
  | none => (s.normalLead c).map fun t => s.formGang c t (some t.sid)

/-- The threads of a core whose wait counts have reached the watchdog's limit (R47). -/
def State.watched (s : State) (c : Nat) : List Tid :=
  (s.readyOn c).filter fun t =>
    decide (16 * (s.launchOf t).shot ≤ (s.thread t).waitCount s.clock)

/-- A core's state with its gang chosen, ready for the instruction; nothing chosen where it issues
none.
DEDUCED (assumption 28). -/
def State.choose (s : State) (c : Nat) : State :=
  let s := (s.openMembWindow c).settleCore c
  match s.pick c with
  | none => s
  | some g => { s with gang := some g }

end Sys2Proof.Machine
end

