-- ==== Sys2Proof/Machine/Operands.lean ====
section
/-! DEFINITION. The operand forms: operand B (R177), k registers (R170), effective addresses (R177,
R192), completion and operand-word pairs, and integers of the types of R193 read from and written to
registers. -/

namespace Sys2Proof.Machine

/-- An 8-bit immediate sign-extended to 64 bits. -/
def sext8 (i : BitVec 8) : DWord := i.signExtend 64

/-- K(i) for a thread (R170). -/
def State.k (s : State) (t : Tid) (i : Nat) : DWord :=
  (s.launchOf t).k (s.team t.team).lid s.moduleId i

/-- OperandB() as `n` words (R177): the immediate extended, a k register, or the registers B names. -/
def operandB (s : State) (x : Ext) (t : Tid) (n : Nat) : Nat :=
  if x.sel = 1 then (sext8 x.imm).toNat % 2 ^ (32 * n) + (if n = 4 ∧ x.imm.msb then 2 ^ 128 - 2 ^ 64 else 0)
  else if x.sel = 2 then x.imm.toNat
  else if x.bk then (s.k t x.b.toNat).toNat % 2 ^ (32 * n)
  else (s.thread t).xs x.b.toNat n

/-- The 64-bit operand word: K(B) with BK = 1, or XP(B) (R252, R272). -/
def opWord (s : State) (x : Ext) (t : Tid) : DWord :=
  if x.bk then s.k t x.b.toNat else .ofNat 64 ((s.thread t).xs x.b.toNat 2)

/-- XP(i) (R169, R192). -/
def Thread.xp (th : Thread) (i : Nat) : DWord := .ofNat 64 (th.xs i 2)

/-- The displacement of a memory operand (R177): K(B), the literal, or IMM8B sign-extended; in FADDW
with SUB 0, whose IMM8B is the threshold, 0 in place of IMM8B (R226). -/
def displacement (s : State) (i : Issue) (t : Tid) : DWord :=
  if i.x.bk then s.k t i.x.b.toNat
  else
    match i.x.lit with
    | some v => v
    | none => if i.op = .faddw ∧ i.x.sub = 0 then 0 else sext8 i.x.imm

/-- EffAddr(): XP(A) plus the displacement, modulo 2^64 (R192). -/
def effAddr (s : State) (i : Issue) (t : Tid) : DWord :=
  (s.thread t).xp i.x.a.toNat + displacement s i t

/-! ## Integers (R133, R134, R193) -/

/-- The width of an integer or bit type. -/
def tyBits (ty : Ty) : Nat := 8 * ty.size

/-- Whether a type is signed where signedness matters; b32 acts as i32 (R193). -/
def tySigned : Ty → Bool
  | .b32 | .i8 | .i16 | .i32 | .i64 => true
  | _ => false

/-- The low `w` bits of a number as a two's-complement or unsigned value (R133). -/
def intVal (signed : Bool) (w v : Nat) : Int :=
  let u := v % 2 ^ w
  if signed && decide (2 ^ (w - 1) ≤ u) then (u : Int) - 2 ^ w else u

/-- A value modulo 2^w. -/
def wrapTo (w : Nat) (v : Int) : Nat := (v % 2 ^ w).toNat

/-- The largest and smallest values of an integer type. -/
def intMax (signed : Bool) (w : Nat) : Int := if signed then 2 ^ (w - 1) - 1 else 2 ^ w - 1
def intMin (signed : Bool) (w : Nat) : Int := if signed then -(2 ^ (w - 1)) else 0

/-- A value clamped to a type's range, and whether it was clamped (R134). -/
def clampTo (signed : Bool) (w : Nat) (v : Int) : Int × Bool :=
  if v < intMin signed w then (intMin signed w, true)
  else if intMax signed w < v then (intMax signed w, true)
  else (v, false)

/-- A source operand's value under an integer type (R193). -/
def srcInt (ty : Ty) (v : Nat) : Int := intVal (tySigned ty) (tyBits ty) v

/-- A result as the register or pair holds it: reduced to the type's width, then extended to 32 bits
where it is narrower (R193). -/
def fillInt (ty : Ty) (v : Int) : Nat :=
  let w := tyBits ty
  if w < 32 then wrapTo 32 (intVal (tySigned ty) w (wrapTo w v)) else wrapTo w v

/-- The number `v` of a lane's result written to D as the type's registers. -/
def State.writeD (s : State) (i : Issue) (t : Tid) (n v : Nat) : State :=
  s.modThread t fun th => th.setXs i.x.d.toNat n v

/-- Flags ORed into the lane's FFLAGS (R144). -/
def State.raiseFlags (s : State) (t : Tid) (f : Nat) : State := s.modThread t fun th => th.raise f

end Sys2Proof.Machine
end

