-- ==== Sys2Proof/Machine/Tasks.lean ====
section
/-! DEFINITION. Completion signals (R112-R115) and task records (R63-R67): the events on a record, its
passage to READY and to DONE, and the ready queues. -/

namespace Sys2Proof.Machine

/-! ## Fields of a task record at a physical address (R63) -/

def recWord (s : State) (pa off : Nat) : Nat := s.mem.readNat (pa + off) 8

def recState (s : State) (pa : Nat) : Nat := bitsOf (recWord s pa 0) 34 32
def recCount (s : State) (pa : Nat) : Int := intVal true 32 (recWord s pa 0)
def recScribe (s : State) (pa : Nat) : Bool := bitOf (recWord s pa 0) 42
def recReduces (s : State) (pa : Nat) : Bool := bitOf (recWord s pa 0) 41
def recIdem (s : State) (pa : Nat) : Bool := bitOf (recWord s pa 0) 40
def recPrio (s : State) (pa : Nat) : Nat := bitsOf (recWord s pa 0) 52 48
def recSqn (s : State) (pa : Nat) : Nat := bitsOf (recWord s pa 0) 62 58 + 1
def recSqw (s : State) (pa : Nat) : Nat := 8 * 2 ^ bitsOf (recWord s pa 0) 57 56
def recEntry (s : State) (pa : Nat) : Nat := bitsOf (recWord s pa 8) 31 0
def recCode (s : State) (pa : Nat) : Nat := bitsOf (recWord s pa 0x10) 51 0
def recArg (s : State) (pa : Nat) : Nat := bitsOf (recWord s pa 0x18) 51 0
def recLid (s : State) (pa : Nat) : Nat := bitsOf (recWord s pa 0x20) 63 32
def recStack (s : State) (pa : Nat) : Nat := bitsOf (recWord s pa 0x20) 17 16
def recBlock (s : State) (pa : Nat) : Nat := bitsOf (recWord s pa 0x20) 11 8
def recDone (s : State) (pa : Nat) : DWord := .ofNat 64 (recWord s pa 0x30)

/-- The reticle of a task (R63): its SITE, or the site that holds the record. -/
def recSite (s : State) (pa : Nat) : Nat :=
  let v := bitsOf (recWord s pa 0x20) 5 0
  if v = 63 then siteOfPa pa else v

/-- A 64-bit word of a record updated by an agent, on path t (R108). -/
def State.setRec (s : State) (a : Party) (pa off v : Nat) : State := s.updateLoc a 0 (.glob (pa + off)) 8 v

def State.setRecState (s : State) (a : Party) (pa st : Nat) : State :=
  s.setRec a pa 0 (setBits (recWord s pa 0) 34 32 st)

def State.setRecCount (s : State) (a : Party) (pa : Nat) (v : Int) : State :=
  s.setRec a pa 0 (setBits (recWord s pa 0) 31 0 (wrapTo 32 v))

/-- R64: an error is recorded in ECOUNT, which saturates at 255, and ECAUSE. -/
def State.recError (s : State) (a : Party) (pa cause : Nat) : State :=
  let w := recWord s pa 0x38
  s.setRec a pa 0x38 (setBits (setBits w 39 32 (min (bitsOf w 39 32 + 1) 255)) 47 40 cause)

/-- R63: a bit that must be zero is not. -/
def recReserved (s : State) (pa : Nat) : Bool :=
  let w0 := recWord s pa 0
  let w4 := recWord s pa 0x20
  let w7 := recWord s pa 0x38
  bitOf w0 63 || bitsOf w0 55 53 != 0 || bitsOf w0 47 43 != 0 || bitsOf w0 39 35 != 0 ||
    bitsOf (recWord s pa 8) 63 32 != 0 || bitsOf (recWord s pa 0x10) 63 52 != 0 ||
    bitsOf (recWord s pa 0x18) 63 52 != 0 || bitsOf w4 31 18 != 0 || bitsOf w4 15 12 != 0 ||
    bitsOf w4 7 6 != 0 || bitsOf w7 63 48 != 0 || bitsOf w7 31 0 != 0

/-- R64: the fields for which TSPAWN and DEFER refuse a record: STATE 6 or 7, an RSV bit, SITE 60-62,
BLOCK 12-14, and for a SIMT record a width other than the launch's. -/
def recMalformed (s : State) (pa width : Nat) : Bool :=
  decide (6 ≤ recState s pa) || recReserved s pa ||
    (60 ≤ bitsOf (recWord s pa 0x20) 5 0 && bitsOf (recWord s pa 0x20) 5 0 != 63) ||
    (12 ≤ recBlock s pa && recBlock s pa != 15) ||
    (!recScribe s pa && recSqw s pa != width)

/-! ## Completion operands (R112) -/

/-- The address and the kind of a completion operand. -/
def sigAddr (op : DWord) : DWord := op &&& ~~~7#64
def sigKind (op : DWord) : Nat := op.toNat % 8

/-- R112's checks on a completion operand: the cause and the address of the trap, if one fails. `team`
is none where only the global form is allowed. A flip or a flush holds the check where it holds the walk (R98, R352),
which is the cause `heldCause`; the word itself is not accessed. -/
def State.checkCompletion (s : State) (core : Nat) (team : Option Nat) (sp : Space) (op : DWord) :
    Except (Nat × DWord) State :=
  let a := sigAddr op
  if a = 0 then .ok s
  else if sigKind op = 0 ∨ 3 < sigKind op then .error (Cause.reservedBits, 0)
  else if sigKind op = 3 ∧ bitsOf op.toNat 5 3 ≠ 0 then .error (Cause.alignment, a)
  else if (sigKind op = 3 ∨ team.isNone) ∧ isScratch a then .error (Cause.addressForm, a)
  else
    match s.checkAddr core (team.getD 0) sp a 8 8 .write with
    | .ok _ s => .ok s
    | .trap c => .error (c, a)
    | .absent => .error (Cause.nonresident, a)
    | .held =>
      match s.translateWalk sp a.toNat .write with
      | .ok (_, s) => .ok s
      | .error c => .error (c, a)

/-- Whether a flip or a flush holds a signal (R98, R352). -/
def State.sigHeld (s : State) (g : Sig) : Bool :=
  let a := sigAddr g.op
  a != 0 && !isScratch a &&
    (match s.translateAccess g.sp a.toNat .write with
      | .error c => c == heldCause
      | .ok _ => false)

/-- Where a completion operand's address leads. -/
def State.sigLoc (s : State) (g : Sig) : Option (Loc × State) :=
  let a := sigAddr g.op
  if isScratch a then some (.scr (scratchHalf a) (scratchOff a), s)
  else
    match s.translateWalk g.sp a.toNat .write with
    | .ok (pa, s) => some (.glob pa, s)
    | .error _ => none

/-- The number after `n` in a 56-bit sequence that skips 0 (R114). -/
def nextSeq (n : Nat) : Nat := if n + 1 = 2 ^ 56 then 1 else n + 1

/-- The next SEQ of a team, or of the module's own stamps (R114). That of a team that has left its cores counts on. -/
def State.nextStamp (s : State) : Option Nat → Nat × State
  | some team =>
    match AMap.find? team s.pastStamps with
    | some n => (nextSeq n, { s with pastStamps := s.pastStamps.set team (nextSeq n) })
    | none =>
      let v := nextSeq (s.team team).stamps
      (v, s.modTeam team fun t => { t with stamps := v })
  | none => (nextSeq s.stampSeq, { s with stampSeq := nextSeq s.stampSeq })

/-! ## Readying a task -/

/-- R67: a Scribe task that cannot run: its stack has no live Scribe core, or its site is out. -/
def State.unrunnable (s : State) (pa : Nat) : Bool :=
  let st := s.site (recSite s pa)
  recScribe s pa && (st.out || bitsOf st.scdead.toNat (16 * recStack s pa + 15) (16 * recStack s pa) == 65535)

/-- The most tasks a ready queue holds (R66). -/
def readyLimit : Nat := 2 ^ 20

/-- The task of a record as its ready queue holds it. -/
def readyTask (s : State) (pa : Nat) : ReadyTask :=
  { prio := recPrio s pa, addr := pa, lid := recLid s pa, scribe := recScribe s pa,
    stack := recStack s pa, block := recBlock s pa, sqn := recSqn s pa }

/-- A task appended to a ready queue (R66): the last record of its level is linked to it.
DESIGN CHOICE (assumption 25). -/
def State.appendTask (s : State) (site : Nat) (t : ReadyTask) : State :=
  let s1 := match ((s.site site).readyQ.filter fun u => u.prio == t.prio).getLast? with
    | some u => s.setRec .module u.addr 0x28 t.addr
    | none => s
  (s1.setRec .module t.addr 0x28 0).modSite site fun st => { st with readyQ := st.readyQ ++ [t] }

/-- The task before one in a list, and the one behind it. -/
def neighbours (pa : Nat) : List ReadyTask → Option (ReadyTask × Nat)
  | t :: u :: ts =>
    if u.addr = pa then some (t, (ts.head?.map (·.addr)).getD 0) else neighbours pa (u :: ts)
  | _ => none

/-- A task out of a ready queue (R66): the record before it at its level is linked past it.
DESIGN CHOICE (assumption 25). -/
def State.removeTask (s : State) (site : Nat) (t : ReadyTask) : State :=
  let s1 := match neighbours t.addr ((s.site site).readyQ.filter fun u => u.prio == t.prio) with
    | some (u, next) => s.setRec .module u.addr 0x28 next
    | none => s
  s1.modSite site fun st =>
    { st with
      readyQ := st.readyQ.filter fun u => u.addr != t.addr
      overflow := st.overflow.filter fun u => u.addr != t.addr }

/-- The tasks that Barrel keeps for want of room are appended as far as there is room (R66). -/
def State.refill (s : State) (site : Nat) : State :=
  let st := s.site site
  let n := readyLimit - st.readyQ.length
  if st.overflow.isEmpty then s
  else
    ((st.overflow.take n).foldl (fun s t => s.appendTask site t)
      (s.modSite site fun st => { st with overflow := st.overflow.drop n })).due (.taskDispatch site) 0

/-- A record passes to DONE or ABANDONED (R63): it is live no more. -/
def State.endRecord (s : State) (pa st : Nat) : State :=
  { s.setRecState .module pa st with tasks := s.tasks.erase pa }

/-- The record's DONE operand (R63), in the address space of its launch. -/
def State.doneSig (s : State) (pa : Nat) (failed : Bool) (cause : Nat) : Sig :=
  { core := 0, team := none, sp := (s.launch (recLid s pa)).space, op := recDone s pa, n := 1, failed, cause
    agent := .module }

/-- What readying a task comes to: the state, whether the queue was full, and a DONE to signal. -/
structure Readied where
  s : State
  full : Bool
  done : Option Sig

/-- A record passes to READY and into its ready queue, by an agent's event (R66); a Scribe task that cannot run passes
at once to DONE (R67).
DESIGN CHOICE (assumption 25). -/
def State.makeReady (s : State) (a : Party) (pa : Nat) : Readied :=
  if s.unrunnable pa then
    let s1 := (s.recError a pa Cause.coreRetired).endRecord pa 4
    ⟨s1, false, some (s1.doneSig pa true Cause.coreRetired)⟩
  else
    let s1 := s.setRecState a pa 2
    let n := recSite s pa
    let t := readyTask s1 pa
    if (s1.site n).readyQ.length < readyLimit then
      ⟨(s1.appendTask n t).due (.taskDispatch n) 0, false, none⟩
    else ⟨s1.modSite n fun st => { st with overflow := st.overflow ++ [t] }, true, none⟩

/-! ## The counter events (R64) -/

/-- What a counter event comes to: done, with the record to ready or not; or the cause of its trap. -/
inductive CountEv where
  | done (s : State) (ready : Bool)
  | trap (cause : Nat)

/-- TDEC by d (R64, R233). -/
def State.countDown (s : State) (a : Party) (pa d : Nat) : CountEv :=
  let c := recCount s pa - d
  match recState s pa with
  | 0 => if c < -(2 ^ 31) then .trap Cause.counterUnderflow else .done (s.setRecCount a pa c) false
  | 1 =>
    if c < -(2 ^ 31) then .trap Cause.counterUnderflow
    else
      let s := s.setRecCount a pa c
      .done (if c < 0 then s.recError a pa Cause.counterUnderflow else s) (decide (c ≤ 0))
  | 2 | 3 | 4 | 5 => .trap Cause.counterUnderflow
  | _ => .trap Cause.taskRecordInvalid

/-- TINC by d (R64). -/
def State.countUp (s : State) (a : Party) (pa d : Nat) : CountEv :=
  let c := recCount s pa + d
  if 1 < recState s pa then .trap Cause.taskRecordInvalid
  else if 0x7FFFFFFF < c then .trap Cause.taskRecordInvalid
  else .done (s.setRecCount a pa c) false

/-! ## Signals (R115) -/

/-- A counter word after a signal (R113). -/
def counterWord (w : Nat) (g : Sig) : Nat :=
  let w := setBits w 31 0 (bitsOf w 31 0 + g.n)
  if g.failed then setBits (setBits w 47 32 (min (bitsOf w 47 32 + 1) 0xFFFF)) 63 48 g.cause else w

/-- One signal; a task counter that readies a task that cannot run has a further one to make. -/
def State.signalOnce (s : State) (g : Sig) : State × Option Sig :=
  if sigAddr g.op = 0 then (s, none)
  else
    match s.sigLoc g with
    | none => (s, none)
    | some (l, s) =>
      let team := g.team.getD 0
      match sigKind g.op with
      | 1 => (s.updateLoc g.agent team l 8 (counterWord (s.readLoc team l 8) g), none)
      | 2 =>
        let (seq, s) := s.nextStamp g.team
        (s.writeAs .t g.agent .nothing none team l 8 ((if g.failed then g.cause else 0) * 2 ^ 56 + seq), none)
      | _ =>
        match l with
        | .scr _ _ => (s, none)
        | .glob pa =>
          let fail := fun (s : State) => if g.failed then s.recError g.agent pa g.cause else s
          match s.countDown g.agent pa g.n with
          | .trap c => (fail (s.recError g.agent pa c), none)
          | .done s false => (fail s, none)
          | .done s true =>
            let r := s.makeReady g.agent pa
            (fail r.s, r.done)

/-- A signal and those that follow from it. One that a flip or a flush holds is made behind it. -/
def State.signals : (fuel : Nat) → State → Option Sig → State
  | 0, s, _ => s
  | _, s, none => s
  | fuel + 1, s, some g =>
    if s.sigHeld g then { s with heldSignals := s.heldSignals ++ [g] }
    else
      let r := s.signalOnce g
      State.signals fuel r.1 r.2

/-- Signal (R115). Each signal that follows ends one more live record, so that there are no more of
them than live records. -/
def State.signal (s : State) (g : Sig) : State := State.signals (s.tasks.length + 2) s (some g)

/-- The signals that were held, made in their order once a flip or a flush is over. -/
def State.releaseSignals (s : State) : State :=
  s.heldSignals.foldl State.signal { s with heldSignals := [] }

/-- A record readied by an agent, with whatever follows, and whether its queue was full. -/
def State.ready (s : State) (a : Party) (pa : Nat) : State × Bool :=
  let r := s.makeReady a pa
  (State.signals (r.s.tasks.length + 2) r.s r.done, r.full)

/-- RUNNING to DONE (R64): the DONE operand is signalled. -/
def State.finishTask (s : State) (pa : Nat) (failed : Bool) (cause : Nat) : State :=
  let s := s.endRecord pa 4
  s.signal (s.doneSig pa failed cause)

end Sys2Proof.Machine
end

