-- ==== Sys2Proof/Machine/PowerNotice.lean ====
section
/-! DEFINITION. Power notices (R77, R432) and the power state of a core's block (R433). -/

namespace Sys2Proof.Machine

/-- One microsecond and half of one, in eighths of a nanosecond.
DEDUCED (assumption 71). -/
def oneMicro : Nat := 8000
def halfMicro : Nat := 4000

/-- The most that may start within 1 µs without waiting, in tenths of an ampere. -/
def freeStep : Nat := 80

/-- The steps of a site that have started within the last microsecond.
DEDUCED (assumption 71). -/
def State.recentSteps (s : State) (site : Nat) : Nat :=
  (((s.site site).notices.filter fun p => decide (s.tick < p.1 + oneMicro)).map Prod.snd).sum

/-- A notice sent to the site's regulator (R77, R432), and recorded. -/
def State.notice (s : State) (site step : Nat) : State := s.report site 0x2500 6 noCore 0 step

/-- A step that starts now, kept for a microsecond.
DEDUCED (assumption 71). -/
def State.started (s : State) (site step : Nat) : State :=
  s.modSite site fun st =>
    { st with notices := (st.notices.filter fun p => decide (s.tick < p.1 + oneMicro)) ++ [(s.tick, step)] }

/-- A start that raises the current by a step, asked for by a step of the module: it may go on at once, or it
waits until 500 ns after its notice (R77).
DEDUCED (assumption 71). -/
def State.mayStart (s : State) (site step : Nat) (ev : Ev) : Bool × State :=
  match AMap.find? ev (s.site site).awaiting with
  | some t =>
    if t + halfMicro ≤ s.tick then
      (true, (s.modSite site fun st => { st with awaiting := st.awaiting.erase ev }).started site step)
    else (false, s)
  | none =>
    if step = 0 then (true, s)
    else if s.recentSteps site + step ≤ freeStep then (true, (s.notice site step).started site step)
    else
      (false, ((s.notice site step).modSite site fun st =>
        { st with awaiting := st.awaiting.set ev s.tick }).due ev halfMicro)

/-- A block of a site changed. -/
def State.modBlock (s : State) (site b : Nat) (f : Block → Block) : State :=
  s.modSite site fun st => { st with blocks := st.blocks.set b (f (st.block b)) }

/-- Whether a block has power (R433). -/
def Power.on : Power → Bool
  | .active | .idle _ => true
  | _ => false

/-- The power state of a core's block. -/
def State.powerOf (s : State) (c : Nat) : Power := ((s.site (siteOf c)).block (blockOf c)).power

/-- Whether a squad is resident on a core of a block. -/
def State.blockBusy (s : State) (site b : Nat) : Bool :=
  s.squads.any fun p => siteOf (s.coreOf p.1) == site && blockOf (s.coreOf p.1) == b

/-- Ten microseconds without a squad, after which a block is idle (R433). -/
def idleTicks : Nat := 80000

/-- A squad has left a core: where its block holds none, the block is to be idle 10 µs later (R433). -/
def State.blockQuiet (s : State) (c : Nat) : State :=
  if s.blockBusy (siteOf c) (blockOf c) then s
  else
    (s.modBlock (siteOf c) (blockOf c) fun b => { b with since := s.tick }).due
      (.blockIdle (siteOf c) (blockOf c)) idleTicks

/-- A start that was to wait is not made after all. -/
def State.forgetStart (s : State) (site : Nat) (ev : Ev) : State :=
  if (AMap.find? ev (s.site site).awaiting).isNone then s
  else s.modSite site fun st => { st with awaiting := st.awaiting.erase ev }

/-- A block active: its core clocks, which stood still while it was idle, count on (R214, R433). -/
def Block.wake (b : Block) (tick : Nat) : Block :=
  match b.power with
  | .idle t => { b with power := .active, born := b.born + (tick - t) / coreTicks }
  | _ => { b with power := .active }

/-- A core's block active, as a squad starts in it. -/
def State.activate (s : State) (c : Nat) : State :=
  s.modBlock (siteOf c) (blockOf c) fun b => b.wake s.tick

/-- A check of a block's power-on to come, with the currents of the blocks below and above that are the rail's (R434). -/
def State.checkLater (s : State) (site b after : Nat) : State :=
  let (m, s) := s.drawFree
  let (n, s) := s.drawFree
  s.due (.blockPowerOnCheck site b [m % 4096, n % 4096]) after

/-- A gated block asked for (R434): its regulator looks whether it may power on. -/
def State.askPower (s : State) (c : Nat) : State :=
  match s.powerOf c with
  | .gated =>
    (s.modBlock (siteOf c) (blockOf c) fun v => { v with power := .powering none }).checkLater (siteOf c) (blockOf c) 0
  | _ => s

end Sys2Proof.Machine
end

