-- ==== Sys2Proof/Machine/Leave.lean ====
section
/-! DEFINITION. Threads that leave (R52-R54): the retirement tracker, what an exit completes (R42, R43,
R212, R64, R71), and the releases of SSYNC and TBAR. -/

namespace Sys2Proof.Machine

/-! ## Convergence points -/

/-- The length of the SSYNC at which a thread is parked. -/
def Thread.ssyncLen (th : Thread) : Option Nat :=
  match th.status with
  | .parked (.ssync n) => some n
  | _ => none

/-- The length of the TBAR at which a thread is parked. -/
def Thread.tbarLen (th : Thread) : Option Nat :=
  match th.status with
  | .parked (.tbar n) => some n
  | _ => none

/-- A parked thread goes on behind its instruction (R50). -/
def State.wakePast (s : State) (t : Tid) (len : Nat) : State :=
  (s.goto t ((s.thread t).pc + BitVec.ofNat 64 len)).wake t

/-- A thread whose parked instruction traps after it has issued: its windows have not counted it (R183,
R326). -/
def Thread.unissue (th : Thread) : Thread :=
  { th with windows := th.windows.map fun w => { w with left := w.left + 1, issued := w.issued - 1 } }

/-- Threads parked at an instruction that trap there, each at its own PC. -/
def State.trapParked (s : State) (ts : List Tid) (cause : Nat) (addr : DWord) : State :=
  (ts.foldl (fun s t => s.modThread t Thread.unissue) s).takeTrapsAside <| ts.map fun t =>
    ⟨t, cause, addr, (s.thread t).pc, (s.thread t).pc, false, false, 0⟩

/-- R43: where every live thread of a squad is parked at an SSYNC, they are released together, or trap
BARRIER_MISMATCH where their PCs differ. -/
def State.ssyncCheck (s : State) (q : Sid) : State :=
  let ts := s.liveOf q
  if ts.isEmpty || !ts.all fun t => (s.thread t).ssyncLen.isSome then s
  else if ((ts.map fun t => (s.thread t).pc).dedup).length ≤ 1 then
    ts.foldl (fun s t => s.wakePast t ((s.thread t).ssyncLen.getD 0)) s
  else s.trapParked ts Cause.barrierMismatch 0

/-- R212: where every live thread of a team is parked at a TBAR, they are released in one clock. -/
def State.tbarCheck (s : State) (team : Nat) : State :=
  let ts := (s.squadsOfTeam team).flatMap s.liveOf
  if ts.isEmpty || !ts.all fun t => (s.thread t).tbarLen.isSome then s
  else ts.foldl (fun s t => s.wakePast t ((s.thread t).tbarLen.getD 0)) s

/-! ## The lease of a team that leaves (R71) -/

/-- The cores of a team (R34). -/
def Team.cores (t : Team) : List Nat := if t.paired then [t.core, t.core + 1] else [t.core]

/-- A team's lease ended on its cores, and its arbiters asked to grant again.
DEDUCED (assumption 94). -/
def State.endLease (s : State) (team : Nat) : State :=
  (s.team team).cores.foldl (fun s c =>
    if (s.core c).lease.holder = some team then
      let l := s.teamLaunch team
      let s := s.report (siteOf c) 0x2001 1 c l.tenant ((s.team team).slot * 2 ^ 18 + l.lease)
      (s.modCore c fun co => { co with lease := { co.lease with holder := none, left := 0 } }).due
        (.leaseGrant c) 0
    else s) s

/-- A team waits for a lease no more: the arbiters that may hold an engine free for it choose again (R71,
R72).
DEDUCED (assumption 94). -/
def State.stopWaiting (s : State) (team : Nat) : State :=
  if (s.team team).leaseWait then
    (s.team team).cores.foldl (fun s c => s.due (.leaseGrant c) 0)
      (s.modTeam team fun t => { t with leaseWait := false })
  else s

/-! ## The retirement tracker (R53, R54) -/

/-- The entries of a core's tracker. -/
def trackerSize : Nat := 64

/-- The commands in flight that a list of threads issued (R53).
DEDUCED (assumption 97). -/
def State.outstanding (s : State) (ts : List Tid) : List Nat :=
  (s.commands.filter fun p => p.2.lanes.any ts.contains).map Prod.fst

/-- Whether a task's last squad has exited and its tracker entries have drained (R64). -/
def State.taskDrained (s : State) (pa : Nat) : Bool :=
  !(s.squads.any fun p => p.2.task == some pa) &&
    !(s.cores.any fun p => p.2.tracker.any fun e => e.task == some pa)

/-- R64: a RUNNING task whose squads have exited and whose entries have drained passes to DONE. -/
def State.taskCheck (s : State) (task : Option Nat) : State :=
  match task with
  | some pa => if s.taskDrained pa && recState s pa == 3 then s.finishTask pa false 0 else s
  | none => s

/-- Every site with tasks in its ready queue tries to dispatch again. -/
def State.retryTasks (s : State) : State :=
  ((s.sites.filter fun p => !p.2.readyQ.isEmpty).map Prod.fst).foldl (fun s n => s.due (.taskDispatch n) 0) s

/-! ## Launches with teams to place (R69) -/

/-- The team numbers a launch has still to place, in order: those returned to unplaced, and those that
have never been placed. -/
def Launch.unplaced (l : Launch) : Bool := !l.ending && (decide (l.nextTeam < l.teams) || !l.returned.isEmpty)

/-- A launch put into a list in descending order of priority, the earlier-accepted of equals first. -/
def insertLaunch (p : Nat × Launch) : List (Nat × Launch) → List (Nat × Launch)
  | [] => [p]
  | q :: qs => if q.2.prio < p.2.prio then p :: q :: qs else q :: insertLaunch p qs

/-- The launches with teams to place, in the order of placement (R69). -/
def State.placing (s : State) : List Nat :=
  ((s.launches.filter fun p => p.2.unplaced).foldl (fun ps p => insertLaunch p ps) []).map Prod.fst

/-- Units, slots or positions have become free: every placement is tried again in order. -/
def State.retryPlaces (s : State) : State := s.placing.foldl (fun s lid => s.due (.teamPlace lid) 0) s

/-! ## What follows an exit (R52) -/

/-- What may follow when a squad, or the last tracker entry, of a team is gone: its task's end, the
team's release and the launch's completion (R54, R62, R70). -/
def State.teamCheck (s : State) (team : Nat) (task : Option Nat) : State :=
  ((s.taskCheck task).due (.teamRelease team) 0).retryPlaces.retryTasks.due (.launchComplete (s.team team).lid) 0

/-- A command that names no thread of a squad any more.
DEDUCED (assumption 97). -/
def forget (q : Sid) (p : Nat × Command) : Nat × Command :=
  (p.1, { p.2 with lanes := p.2.lanes.filter fun t => t.sid != q })

/-- A squad none of whose threads is left (R52): its slot and positions become free, no command in flight
counts as a later squad's of its number (R53), and its team's lease ends if it was the team's last.
DEDUCED (assumption 97). -/
def State.dropSquad (s : State) (q : Sid) : State :=
  let task := (s.squad q).task
  let c := s.coreOf q
  let s := (s.modCore c fun co => { co with order := co.order.filter (· != q) })
  let s := { s with squads := s.squads.erase q, commands := s.commands.map (forget q) }.blockQuiet c
  let s := if (s.squadsOfTeam q.team).isEmpty then s.endLease q.team else s
  s.teamCheck q.team task

/-- What the exit of some threads of a squad means to the threads that stay: their convergence window
closes and the held are judged again (R42), and SSYNC, TBAR and the lead are looked at (R40, R43,
R212). -/
def State.afterExit (s : State) (q : Sid) : State :=
  if (s.liveOf q).isEmpty then (s.dropSquad q).tbarCheck q.team
  else
    (((s.closeWindow q).settleSquad (s.coreOf q) q).ssyncCheck q).tbarCheck q.team

/-- The threads of a list that belong to a squad. -/
def ofSquad (ts : List Tid) (q : Sid) : List Tid := ts.filter fun t => t.sid == q

/-- The squads of a list of threads, each once. -/
def squadsIn (ts : List Tid) : List Sid := (ts.map (·.sid)).dedup

/-- The tracker entry that the exiting threads of a squad take, if they have effects outstanding. -/
def State.entryFor (s : State) (ts : List Tid) (q : Sid) : List TrackerEntry :=
  let cmds := s.outstanding (ofSquad ts q)
  if cmds.isEmpty then []
  else [{ team := q.team, lid := (s.team q.team).lid, task := (s.squad q).task, cmds }]

/-- Whether the tracker of a core has the entries that the squads of exiting threads take (R53). -/
def State.exitRoom (s : State) (c : Nat) (ts : List Tid) : Bool :=
  let es := (squadsIn ts).flatMap (s.entryFor ts)
  es.isEmpty || decide ((s.core c).tracker.length + es.length ≤ trackerSize)

/-- The threads of a gang parked on the tracker (R52), under a number of its own; their pending loads are dropped. -/
def State.awaitTracker (s : State) (c : Nat) (ts : List Tid) : State :=
  let (k, s) := s.fresh
  let s := ts.foldl (fun s t => s.modThread t fun th =>
    { th with status := .parked (.tracker false k), windows := [], saved := [] }) s
  let low := (ts.map s.position).foldl min 63
  match ts with
  | [] => s
  | t :: _ => s.engineEvent (s.event (siteOf c) 0x1001 0 c (s.launchOf t).tenant (7 * 2 ^ 20 + low) none)

/-- R52: threads of one core end. Where the tracker has too few entries for their squads, they park
until it has. Their pending loads are dropped in either case.
DEDUCED (assumption 97). -/
def State.exitThreads (s : State) (c : Nat) (ts : List Tid) : State :=
  if !s.exitRoom c ts then s.awaitTracker c ts
  else
    let qs := squadsIn ts
    let s := s.modCore c fun co => { co with tracker := co.tracker ++ qs.flatMap (s.entryFor ts) }
    let s := { s with threads := s.threads.filter fun p => !ts.contains p.1 }
    qs.foldl State.afterExit s

/-- The gang with which a thread waits for the tracker. -/
def Thread.waitsWith (th : Thread) : Option Nat :=
  match th.status with
  | .parked (.tracker _ k) => some k
  | _ => none

/-- The threads of a list that are parked at an EXIT or DEFER whose effect is otherwise made. -/
def State.leaving (s : State) (ts : List Tid) : List Tid := ts.filter fun t => (s.thread t).waitsWith.isSome

/-- The threads of a core that wait for the tracker as one gang. -/
def State.gangLeaving (s : State) (c k : Nat) : List Tid :=
  ((s.core c).order.flatMap s.threadsOf).filter fun t => (s.thread t).waitsWith == some k

/-- A number put into an ascending list. -/
def insertNat (n : Nat) : List Nat → List Nat
  | [] => [n]
  | m :: ms => if n ≤ m then n :: m :: ms else m :: insertNat n ms

/-- The gangs of a core that wait for the tracker, those that parked first before the others.
DESIGN CHOICE (assumption 119). -/
def State.gangsLeaving (s : State) (c : Nat) : List Nat :=
  (((s.core c).order.flatMap s.threadsOf).filterMap fun t => (s.thread t).waitsWith).dedup.foldr insertNat []

/-- The gangs parked on a core's tracker are due to try again (R53), in the name of a squad of the first. -/
def State.retryExits (s : State) (c : Nat) : State :=
  (((s.gangsLeaving c).flatMap fun k => squadsIn (s.gangLeaving c k)).take 1).foldl
    (fun s q => s.due (.exitTrackerResume q) 0) s

/-- A gang that waits for the tracker completes its exit where there is room for it. -/
def State.gangExit (s : State) (c k : Nat) : State :=
  let ts := s.gangLeaving c k
  if ts.isEmpty || !s.exitRoom c ts then s else s.exitThreads c ts

/-- A command's effects are complete (R53): it leaves the tracker entries that count it, and an entry
whose count is zero frees.
DEDUCED (assumption 97). -/
def State.untrack (s : State) (c cmd : Nat) : State :=
  let es := (s.core c).tracker.map fun e => { e with cmds := e.cmds.filter (· != cmd) }
  let freed := es.filter fun e => e.cmds.isEmpty
  let s := s.modCore c fun co => { co with tracker := es.filter fun e => !e.cmds.isEmpty }
  if freed.isEmpty then s
  else (freed.foldl (fun s e => s.teamCheck e.team e.task) s).retryExits c

/-- EXIT_TRACKER_RESUME (R52): the gangs that wait for the tracker of a squad's core complete their exit, each as a
whole, one after another.
DESIGN CHOICE (assumption 119). -/
def execExitTrackerResume (q : Sid) (s : State) : Out :=
  let c := s.coreOf q
  .next ((s.gangsLeaving c).foldl (fun s k => s.gangExit c k) s)

end Sys2Proof.Machine
end

