-- ==== Sys2Proof/Machine/Stop.lean ====
section
/-! DEFINITION. A picker that stands still (R215, R369, R417): wait counts, convergence windows and
WAITW timeouts do not advance on its core, and go on from where they stood. -/

namespace Sys2Proof.Machine

/-- A time kept in core clocks moved on by a stop from clock `stop` to clock `now`. -/
def shiftClock (stop now since : Nat) : Nat := if since ≤ stop then since + (now - stop) else now

/-- A thread's wait count and timeout after a stop. Threads that have become ready while the picker stood still have
equal wait counts behind it, so that a lead falls to the lowest of them.
DESIGN CHOICE (assumption 116). -/
def Thread.shift (th : Thread) (stop now : Nat) : Thread :=
  { th with
    since := shiftClock stop now th.since
    heldSince := th.heldSince.map (shiftClock stop now)
    status := match th.status with
      | .parked (.word w) =>
        .parked (.word { w with deadline := w.deadline.map (· + (now - stop) * coreTicks) })
      | st => st }

/-- The tick of a parked WAITW's timeout. -/
def Thread.deadline (th : Thread) : Option Nat :=
  match th.status with
  | .parked (.word w) => w.deadline
  | _ => none

/-- One squad's threads and window after a stop. -/
def State.shiftSquad (s : State) (stop now : Nat) (q : Sid) : State :=
  let s := (s.liveOf q).foldl (fun s t =>
    let s := s.modThread t fun th => th.shift stop now
    match (s.thread t).deadline with
    | some d => s.due (.waitwTimeout t) (d - s.tick)
    | none => s) s
  match (s.squad q).window with
  | some (c0, pc) =>
    let c1 := shiftClock stop now c0
    s.modSquad q fun sq => { sq with window := some (c1, pc) }
  | none => s

/-- A reason for a picker to stand still ends: once none is left, the core goes on. The threads that became
ready meanwhile are first looked at in the order in which they did (R40), since no wait count has advanced. The
squads of a team that a CTXSAVE has taken from the pick order stand still with the others (R369). -/
def State.startPicker (s : State) (c : Nat) (f : Core → Core) : State :=
  let was := (s.core c).stopped
  let s := s.modCore c f
  if was && !(s.core c).stopped then
    let stop := (s.core c).stopClock
    let frozen := (s.residentOn c).filter fun q => !(s.core c).order.contains q
    let s := (s.core c).order.foldl (fun s q => (s.settleSquad c q).shiftSquad stop s.clock q) s
    frozen.foldl (fun s q => s.shiftSquad stop s.clock q) s
  else s

end Sys2Proof.Machine
end

