-- ==== Sys2Proof/Machine/Debug.lean ====
section
/-! DEFINITION. Security level and debug state (R364-R367), physical and logical cores (R9), and halting
and resuming cores (R366, R368, R369, R371). -/

namespace Sys2Proof.Machine

/-! ## DBGSTATE (R364) -/

def State.level (s : State) : Nat := s.dbgstate.toNat % 4
def State.dstate (s : State) : Nat := bitsOf s.dbgstate.toNat 7 4
def State.dbgTenant (s : State) : Nat := bitsOf s.dbgstate.toNat 47 40

/-- Halt-capable. -/
def State.haltCapable (s : State) : Bool := s.dstate == 2

/-- R365: the combinations that are permitted; vendor-debug on UBY-62D only, which step 7 of the boot has
seen to. -/
def debugPermitted (level dstate : Nat) : Bool := decide (level < 3) && decide (dstate < 3) &&
  !(level == 0 && dstate == 2)

/-- The teams resident on a core. -/
def State.teamsOn (s : State) (c : Nat) : List Nat :=
  (s.teams.filter fun p => p.2.cores.contains c).map Prod.fst

/-- R365: the core is in scope: every resident team of it belongs to TENANT's launches, or the level is
vendor-debug. -/
def State.inScope (s : State) (c : Nat) : Bool :=
  s.level == 2 ||
    (s.level == 1 && (s.teamsOn c).all fun n => (s.teamLaunch n).tenant == s.dbgTenant)

/-! ## Physical names (R9) -/

/-- The site, block and slot of a linear physical index. -/
def physSite (p : Nat) : Nat := p / 108
def physBlock (p : Nat) : Nat := p / 9 % 12
def physSlot (p : Nat) : Nat := p % 9

/-- The linear physical index of a core. -/
def State.physOf (s : State) (c : Nat) : Nat :=
  siteOf c * 108 + blockOf c * 9 + (((s.site (siteOf c)).block (blockOf c)).names.getD (c % 8) 15)

/-- The core that a linear physical index names now, if it has a name. -/
def State.coreOfPhys (s : State) (p : Nat) : Option Nat :=
  let names := ((s.site (physSite p)).block (physBlock p)).names
  ((List.range 8).find? fun i => names.getD i 15 == physSlot p).map fun i =>
    physSite p * 96 + physBlock p * 8 + i

/-- The block of a linear physical index. -/
def State.physBlockOf (s : State) (p : Nat) : Block := (s.site (physSite p)).block (physBlock p)

/-! ## Halting (R368, R369) -/

/-- A core and, where a paired team is resident on it, its partner (R368). -/
def State.haltSet (s : State) (c : Nat) : List Nat :=
  if (s.teamsOn c).any fun n => (s.team n).paired then [c / 2 * 2, c / 2 * 2 + 1] else [c]

/-- One core halted for a cause: at once, or before its first issue after power-on (R366). -/
def State.haltOne (s : State) (cause c : Nat) : State :=
  if (s.powerOf c).on then
    s.stopPicker c s.clock fun co => { co with hreq := true, halted := true, hcause := cause }
  else s.modCore c fun co => { co with hreq := true, hcause := cause }

/-- A core halted, with its partner where a paired team is resident.
DEDUCED (assumption 31). -/
def State.haltCore (s : State) (c cause : Nat) : State := (s.haltSet c).foldl (State.haltOne · cause) s

/-- A core resumed (R369): its lease's idle count, which stood still, goes on. -/
def State.resumeOne (s : State) (c : Nat) : State :=
  s.startPicker c fun co =>
    { co with
      hreq := false
      halted := false
      lease := if co.halted then
          { co.lease with lastMma := shiftClock co.stopClock s.clock co.lease.lastMma }
        else co.lease }

def State.resumeCore (s : State) (c : Nat) : State := (s.haltSet c).foldl State.resumeOne s

/-- Every block's slots without a name resumed. -/
def State.resumeSpares (s : State) : State :=
  { s with sites := s.sites.map fun (p : Nat × Site) =>
      (p.1, { p.2 with blocks := p.2.blocks.map fun (b : Nat × Block) => (b.1, { b.2 with spareHalt := [] }) }) }

/-- Every halted core resumed (R367). -/
def State.resumeAll (s : State) : State :=
  (((s.cores.filter fun p => p.2.hreq).map Prod.fst).foldl State.resumeOne s).resumeSpares

/-- The debug port may halt and resume a physical core that carries no name: no team is resident on it.
DEDUCED (assumption 31). -/
def State.mayHaltSpare (s : State) (phys : Nat) : Bool :=
  s.haltCapable && !(s.site (physSite phys)).off

/-- DEBUG_HALT_REQUEST (R365, R368): the debug port requests that a core halt; a write to an out-of-scope
core, or in a debug state other than halt-capable, is ignored.
DESIGN CHOICE (assumption 91). -/
def execDebugHaltRequest (phys : Nat) (s : State) : Out :=
  match s.coreOfPhys phys with
  | none =>
    .next (if s.mayHaltSpare phys then
        s.modBlock (physSite phys) (physBlock phys) fun b => { b with spareHalt := b.spareHalt.set (physSlot phys) 0 }
      else s)
  | some c =>
    .next (if s.haltCapable && (s.haltSet c).all s.inScope && !(s.site (siteOf c)).off then s.haltCore c 0
      else s)

/-- DEBUG_RESUME (R368, R369): the debug port resumes a core. -/
def execDebugResume (phys : Nat) (s : State) : Out :=
  match s.coreOfPhys phys with
  | none =>
    .next (if s.mayHaltSpare phys then
        s.modBlock (physSite phys) (physBlock phys) fun b => { b with spareHalt := b.spareHalt.erase (physSlot phys) }
      else s)
  | some c => .next (if s.haltCapable && s.inScope c && (s.core c).hreq then s.resumeCore c else s)

/-- DBGSTATE's fields set. -/
def State.setDebug (s : State) (level dstate tenant : Nat) : State :=
  { s with dbgstate := .ofNat 64 (tenant % 256 * 2 ^ 40 + dstate * 2 ^ 4 + level) }

/-- DSTATE_RAISE (R367): a Nib command to a higher debug state, where the combination is permitted. -/
def execDstateRaise (d : Nat) (s : State) : Out :=
  .next (if s.dstate < d ∧ debugPermitted s.level d then s.setDebug s.level d s.dbgTenant else s)

/-- DSTATE_LOWER (R367): a Nib command to a lower debug state; out of halt-capable, every halted core
resumes first. -/
def execDstateLower (d : Nat) (s : State) : Out :=
  if s.dstate ≤ d then .next s
  else
    let s := if s.haltCapable then s.resumeAll else s
    .next (s.setDebug s.level d s.dbgTenant)

/-- Whether a tenant has a live launch. -/
def State.tenantLive (s : State) (tenant : Nat) : Bool :=
  s.launches.any fun p => p.2.tenant == tenant && !p.2.system

/-- TENANT_DEBUG_REVOKE (R367): tenant-debug ends, by the owner or with the tenant's last launch. -/
def execTenantDebugRevoke (s : State) : Out :=
  .next (if s.level = 1 then s.resumeAll.setDebug 0 0 0 else s)

end Sys2Proof.Machine
end

