-- ==== Sys2Proof/Machine/Ending.lean ====
section
/-! DEFINITION. Ending a launch before its teams have finished (R323): its threads end as by EXIT, its
teams are placed no more, its tasks that have not started are abandoned, and its DONE fails. -/

namespace Sys2Proof.Machine

/-- Threads that have left trap delivery are named by no report any more (R323).
DEDUCED (assumption 54). -/
def State.leaveDelivery (s : State) (ts : List Tid) : State :=
  let f : Report → Report := fun r => { r with threads := r.threads.filter fun t => !ts.contains t }
  { s with sites := s.sites.map fun p =>
      (p.1, { p.2 with
        reports := p.2.reports.map fun r => (r.1, f r.2)
        waiting := p.2.waiting.map f }) }

/-- The cores that a list of threads run on, each once. -/
def State.coresOf (s : State) (ts : List Tid) : List Nat := (ts.map fun t => s.coreOf t.sid).dedup

/-- Threads that end as by EXIT (R52), core by core. -/
def State.endThreads (s : State) (ts : List Tid) : State :=
  let s1 := s.leaveDelivery ts
  (s.coresOf ts).foldl (fun s' c => s'.exitThreads c (ts.filter fun t => s.coreOf t.sid == c)) s1

/-- The live records of a launch in a state. -/
def State.recordsIn (s : State) (lid st : Nat) : List Nat :=
  (s.tasks.filter fun p => p.2.2 == lid && recState s p.1 == st).map Prod.fst

/-- The READY tasks of a launch leave their ready queues, and tasks kept for want of room move up (R66). -/
def State.dropReady (s : State) (lid : Nat) : State :=
  s.sites.keys.foldl (fun s n =>
    ((((s.site n).readyQ ++ (s.site n).overflow).filter fun t => t.lid == lid).foldl
      (fun s t => s.removeTask n t) s).refill n) s

/-- The records of a launch in a state pass to ABANDONED.
DEDUCED (assumption 55). -/
def State.abandon (s : State) (lid st : Nat) : State :=
  (s.recordsIn lid st).foldl (fun s pa => s.endRecord pa 5) s

/-- A launch's DONE is to be signalled as failed with a cause, unless it already is with another (R62,
R323, R378).
DEDUCED (assumption 55). -/
def State.failLaunch (s : State) (lid cause : Nat) : State :=
  s.modLaunch lid fun l => { l with failCause := firstOf l.failCause cause }
where
  firstOf (a b : Nat) : Nat := if a = 0 then b else a

/-- The resident threads of a launch. -/
def State.threadsOfLaunch (s : State) (lid : Nat) : List Tid :=
  (s.squadsOfLaunch lid).flatMap s.liveOf

/-- End launch (R323).
DEDUCED (assumption 55). -/
def State.endLaunch (s : State) (lid cause : Nat) : State :=
  let s := (s.failLaunch lid cause).modLaunch lid fun l => { l with ending := true, returned := [], savedTeams := [] }
  let s := ((s.dropReady lid).abandon lid 2).abandon lid 1
  (s.endThreads (s.threadsOfLaunch lid)).due (.launchComplete lid) 0

end Sys2Proof.Machine
end

