-- ==== Sys2Proof/Machine/Flags.lean ====
section
/-! DEFINITION. The flags of FFLAGS (R144), as the bits of a six-bit number. -/

namespace Sys2Proof.Machine

def flagNV : Nat := 1
def flagDZ : Nat := 2
def flagOF : Nat := 4
def flagUF : Nat := 8
def flagNX : Nat := 16
def flagSAT : Nat := 32

/-- The flags of two results combined. -/
def orFlags (a b : Nat) : Nat := a ||| b

/-- A flag raised where a condition holds. -/
def flagIf (c : Bool) (f : Nat) : Nat := if c then f else 0

end Sys2Proof.Machine
end

