-- ==== Sys2Proof/Machine/Integer.lean ====
section
/-! DEFINITION. Integer, move, comparison and predicate instructions (R195-R200, R206). Each is one
lane function over the operand forms, and one meaning per form of the instruction. -/

namespace Sys2Proof.Machine

/-- The value of field A as the instruction's type has it (R193). -/
def srcA (s : State) (i : Issue) (t : Tid) : Nat := (s.thread t).xs i.x.a.toNat i.x.type.regs

/-- Operand B in the width of the instruction's type. -/
def srcB (s : State) (i : Issue) (t : Tid) : Nat := operandB s i.x t i.x.type.regs

/-- The value of field C in the width of the instruction's type. -/
def srcC (s : State) (i : Issue) (t : Tid) : Nat := (s.thread t).xs i.x.c.toNat i.x.type.regs

/-- A two-source integer instruction: the exact result of the two values, and the flags (R195). -/
def laneInt2 (f : Ty → Int → Int → Int × Nat) (i : Issue) (t : Tid) (s : State) : LaneOut :=
  let ty := i.x.type
  let r := f ty (srcInt ty (srcA s i t)) (srcInt ty (srcB s i t))
  .next ((s.writeD i t ty.regs (fillInt ty r.1)).raiseFlags t r.2)

/-- A result clamped to the type's range, SAT raised where it is (R134). -/
def saturate (ty : Ty) (v : Int) : Int × Nat :=
  let r := clampTo (tySigned ty) (tyBits ty) v
  (r.1, flagIf r.2 flagSAT)

def intAdd (_ : Ty) (a b : Int) : Int × Nat := (a + b, 0)
def intSub (_ : Ty) (a b : Int) : Int × Nat := (a - b, 0)
def intMul (_ : Ty) (a b : Int) : Int × Nat := (a * b, 0)
def intMulh (ty : Ty) (a b : Int) : Int × Nat := (a * b / 2 ^ tyBits ty, 0)
def intAdds (ty : Ty) (a b : Int) : Int × Nat := saturate ty (a + b)
def intSubs (ty : Ty) (a b : Int) : Int × Nat := saturate ty (a - b)
def intLesser (_ : Ty) (a b : Int) : Int × Nat := (min a b, 0)
def intGreater (_ : Ty) (a b : Int) : Int × Nat := (max a b, 0)

/-- A two-source bit instruction: the result of the width and the two values (R195). -/
def laneBits2 (f : Nat → Nat → Nat → Nat) (i : Issue) (t : Tid) (s : State) : LaneOut :=
  let ty := i.x.type
  .next (s.writeD i t ty.regs (f (tyBits ty) (srcA s i t) (srcB s i t)))

def bitsAnd (_ a b : Nat) : Nat := a &&& b
def bitsOr (_ a b : Nat) : Nat := a ||| b
def bitsXor (_ a b : Nat) : Nat := a ^^^ b
def bitsAndn (w a b : Nat) : Nat := a &&& ((2 ^ w - 1) ^^^ b)

/-- A shift or rotation: B is one word, taken modulo the width (R195). -/
def laneShift (f : Nat → Nat → Nat → Nat) (i : Issue) (t : Tid) (s : State) : LaneOut :=
  let ty := i.x.type
  let w := tyBits ty
  .next (s.writeD i t ty.regs (f w (srcA s i t) (operandB s i.x t 1 % w)))

def shiftLeft (w a n : Nat) : Nat := a * 2 ^ n % 2 ^ w
def shiftRight (_ a n : Nat) : Nat := a / 2 ^ n
def shiftArith (w a n : Nat) : Nat := wrapTo w (intVal true w a / 2 ^ n)
def rotateLeft (w a n : Nat) : Nat := a * 2 ^ n % 2 ^ w + a / 2 ^ (w - n)

/-- A one-source instruction with its result in `n` registers (R196). -/
def lane1 (n : Ty → Nat) (f : Ty → Nat → Nat) (i : Issue) (t : Tid) (s : State) : LaneOut :=
  let ty := i.x.type
  .next (s.writeD i t (n ty) (f ty (srcA s i t)))

def intAbs (ty : Ty) (a : Nat) : Nat := fillInt ty (srcInt ty a).natAbs
def intNeg (ty : Ty) (a : Nat) : Nat := fillInt ty (-(srcInt ty a))

/-- The number of one bits among the low `w`. -/
def popCount : (w v : Nat) → Nat
  | 0, _ => 0
  | w + 1, v => v % 2 + popCount w (v / 2)

/-- The number of leading zero bits of `w`. -/
def leadingZeros (w v : Nat) : Nat := if v = 0 then w else w - 1 - Nat.log2 v

/-- The low `w` bits reversed. -/
def bitReverse : (w v : Nat) → Nat
  | 0, _ => 0
  | w + 1, v => v % 2 * 2 ^ w + bitReverse w (v / 2)

def bitsClz (ty : Ty) (a : Nat) : Nat := leadingZeros (tyBits ty) a
def bitsPopc (ty : Ty) (a : Nat) : Nat := popCount (tyBits ty) a
def bitsBrev (ty : Ty) (a : Nat) : Nat := bitReverse (tyBits ty) a

/-- MAD (R197). -/
def laneMad (i : Issue) (t : Tid) (s : State) : LaneOut :=
  let ty := i.x.type
  let v := srcInt ty (srcA s i t) * srcInt ty (srcB s i t) + srcInt ty (srcC s i t)
  .next (s.writeD i t ty.regs (fillInt ty v))

/-- BFX (R197): bits of the field at or above the width are dropped, and the field is extended from its
last bit that is left.
DEDUCED (assumption 52). -/
def laneBfx (i : Issue) (t : Tid) (s : State) : LaneOut :=
  let ty := i.x.type
  let w := tyBits ty
  let pos := operandB s i.x t 1 % w
  let len := min i.x.e.toNat (w - pos)
  let f := srcA s i t % 2 ^ w / 2 ^ pos % 2 ^ len
  let v := if len = 0 then 0 else intVal (tySigned ty) len f
  .next (s.writeD i t ty.regs (fillInt ty v))

/-- BFI (R197).
DEDUCED (assumption 52). -/
def laneBfi (i : Issue) (t : Tid) (s : State) : LaneOut :=
  let ty := i.x.type
  let w := tyBits ty
  let pos := operandB s i.x t 1 % w
  let len := min i.x.e.toNat (w - pos)
  let old := (s.thread t).xs i.x.d.toNat ty.regs
  let v := if len = 0 then old else setBits old (pos + len - 1) pos (srcA s i t)
  .next (s.writeD i t ty.regs v)

/-- SEL (R197). -/
def laneSel (i : Issue) (t : Tid) (s : State) : LaneOut :=
  let v := if (s.thread t).p i.x.c.toNat then srcA s i t else srcB s i t
  .next (s.writeD i t i.x.type.regs v)

/-- MOV (R198). -/
def laneMov (i : Issue) (t : Tid) (s : State) : LaneOut :=
  let ty := i.x.type
  let v := if i.x.a = 0 then srcB s i t else srcA s i t
  .next (s.writeD i t ty.regs (if ty.isInt then fillInt ty (srcInt ty v) else v))

/-- LDI (R198). -/
def laneLdi (i : Issue) (t : Tid) (s : State) : LaneOut :=
  .next (s.writeD i t i.x.type.regs (sext8 i.x.imm).toNat)

/-- LEA (R198). -/
def laneLea (i : Issue) (t : Tid) (s : State) : LaneOut :=
  .next (s.writeD i t 2 (effAddr s i t).toNat)

/-- A comparison's condition by SUB (R199). -/
def intCond (sub : Nat) (a b : Int) : Bool :=
  match sub with
  | 0 => decide (a = b)
  | 1 => decide (a ≠ b)
  | 2 => decide (a < b)
  | 3 => decide (a ≤ b)
  | 4 => decide (b < a)
  | _ => decide (b ≤ a)

/-- CMP (R199): P(D) is the condition and P(E) its negation, which stands where D and E name one predicate.
DESIGN CHOICE (assumption 127). -/
def laneCmp (i : Issue) (t : Tid) (s : State) : LaneOut :=
  let ty := i.x.type
  let c := intCond i.x.sub.toNat (srcInt ty (srcA s i t)) (srcInt ty (srcB s i t))
  .next (s.modThread t fun th => (th.setP i.x.d.toNat c).setP i.x.e.toNat !c)

/-- The quotient and the remainder (R134). -/
def intDiv (a b : Int) : Int := if b = 0 then -1 else a.tdiv b
def intRem (a b : Int) : Int := if b = 0 then a else a.tmod b

/-- DIV and REM (R200): long-latency, the pending set D. -/
def laneDiv (f : Int → Int → Int) (i : Issue) (t : Tid) (s : State) : LaneOut :=
  let ty := i.x.type
  let v := fillInt ty (f (srcInt ty (srcA s i t)) (srcInt ty (srcB s i t)))
  s.later i t (regWrites i.x.d.toNat ty.regs v) [] 0

/-- PAND, POR and PXOR (R206). -/
def lanePred2 (f : Bool → Bool → Bool) (i : Issue) (t : Tid) (s : State) : LaneOut :=
  .next (s.modThread t fun th => th.setP i.x.d.toNat (f (th.p i.x.a.toNat) (th.p i.x.b.toNat)))

/-- PNOT, PSET and PGET (R206). -/
def lanePnot (i : Issue) (t : Tid) (s : State) : LaneOut :=
  .next (s.modThread t fun th => th.setP i.x.d.toNat !(th.p i.x.a.toNat))
def lanePset (i : Issue) (t : Tid) (s : State) : LaneOut :=
  .next (s.modThread t fun th => th.setP i.x.d.toNat (th.x i.x.a.toNat != 0))
def lanePget (i : Issue) (t : Tid) (s : State) : LaneOut :=
  .next (s.modThread t fun th => th.setX i.x.d.toNat (.ofNat 32 (bit01 (th.p i.x.a.toNat))))

/-- ADD (R195), base form: a + b, wrapping. -/
def execAdd (k : Bool) (b a d : BitVec 7) (s : State) : Out :=
  simt .add (.b3 k b a d) 4 true (laneInt2 intAdd) s

/-- ADD (R195), extended form. -/
def execAddExt (x : Ext) (s : State) : Out := simt .add x x.len true (laneInt2 intAdd) s

/-- SUB (R195), base form: a - b, wrapping. -/
def execSub (k : Bool) (b a d : BitVec 7) (s : State) : Out :=
  simt .sub (.b3 k b a d) 4 true (laneInt2 intSub) s

/-- SUB (R195), extended form. -/
def execSubExt (x : Ext) (s : State) : Out := simt .sub x x.len true (laneInt2 intSub) s

/-- MUL (R195), base form: the low half of the product. -/
def execMul (k : Bool) (b a d : BitVec 7) (s : State) : Out :=
  simt .mul (.b3 k b a d) 4 true (laneInt2 intMul) s

/-- MUL (R195), extended form. -/
def execMulExt (x : Ext) (s : State) : Out := simt .mul x x.len true (laneInt2 intMul) s

/-- MULH (R195), base form: the high half of the product. -/
def execMulh (k : Bool) (b a d : BitVec 7) (s : State) : Out :=
  simt .mulh (.b3 k b a d) 4 true (laneInt2 intMulh) s

/-- MULH (R195), extended form. -/
def execMulhExt (x : Ext) (s : State) : Out := simt .mulh x x.len true (laneInt2 intMulh) s

/-- ADDS (R195), base form: a + b clamped, SAT set when clamped. -/
def execAdds (k : Bool) (b a d : BitVec 7) (s : State) : Out :=
  simt .adds (.b3 k b a d) 4 true (laneInt2 intAdds) s

/-- ADDS (R195), extended form. -/
def execAddsExt (x : Ext) (s : State) : Out := simt .adds x x.len true (laneInt2 intAdds) s

/-- SUBS (R195), base form: a - b clamped, SAT set when clamped. -/
def execSubs (k : Bool) (b a d : BitVec 7) (s : State) : Out :=
  simt .subs (.b3 k b a d) 4 true (laneInt2 intSubs) s

/-- SUBS (R195), extended form. -/
def execSubsExt (x : Ext) (s : State) : Out := simt .subs x x.len true (laneInt2 intSubs) s

/-- AND (R195), base form: a and b. -/
def execAnd (k : Bool) (b a d : BitVec 7) (s : State) : Out :=
  simt .and (.b3 k b a d) 4 true (laneBits2 bitsAnd) s

/-- AND (R195), extended form. -/
def execAndExt (x : Ext) (s : State) : Out := simt .and x x.len true (laneBits2 bitsAnd) s

/-- OR (R195), base form: a or b. -/
def execOr (k : Bool) (b a d : BitVec 7) (s : State) : Out :=
  simt .or (.b3 k b a d) 4 true (laneBits2 bitsOr) s

/-- OR (R195), extended form. -/
def execOrExt (x : Ext) (s : State) : Out := simt .or x x.len true (laneBits2 bitsOr) s

/-- XOR (R195), base form: a xor b. -/
def execXor (k : Bool) (b a d : BitVec 7) (s : State) : Out :=
  simt .xor (.b3 k b a d) 4 true (laneBits2 bitsXor) s

/-- XOR (R195), extended form. -/
def execXorExt (x : Ext) (s : State) : Out := simt .xor x x.len true (laneBits2 bitsXor) s

/-- ANDN (R195), base form: a and not b. -/
def execAndn (k : Bool) (b a d : BitVec 7) (s : State) : Out :=
  simt .andn (.b3 k b a d) 4 true (laneBits2 bitsAndn) s

/-- ANDN (R195), extended form. -/
def execAndnExt (x : Ext) (s : State) : Out := simt .andn x x.len true (laneBits2 bitsAndn) s

/-- SHL (R195), base form: a shifted left. -/
def execShl (k : Bool) (b a d : BitVec 7) (s : State) : Out :=
  simt .shl (.b3 k b a d) 4 true (laneShift shiftLeft) s

/-- SHL (R195), extended form. -/
def execShlExt (x : Ext) (s : State) : Out := simt .shl x x.len true (laneShift shiftLeft) s

/-- SHR (R195), base form: a shifted right, zero fill. -/
def execShr (k : Bool) (b a d : BitVec 7) (s : State) : Out :=
  simt .shr (.b3 k b a d) 4 true (laneShift shiftRight) s

/-- SHR (R195), extended form. -/
def execShrExt (x : Ext) (s : State) : Out := simt .shr x x.len true (laneShift shiftRight) s

/-- SAR (R195), base form: a shifted right, sign fill. -/
def execSar (k : Bool) (b a d : BitVec 7) (s : State) : Out :=
  simt .sar (.b3 k b a d) 4 true (laneShift shiftArith) s

/-- SAR (R195), extended form. -/
def execSarExt (x : Ext) (s : State) : Out := simt .sar x x.len true (laneShift shiftArith) s

/-- ROL (R195), base form: a rotated left. -/
def execRol (k : Bool) (b a d : BitVec 7) (s : State) : Out :=
  simt .rol (.b3 k b a d) 4 true (laneShift rotateLeft) s

/-- ROL (R195), extended form. -/
def execRolExt (x : Ext) (s : State) : Out := simt .rol x x.len true (laneShift rotateLeft) s

/-- MIN (R195), base form: the lesser. -/
def execMin (k : Bool) (b a d : BitVec 7) (s : State) : Out :=
  simt .min (.b3 k b a d) 4 true (laneInt2 intLesser) s

/-- MIN (R195), extended form. -/
def execMinExt (x : Ext) (s : State) : Out := simt .min x x.len true (laneInt2 intLesser) s

/-- MAX (R195), base form: the greater. -/
def execMax (k : Bool) (b a d : BitVec 7) (s : State) : Out :=
  simt .max (.b3 k b a d) 4 true (laneInt2 intGreater) s

/-- MAX (R195), extended form. -/
def execMaxExt (x : Ext) (s : State) : Out := simt .max x x.len true (laneInt2 intGreater) s

/-- ABS (R196), base form: the absolute value, wrapping. -/
def execAbs (a d : BitVec 7) (s : State) : Out :=
  simt .abs (.b2 a d) 4 true (lane1 Ty.regs intAbs) s

/-- ABS (R196), extended form. -/
def execAbsExt (x : Ext) (s : State) : Out := simt .abs x x.len true (lane1 Ty.regs intAbs) s

/-- NEG (R196), base form: the negation, wrapping. -/
def execNeg (a d : BitVec 7) (s : State) : Out :=
  simt .neg (.b2 a d) 4 true (lane1 Ty.regs intNeg) s

/-- NEG (R196), extended form. -/
def execNegExt (x : Ext) (s : State) : Out := simt .neg x x.len true (lane1 Ty.regs intNeg) s

/-- CLZ (R196), base form: leading zero bits. -/
def execClz (a d : BitVec 7) (s : State) : Out :=
  simt .clz (.b2 a d) 4 true (lane1 (fun _ => 1) bitsClz) s

/-- CLZ (R196), extended form. -/
def execClzExt (x : Ext) (s : State) : Out := simt .clz x x.len true (lane1 (fun _ => 1) bitsClz) s

/-- POPC (R196), base form: one bits. -/
def execPopc (a d : BitVec 7) (s : State) : Out :=
  simt .popc (.b2 a d) 4 true (lane1 (fun _ => 1) bitsPopc) s

/-- POPC (R196), extended form. -/
def execPopcExt (x : Ext) (s : State) : Out :=
  simt .popc x x.len true (lane1 (fun _ => 1) bitsPopc) s

/-- BREV (R196), base form: the bits reversed. -/
def execBrev (a d : BitVec 7) (s : State) : Out :=
  simt .brev (.b2 a d) 4 true (lane1 Ty.regs bitsBrev) s

/-- BREV (R196), extended form. -/
def execBrevExt (x : Ext) (s : State) : Out := simt .brev x x.len true (lane1 Ty.regs bitsBrev) s

/-- MAD (R197): a x b + c, wrapping. -/
def execMad (x : Ext) (s : State) : Out := simt .mad x x.len true laneMad s

/-- BFX (R197): a bit field, extended. -/
def execBfx (x : Ext) (s : State) : Out := simt .bfx x x.len true laneBfx s

/-- BFI (R197): a bit field replaced in D. -/
def execBfi (x : Ext) (s : State) : Out := simt .bfi x x.len true laneBfi s

/-- SEL (R197): a or b by a predicate. -/
def execSel (x : Ext) (s : State) : Out := simt .sel x x.len true laneSel s

/-- MOV (R198), base form: X(A), or operand B where A is 0. -/
def execMov (a d : BitVec 7) (s : State) : Out := simt .mov (.b2 a d) 4 true laneMov s

/-- MOV (R198), extended form. -/
def execMovExt (x : Ext) (s : State) : Out := simt .mov x x.len true laneMov s

/-- LDI (R198), base form: an immediate. -/
def execLdi (i : BitVec 8) (d : BitVec 7) (s : State) : Out :=
  simt .ldi (.bi i 0 d) 4 true laneLdi s

/-- LDI (R198), extended form. -/
def execLdiExt (x : Ext) (s : State) : Out := simt .ldi x x.len true laneLdi s

/-- LEA (R198): the effective address, unchecked. -/
def execLea (x : Ext) (s : State) : Out := simt .lea x x.len true laneLea s

/-- CMP (R199): a comparison into two predicates. -/
def execCmp (x : Ext) (s : State) : Out := simt .cmp x x.len true laneCmp s

/-- DIV (R200): the quotient. -/
def execDiv (x : Ext) (s : State) : Out := simt .div x x.len true (laneDiv intDiv) s

/-- REM (R200): the remainder. -/
def execRem (x : Ext) (s : State) : Out := simt .rem x x.len true (laneDiv intRem) s

/-- PAND (R206), base form: and. -/
def execPand (b a d : BitVec 7) (s : State) : Out :=
  simt .pand (.b3 false b a d) 4 true (lanePred2 Bool.and) s

/-- PAND (R206), extended form. -/
def execPandExt (x : Ext) (s : State) : Out := simt .pand x x.len true (lanePred2 Bool.and) s

/-- POR (R206), base form: or. -/
def execPor (b a d : BitVec 7) (s : State) : Out :=
  simt .por (.b3 false b a d) 4 true (lanePred2 Bool.or) s

/-- POR (R206), extended form. -/
def execPorExt (x : Ext) (s : State) : Out := simt .por x x.len true (lanePred2 Bool.or) s

/-- PXOR (R206), base form: exclusive or. -/
def execPxor (b a d : BitVec 7) (s : State) : Out :=
  simt .pxor (.b3 false b a d) 4 true (lanePred2 Bool.xor) s

/-- PXOR (R206), extended form. -/
def execPxorExt (x : Ext) (s : State) : Out := simt .pxor x x.len true (lanePred2 Bool.xor) s

/-- PNOT (R206), base form: not P(A). -/
def execPnot (a d : BitVec 7) (s : State) : Out := simt .pnot (.b2 a d) 4 true lanePnot s

/-- PNOT (R206), extended form. -/
def execPnotExt (x : Ext) (s : State) : Out := simt .pnot x x.len true lanePnot s

/-- PSET (R206), base form: X(A) is not 0. -/
def execPset (a d : BitVec 7) (s : State) : Out := simt .pset (.b2 a d) 4 true lanePset s

/-- PSET (R206), extended form. -/
def execPsetExt (x : Ext) (s : State) : Out := simt .pset x x.len true lanePset s

/-- PGET (R206), base form: P(A) as a number. -/
def execPget (a d : BitVec 7) (s : State) : Out := simt .pget (.b2 a d) 4 true lanePget s

/-- PGET (R206), extended form. -/
def execPgetExt (x : Ext) (s : State) : Out := simt .pget x x.len true lanePget s

end Sys2Proof.Machine
end

