-- ==== Sys2Proof/Machine/Numbers.lean ====
section
/-! DEFINITION. Floating-point values and their one rounding (R135-R147): values are decoded to exact
numbers m x 2^e, combined exactly, and rounded once into a format. A result is the format's bits and the
flags it raises (R144). -/

namespace Sys2Proof.Machine

/-- A floating-point format (R135): field widths and bias; `noInf` for e4m3 (R136), `sat` for the
formats that saturate (R143). -/
structure Fmt where
  ebits : Nat
  fbits : Nat
  bias : Nat
  noInf : Bool
  sat : Bool
deriving DecidableEq, Repr

def Fmt.h16 : Fmt := ⟨5, 10, 15, false, false⟩
def Fmt.bf16 : Fmt := ⟨8, 7, 127, false, false⟩
def Fmt.f32 : Fmt := ⟨8, 23, 127, false, false⟩
def Fmt.f64 : Fmt := ⟨11, 52, 1023, false, false⟩
def Fmt.e5m2 : Fmt := ⟨5, 2, 15, false, true⟩
def Fmt.e4m3 : Fmt := ⟨4, 3, 7, true, true⟩

/-- The format of a floating type's elements; f32 for a type that has none. -/
def fmtOf (t : Ty) : Fmt :=
  match t with
  | .h16 | .h16x2 => .h16
  | .bf16 | .bf16x2 => .bf16
  | .f64 => .f64
  | .e4m3 | .e4m3x4 => .e4m3
  | .e5m2 | .e5m2x4 => .e5m2
  | _ => .f32

/-- The format's width in bits. -/
def Fmt.width (f : Fmt) : Nat := 1 + f.ebits + f.fbits

/-- The exponent of the last fraction bit of a subnormal. -/
def Fmt.qmin (f : Fmt) : Int := 1 - (f.bias : Int) - f.fbits

/-- The bits of the largest finite magnitude. -/
def Fmt.maxBits (f : Fmt) : Nat :=
  if f.noInf then 2 ^ (f.ebits + f.fbits) - 2 else (2 ^ f.ebits - 1) * 2 ^ f.fbits - 1

/-- The bits of infinity. -/
def Fmt.infBits (f : Fmt) : Nat := (2 ^ f.ebits - 1) * 2 ^ f.fbits

/-- The default NaN (R137). -/
def Fmt.nan (f : Fmt) : Nat :=
  if f.noInf then 2 ^ (f.ebits + f.fbits) - 1 else f.infBits + 2 ^ (f.fbits - 1)

def Fmt.signBit (f : Fmt) (neg : Bool) : Nat := bit01 neg * 2 ^ (f.ebits + f.fbits)

/-- A decoded value: NaN (signalling or quiet), a signed infinity, or ±m x 2^e, zero with m = 0. -/
inductive FVal where
  | nan (signalling : Bool)
  | inf (neg : Bool)
  | fin (neg : Bool) (m : Nat) (e : Int)
deriving DecidableEq, Repr

def FVal.isNan : FVal → Bool
  | .nan _ => true
  | _ => false

def FVal.isSnan : FVal → Bool
  | .nan s => s
  | _ => false

def FVal.isZero : FVal → Bool
  | .fin _ 0 _ => true
  | _ => false

def FVal.neg : FVal → Bool
  | .nan _ => false
  | .inf n => n
  | .fin n _ _ => n

def FVal.negate : FVal → FVal
  | .nan s => .nan s
  | .inf n => .inf !n
  | .fin n m e => .fin (!n) m e

/-- The value of a format's bits (R135-R137). -/
def Fmt.decode (f : Fmt) (bits : Nat) : FVal :=
  let frac := bits % 2 ^ f.fbits
  let ex := bits / 2 ^ f.fbits % 2 ^ f.ebits
  let neg := bitOf bits (f.ebits + f.fbits)
  if f.noInf && ex * 2 ^ f.fbits + frac == 2 ^ (f.ebits + f.fbits) - 1 then .nan false
  else if !f.noInf && ex == 2 ^ f.ebits - 1 then
    (if frac = 0 then .inf neg else .nan (frac < 2 ^ (f.fbits - 1)))
  else if ex = 0 then .fin neg frac f.qmin
  else .fin neg (2 ^ f.fbits + frac) (f.qmin + ex - 1)

/-- A result: bits and flags. -/
structure Res where
  bits : Nat
  flags : Nat
deriving DecidableEq, Repr

/-! ## Rounding -/

/-- The rounding modes of R142 that need no generator. -/
inductive Mode where
  | rn | rz | ru | rd
deriving DecidableEq, Repr

def Mode.ofSub : Nat → Mode
  | 1 => .rz
  | 2 => .ru
  | 3 => .rd
  | _ => .rn

/-- How a discarded part compares with half of the last kept bit. -/
inductive Rest where
  | none | below | half | above
deriving DecidableEq, Repr

/-- Whether a magnitude is rounded away from zero (R142). -/
def Mode.up (mode : Mode) (neg odd : Bool) (r : Rest) : Bool :=
  match mode, r with
  | _, .none => false
  | .rn, .below => false
  | .rn, .half => odd
  | .rn, .above => true
  | .rz, _ => false
  | .ru, _ => !neg
  | .rd, _ => neg

/-- A magnitude m x 2^e, plus a positive part below 2^e where `sticky`, cut at 2^q: the kept number and
the rest. -/
def cutAt (m : Nat) (e q : Int) (sticky : Bool) : Nat × Rest :=
  if q ≤ e then (m * 2 ^ (e - q).toNat, if sticky then .below else .none)
  else
    let sh := (q - e).toNat
    if Nat.log2 m + 2 < sh then (0, if m = 0 && !sticky then .none else .below)
    else
      let r := m % 2 ^ sh
      let h := 2 ^ (sh - 1)
      (m / 2 ^ sh,
        if r = 0 && !sticky then .none
        else if r < h then .below
        else if r = h && !sticky then .half
        else .above)

/-- The exponent of the last bit that a magnitude keeps in a format, its range unbounded above. -/
def Fmt.quantum (f : Fmt) (m : Nat) (e : Int) : Int :=
  max ((Nat.log2 m : Int) + e - f.fbits) f.qmin

/-- The bits of a magnitude k x 2^q, with k at most 2^(fbits + 1), as if exponents had no upper end. -/
def Fmt.encodeMag (f : Fmt) (k : Nat) (q : Int) : Nat :=
  if k < 2 ^ f.fbits then k else (q - f.qmin).toNat * 2 ^ f.fbits + k

/-- The range rules of R143 on a rounded magnitude's bits: `away` is the direction it was rounded in,
`inexact` whether rounding changed it.
DEDUCED (assumption 52). -/
def Fmt.finish (f : Fmt) (neg : Bool) (bits : Nat) (inexact away : Bool) : Res :=
  if f.maxBits < bits then
    (if f.sat then ⟨f.signBit neg + f.maxBits, orFlags flagSAT flagNX⟩
    else ⟨f.signBit neg + (if away then f.infBits else f.maxBits), orFlags flagOF flagNX⟩)
  else
    ⟨f.signBit neg + bits,
      orFlags (flagIf inexact flagNX)
        (flagIf (inexact && bits != 0 && decide (bits < 2 ^ f.fbits)) flagUF)⟩

/-- Whether an overflow goes to infinity (R143: IEEE 754 by mode). -/
def Mode.toInf (mode : Mode) (neg : Bool) : Bool :=
  match mode with
  | .rn => true
  | .rz => false
  | .ru => !neg
  | .rd => neg

/-- ±(m x 2^e, and a bit more where `sticky`) rounded once into a format (R142, R143). -/
def Fmt.round (f : Fmt) (mode : Mode) (neg : Bool) (m : Nat) (e : Int) (sticky : Bool) : Res :=
  if m = 0 && !sticky then ⟨f.signBit neg, 0⟩
  else
    let q := f.quantum m e
    let (k, r) := cutAt m e q sticky
    let k' := if mode.up neg (k % 2 == 1) r then k + 1 else k
    f.finish neg (f.encodeMag k' q) (r != .none) (mode.toInf neg)

/-- The default NaN, invalid raised where `nv`. -/
def Fmt.nanRes (f : Fmt) (nv : Bool) : Res := ⟨f.nan, flagIf nv flagNV⟩

/-- Convert (R143, R192): a value rounded into a format, with R143's columns for infinite and NaN
sources. -/
def Fmt.convert (f : Fmt) (mode : Mode) : FVal → Res
  | .nan s => f.nanRes s
  | .inf n =>
    if f.noInf then ⟨f.signBit n + f.maxBits, flagSAT⟩ else ⟨f.signBit n + f.infBits, 0⟩
  | .fin n m e => f.round mode n m e false

/-! ## Exact arithmetic -/

/-- A signed exact number m x 2^e. -/
def signedMant (n : Bool) (m : Nat) : Int := if n then -(m : Int) else m

/-- The exact sum of two finite values; a zero sum is -0 only where both are -0 (R238). -/
def addFin (n1 : Bool) (m1 : Nat) (e1 : Int) (n2 : Bool) (m2 : Nat) (e2 : Int) : FVal :=
  let e := min e1 e2
  let v := signedMant n1 m1 * 2 ^ (e1 - e).toNat + signedMant n2 m2 * 2 ^ (e2 - e).toNat
  if v = 0 then .fin (n1 && n2 && m1 == 0 && m2 == 0) 0 0 else .fin (decide (v < 0)) v.natAbs e

/-- An exact result and whether invalid is raised. -/
abbrev Exact := FVal × Bool

/-- a + b (R147, R240). -/
def FVal.add (a b : FVal) : Exact :=
  match a, b with
  | .nan s, b => (.nan false, s || b.isSnan)
  | _, .nan s => (.nan false, s)
  | .inf n, .inf m => if n = m then (.inf n, false) else (.nan false, true)
  | .inf n, .fin _ _ _ => (.inf n, false)
  | .fin _ _ _, .inf n => (.inf n, false)
  | .fin n1 m1 e1, .fin n2 m2 e2 => (addFin n1 m1 e1 n2 m2 e2, false)

/-- a x b (R240). -/
def FVal.mul (a b : FVal) : Exact :=
  match a, b with
  | .nan s, b => (.nan false, s || b.isSnan)
  | _, .nan s => (.nan false, s)
  | .inf n, .inf m => (.inf (Bool.xor n m), false)
  | .inf n, .fin m k _ => if k = 0 then (.nan false, true) else (.inf (Bool.xor n m), false)
  | .fin n k _, .inf m => if k = 0 then (.nan false, true) else (.inf (Bool.xor n m), false)
  | .fin n1 m1 e1, .fin n2 m2 e2 => (.fin (Bool.xor n1 n2) (m1 * m2) (e1 + e2), false)

/-- The exact sum of terms none of which is a NaN, from an accumulator. -/
def sumFrom (acc : Exact) : List Exact → Exact
  | [] => acc
  | x :: xs =>
    let r := acc.1.add x.1
    sumFrom (r.1, acc.2 || r.2) xs

/-- Whether terms hold an infinity of each sign. -/
def bothInf (xs : List Exact) : Bool := (xs.any fun x => x.1 == .inf false) && xs.any fun x => x.1 == .inf true

/-- The exact sum of a list of terms (R149, R250): a NaN term makes it NaN, and so do infinite terms of
both signs, which raise invalid whatever the others are. -/
def sumTerms (x : Exact) (xs : List Exact) : Exact :=
  if (x :: xs).any (·.1.isNan) then (.nan false, (x :: xs).any (·.2) || bothInf (x :: xs)) else sumFrom x xs

/-- An exact result rounded into a format, invalid added (R238). -/
def Fmt.ofExact (f : Fmt) (mode : Mode) (x : Exact) : Res :=
  let r := f.convert mode x.1
  ⟨r.bits, orFlags r.flags (flagIf x.2 flagNV)⟩

/-- FADD, FSUB, FMUL and FMA on a format's bits (R240). -/
def Fmt.add (f : Fmt) (a b : Nat) : Res := f.ofExact .rn ((f.decode a).add (f.decode b))
def Fmt.sub (f : Fmt) (a b : Nat) : Res := f.ofExact .rn ((f.decode a).add (f.decode b).negate)
def Fmt.mul (f : Fmt) (a b : Nat) : Res := f.ofExact .rn ((f.decode a).mul (f.decode b))
def Fmt.fma (f : Fmt) (a b c : Nat) : Res :=
  let p := (f.decode a).mul (f.decode b)
  let r := p.1.add (f.decode c)
  f.ofExact .rn (r.1, p.2 || r.2)

/-- a ÷ b for nonzero finite magnitudes: a quotient of at least 64 bits more than any format keeps, its
exponent, and whether a remainder is left. -/
def quotient (m1 : Nat) (e1 : Int) (m2 : Nat) (e2 : Int) : Nat × Int × Bool :=
  let k := 128 + Nat.log2 m2
  (m1 * 2 ^ k / m2, e1 - e2 - k, m1 * 2 ^ k % m2 != 0)

/-- FDIV (R240). -/
def Fmt.div (f : Fmt) (a b : Nat) : Res :=
  let x := f.decode a
  let y := f.decode b
  let n := Bool.xor x.neg y.neg
  match x, y with
  | .nan s, y => f.nanRes (s || y.isSnan)
  | _, .nan s => f.nanRes s
  | .inf _, .inf _ => f.nanRes true
  | .inf _, .fin _ _ _ => f.convert .rn (.inf n)
  | .fin _ _ _, .inf _ => ⟨f.signBit n, 0⟩
  | .fin _ m1 e1, .fin _ m2 e2 =>
    if m2 = 0 then
      (if m1 = 0 then f.nanRes true else ⟨(f.convert .rn (.inf n)).bits, flagDZ⟩)
    else if m1 = 0 then ⟨f.signBit n, 0⟩
    else
      let (q, e, st) := quotient m1 e1 m2 e2
      f.round .rn n q e st

/-- The integer square root by bits: `fuel` bits below the root so far. -/
def isqrtFrom : (fuel : Nat) → (v root : Nat) → Nat
  | 0, _, root => root
  | fuel + 1, v, root =>
    let r := root + 2 ^ fuel
    isqrtFrom fuel v (if r * r ≤ v then r else root)

/-- The integer square root. -/
def isqrt (v : Nat) : Nat := isqrtFrom (Nat.log2 v / 2 + 1) v 0

/-- √(m x 2^e) for m > 0: a root of at least 64 bits more than any format keeps, its exponent, and
whether it is inexact. -/
def sqrtMag (m : Nat) (e : Int) : Nat × Int × Bool :=
  let (m, e) := if e % 2 = 0 then (m, e) else (m * 2, e - 1)
  let v := m * 2 ^ 256
  (isqrt v, e / 2 - 128, isqrt v * isqrt v != v)

/-- FSQRT (R240). -/
def Fmt.sqrt (f : Fmt) (a : Nat) : Res :=
  match f.decode a with
  | .nan s => f.nanRes s
  | .inf n => if n then f.nanRes true else ⟨f.infBits, 0⟩
  | .fin n m e =>
    if m = 0 then ⟨f.signBit n, 0⟩
    else if n then f.nanRes true
    else
      let (q, x, st) := sqrtMag m e
      f.round .rn false q x st

/-- FSCALE (R240): a x 2^n. -/
def Fmt.scale (f : Fmt) (a : Nat) (n : Int) : Res :=
  match f.decode a with
  | .nan s => f.nanRes s
  | .inf s => ⟨f.signBit s + f.infBits, 0⟩
  | .fin s m e => f.round .rn s m (e + n) false

/-! ## Order (R146, R242) -/

/-- Whether |m1 x 2^e1| < |m2 x 2^e2|. -/
def magLt (m1 : Nat) (e1 : Int) (m2 : Nat) (e2 : Int) : Bool :=
  let e := min e1 e2
  decide (m1 * 2 ^ (e1 - e).toNat < m2 * 2 ^ (e2 - e).toNat)

/-- a < b, zeros equal; false with a NaN. -/
def FVal.lt (a b : FVal) : Bool :=
  match a, b with
  | .nan _, _ => false
  | _, .nan _ => false
  | .inf n, .inf m => n && !m
  | .inf n, .fin _ _ _ => n
  | .fin _ _ _, .inf m => !m
  | .fin n1 m1 e1, .fin n2 m2 e2 =>
    let e := min e1 e2
    decide (signedMant n1 m1 * 2 ^ (e1 - e).toNat < signedMant n2 m2 * 2 ^ (e2 - e).toNat)

/-- a = b, zeros equal; false with a NaN. -/
def FVal.eq (a b : FVal) : Bool := !a.isNan && !b.isNan && !a.lt b && !b.lt a

/-- a comes before b where -0 comes before +0 (R146). -/
def FVal.before (a b : FVal) : Bool := a.lt b || (a.eq b && a.neg && !b.neg)

/-- FMIN, and FMAX where `max` (R146). -/
def Fmt.minMax (f : Fmt) (max : Bool) (a b : Nat) : Res :=
  let x := f.decode a
  let y := f.decode b
  let nv := flagIf (x.isSnan || y.isSnan) flagNV
  if x.isNan && y.isNan then ⟨f.nan, nv⟩
  else if x.isNan then ⟨b, nv⟩
  else if y.isNan then ⟨a, nv⟩
  else if max then ⟨if x.before y then b else a, 0⟩
  else ⟨if y.before x then b else a, 0⟩

/-- FCMP's condition by SUB, and its flags (R242). -/
def Fmt.compare (f : Fmt) (sub a b : Nat) : Bool × Nat :=
  let x := f.decode a
  let y := f.decode b
  let un := x.isNan || y.isNan
  let snan := x.isSnan || y.isSnan
  match sub with
  | 0 => (x.eq y, flagIf snan flagNV)
  | 1 => (!x.eq y, flagIf snan flagNV)
  | 2 => (x.lt y, flagIf un flagNV)
  | 3 => (x.lt y || x.eq y, flagIf un flagNV)
  | 4 => (y.lt x, flagIf un flagNV)
  | 5 => (y.lt x || x.eq y, flagIf un flagNV)
  | 6 => (un, flagIf snan flagNV)
  | _ => (!un, flagIf snan flagNV)

/-- FCLASS (R243). -/
def Fmt.classify (f : Fmt) (a : Nat) : Nat :=
  let mag := a % 2 ^ (f.ebits + f.fbits)
  match f.decode a with
  | .nan s => if s then 256 else 512
  | .inf n => if n then 1 else 128
  | .fin n m _ =>
    if m = 0 then (if n then 8 else 16)
    else if mag < 2 ^ f.fbits then (if n then 4 else 32)
    else if n then 2 else 64

/-! ## Rounding to integers (R245, R246) -/

/-- |m x 2^e| rounded to an integer by a mode, and whether that changed it. -/
def roundInt (mode : Mode) (neg : Bool) (m : Nat) (e : Int) : Nat × Bool :=
  let (k, r) := cutAt m e 0 false
  (if mode.up neg (k % 2 == 1) r then k + 1 else k, r != .none)

/-- FRND (R245). -/
def Fmt.integral (f : Fmt) (mode : Mode) (a : Nat) : Res :=
  match f.decode a with
  | .nan s => f.nanRes s
  | .inf _ => ⟨a, 0⟩
  | .fin n m e =>
    if 0 ≤ e then ⟨a, 0⟩ else ⟨(f.round .rn n (roundInt mode n m e).1 0 false).bits, 0⟩

/-- A floating value converted to an integer of `w` bits (R143, R246). -/
def toInteger (signed : Bool) (w : Nat) (mode : Mode) (x : FVal) : Res :=
  let lo : Int := if signed then -(2 ^ (w - 1)) else 0
  let hi : Int := if signed then 2 ^ (w - 1) - 1 else 2 ^ w - 1
  let enc := fun (v : Int) => (v % 2 ^ w).toNat
  match x with
  | .nan _ => ⟨0, flagNV⟩
  | .inf n => ⟨enc (if n then lo else hi), flagSAT⟩
  | .fin n m e =>
    if m ≠ 0 ∧ 2 * w < Nat.log2 m + e then ⟨enc (if n then lo else hi), orFlags flagSAT flagNX⟩
    else
      let (k, ch) := roundInt mode n m e
      let v := signedMant n k
      if v < lo then ⟨enc lo, orFlags flagSAT flagNX⟩
      else if hi < v then ⟨enc hi, orFlags flagSAT flagNX⟩
      else ⟨enc v, flagIf ch flagNX⟩

/-- An integer as an exact value. -/
def ofInteger (v : Int) : FVal := .fin (decide (v < 0)) v.natAbs 0

/-! ## Stochastic rounding (R145) -/

/-- One step of the generator; a state of 0 is taken as 1. -/
def rngStep (st : Word) : Word :=
  let s := if st = 0 then 1 else st
  let s := s ^^^ (s <<< 13)
  let s := s ^^^ (s >>> 17)
  s ^^^ (s <<< 5)

/-- StochasticRound: the result, and the generator's state after it. A finite value beyond the largest that
is itself a value of the unbounded range steps the generator and is its own neighbour toward zero.
DEDUCED (assumption 52). -/
def Fmt.stochastic (f : Fmt) (st : Word) (x : FVal) : Res × Word :=
  match x with
  | .fin n m e =>
    if (f.round .rz n m e false).flags = 0 then (f.round .rz n m e false, st)
    else
      let st := rngStep st
      let q := f.quantum m e
      let a := (cutAt m e q false).1
      let sh := (q - e).toNat
      let thr := if Nat.log2 m + 40 < sh then 0 else (m - a * 2 ^ sh) * 2 ^ 32 / 2 ^ sh
      let away := decide (st.toNat < thr)
      (f.finish n (f.encodeMag (if away then a + 1 else a) q) true away, st)
  | v => (f.convert .rn v, st)

/-! ## The Q4 block family (R140, R141) -/

/-- The kind's magnitudes, doubled. -/
def q4Mags : Nat → List Nat
  | 1 => [0, 1, 2, 3, 4, 6, 8, 12]
  | 2 => [0, 2, 4, 8, 16, 32, 64, 128]
  | _ => [0, 2, 4, 6, 8, 12, 16, 24]

/-- Decode(kind, code) x 2^(E - 32) for a scale byte and a code (R140). -/
def q4Decode (scale code : Nat) : FVal :=
  let kind := scale / 64 % 4
  let e : Int := (scale % 64 : Nat) - (32 : Int)
  if kind = 0 then
    let v : Int := if code % 16 < 8 then code % 16 else (code % 16 : Nat) - (16 : Int)
    .fin (decide (v < 0)) v.natAbs e
  else .fin (bitOf code 3) ((q4Mags kind).getD (code % 8) 0) (e - 1)

/-- The index of the magnitude nearest to m x 2^e among doubled magnitudes, from index i up; a tie goes
to the even index. Comparisons are of m x 2^(e + 2) with the sum of two neighbours. -/
def q4Nearest (m : Nat) (e : Int) (i : Nat) : List Nat → Nat
  | a :: b :: rest =>
    if magLt m (e + 2) (a + b) 0 || (!magLt (a + b) 0 m (e + 2) && i % 2 == 0) then i
    else q4Nearest m e (i + 1) (b :: rest)
  | _ => i

/-- The kind's largest magnitude M. -/
def q4Max (kind : Nat) : Nat := if kind = 0 then 7 else if kind = 1 then 6 else if kind = 2 then 64 else 12

/-- The 4-bit code of a value under a scale byte, and its flags (R141).
DEDUCED (assumption 52). -/
def q4Encode (scale : Nat) (x : FVal) : Res :=
  let kind := scale / 64 % 4
  let ex : Int := (scale % 64 : Nat) - (32 : Int)
  match x with
  | .nan _ => ⟨0, flagNV⟩
  | .inf n =>
    ⟨if kind = 0 then (if n then 9 else 7) else bit01 n * 8 + 7, orFlags flagSAT flagNX⟩
  | .fin n m e =>
    if kind = 0 then
      (if m ≠ 0 ∧ 16 < Nat.log2 m + (e - ex) then ⟨if n then 8 else 7, orFlags flagSAT flagNX⟩
      else
        let (k, ch) := roundInt .rn n m (e - ex)
        let v := signedMant n k
        if v < -8 then ⟨8, orFlags flagSAT flagNX⟩
        else if 7 < v then ⟨7, orFlags flagSAT flagNX⟩
        else ⟨(v % 16).toNat, flagIf ch flagNX⟩)
    else if magLt (q4Max kind) 0 m (e - ex) then ⟨bit01 n * 8 + 7, orFlags flagSAT flagNX⟩
    else
      let i := q4Nearest m (e - ex) 0 (q4Mags kind)
      let a := (q4Mags kind).getD i 0
      ⟨bit01 n * 8 + i,
        flagIf (magLt m (e - ex) a (-1) || magLt a (-1) m (e - ex)) flagNX⟩

/-- Whether a magnitude is at most M x 2^(E - 32). -/
def q4Fits (kind ex m : Nat) (e : Int) : Bool := !magLt (q4Max kind) ((ex : Int) - 32) m e

/-- The smallest E from `ex` up, within `fuel`, at which a magnitude fits; 63 where none does. -/
def q4Scale (kind m : Nat) (e : Int) : (fuel ex : Nat) → Nat
  | 0, _ => 63
  | fuel + 1, ex => if q4Fits kind ex m e then ex else q4Scale kind m e fuel (ex + 1)

/-- QUANT's E for the largest magnitude of a block, NaN elements ignored (R150). -/
def q4BlockE (kind : Nat) (xs : List FVal) : Nat :=
  if xs.any fun x => match x with | .inf _ => true | _ => false then 63
  else
    let big := xs.foldl (fun (a : Nat × Int) x =>
      match x with
      | .fin _ m e => if magLt a.1 a.2 m e then (m, e) else a
      | _ => a) (0, 0)
    q4Scale kind big.1 big.2 64 0

/-! ## The approximate functions (R244) -/

/-- The terms of the fixed-point series. -/
def seriesTerms : Nat := 60

/-- The bits after the point in the fixed-point series. -/
def fixBits : Nat := 120

/-- ln 2 in fixed point: the sum of 1 ÷ (k 2^k). -/
def ln2From : (fuel k : Nat) → Nat
  | 0, _ => 0
  | fuel + 1, k => 2 ^ (fixBits + 16) / (k * 2 ^ k) + ln2From fuel (k + 1)

def ln2Fix : Nat := ln2From 140 1 / 2 ^ 16

/-- e^y in fixed point by its power series, from the term before. -/
def expFrom (y : Nat) : (fuel k term : Nat) → Nat
  | 0, _, _ => 0
  | fuel + 1, k, term => term + expFrom y fuel (k + 1) (term * y / 2 ^ fixBits / k)

/-- The series of atanh from a power of z. -/
def atanhFrom (z2 : Nat) : (fuel k pow : Nat) → Nat
  | 0, _, _ => 0
  | fuel + 1, k, pow => pow / k + atanhFrom z2 fuel (k + 2) (pow * z2 / 2 ^ fixBits)

/-- A magnitude with its sign, and whether more lies below its last bit. -/
structure Approx where
  neg : Bool
  m : Nat
  e : Int
  sticky : Bool
deriving DecidableEq, Repr

/-- 2^(±m x 2^e), exact where the exponent is an integer. -/
def exp2Mag (neg : Bool) (m : Nat) (e : Int) : Approx :=
  let (ip, fr, sh) : Nat × Nat × Nat :=
    if 0 ≤ e then (m * 2 ^ e.toNat, 0, 0)
    else (m / 2 ^ (-e).toNat, m % 2 ^ (-e).toNat, (-e).toNat)
  let i : Int := if neg then (if fr = 0 then -(ip : Int) else -(ip : Int) - 1) else ip
  let fr := if neg && fr != 0 then 2 ^ sh - fr else fr
  if fr = 0 then ⟨false, 1, i, false⟩
  else
    let y := fr * 2 ^ fixBits / 2 ^ sh * ln2Fix / 2 ^ fixBits
    ⟨false, expFrom y seriesTerms 1 (2 ^ fixBits), i - fixBits, true⟩

/-- log2 (m x 2^e) for m > 0, exact for a power of two. -/
def log2Mag (m : Nat) (e : Int) : Approx :=
  let top := Nat.log2 m
  let ip : Int := e + top
  if m = 2 ^ top then ⟨decide (ip < 0), ip.natAbs, 0, false⟩
  else
    let one := 2 ^ fixBits
    let t := m * one / 2 ^ top
    let z := (t - one) * one / (t + one)
    let ln := 2 * atanhFrom (z * z / one) seriesTerms 1 z
    let v : Int := ip * one + ((ln * one / ln2Fix : Nat) : Int)
    ⟨decide (v < 0), v.natAbs, -(fixBits : Int), true⟩

/-- 1 ÷ √(m x 2^e) for m > 0. -/
def rsqMag (m : Nat) (e : Int) : Approx :=
  let (m, e) := if e % 2 = 0 then (m, e) else (m * 2, e - 1)
  let k := 160 + 2 * Nat.log2 m
  let d := 2 ^ (2 * k) / m
  ⟨false, isqrt d, -(k : Int) - e / 2, 2 ^ (2 * k) % m != 0 || isqrt d * isqrt d != d⟩

/-- 1 ÷ (±m x 2^e) for m > 0. -/
def rcpMag (neg : Bool) (m : Nat) (e : Int) : Approx :=
  let (q, x, st) := quotient 1 0 m e
  ⟨neg, q, x, st⟩

/-- The functions of R244 in the order of their opcodes. -/
inductive Func where
  | rcp | rsq | exp2 | log2
deriving DecidableEq, Repr

def Func.code : Func → Nat
  | .rcp => 0
  | .rsq => 1
  | .exp2 => 2
  | .log2 => 3

/-- The exact result of a function on a nonzero finite operand that has one. -/
def Func.exact (fn : Func) (neg : Bool) (m : Nat) (e : Int) : Approx :=
  match fn with
  | .rcp => rcpMag neg m e
  | .rsq => rsqMag m e
  | .exp2 => if 20 < (Nat.log2 m : Int) + e then ⟨false, 1, if neg then -(2 ^ 20) else 2 ^ 20, false⟩
    else exp2Mag neg m e
  | .log2 => log2Mag m e

/-- R244: whether an f32 result lies within the function's bound of the exact one. `near` is an operand
of FLOG2 from 0.5 to 2.
DESIGN CHOICE (assumption 18). -/
def withinBound (fn : Func) (near : Bool) (x : Approx) (r : FVal) : Bool :=
  match r with
  | .fin n m e =>
    let lo := min x.e e
    let d := (signedMant x.neg x.m * 2 ^ (x.e - lo).toNat - signedMant n m * 2 ^ (e - lo).toNat).natAbs
    if fn = .log2 && near then !magLt 1 (-22) d lo
    else !magLt (if fn = .rcp then 1 else 2) (Fmt.f32.quantum x.m x.e) d lo
  | _ => false

/-- The part's own f32 value of a function at a nonzero finite operand, where it keeps the function's bound and the
format's range; none where the result is exact.
DESIGN CHOICE (assumption 18). -/
def Func.own (fn : Func) (neg : Bool) (m : Nat) (e : Int) (bits : Nat) : Option Nat :=
  let x := fn.exact neg m e
  let good := Fmt.f32.round .rn x.neg x.m x.e x.sticky
  if good.flags = 0 && !x.sticky then none
  else
    let v := (Config.approx fn.code (.ofNat 32 (if fn = .rcp then bits % 2 ^ 31 else bits))).toNat
    let v := if fn = .rcp then v % 2 ^ 31 + Fmt.f32.signBit neg else v
    let near := !magLt m e 1 (-1) && !magLt 1 1 m e
    if decide (good.flags &&& flagOF = 0) && withinBound fn near x (Fmt.f32.decode v) then some v else none

/-- What a function would return for a finite f32 operand with the part's own values. -/
def Func.f32At (fn : Func) (bits : Nat) : Nat :=
  match Fmt.f32.decode bits with
  | .fin n m e =>
    if m = 0 then (if fn = .exp2 then (Fmt.f32.round .rn false 1 0 false).bits else Fmt.f32.infBits)
    else
      let x := fn.exact n m e
      (fn.own n m e bits).getD (Fmt.f32.round .rn x.neg x.m x.e x.sticky).bits
  | _ => 0

/-- The part's own values keep the order of R244 at the operands whose magnitude's bits are at most k: FRSQ does not
increase, FEXP2 does not decrease. -/
def Func.inOrder (fn : Func) : (k : Nat) → Bool
  | 0 => true
  | k + 1 =>
    fn.inOrder k &&
      (match fn with
        | .rsq => decide (fn.f32At (k + 1) ≤ fn.f32At k)
        | .exp2 => decide (fn.f32At k ≤ fn.f32At (k + 1)) &&
            decide (fn.f32At (2 ^ 31 + k + 1) ≤ fn.f32At (2 ^ 31 + k))
        | .rcp | .log2 => true)

/-- The bits of the largest finite f32. -/
def largestF32 : Nat := 0x7F7FFFFF

/-- A function's result on a nonzero finite operand: exact where it can be; for h16 and bf16 correctly
rounded; for f32 the part's own value where that keeps the bound, the range and the order.
DESIGN CHOICE (assumption 18). -/
def Fmt.applyFunc (f : Fmt) (fn : Func) (neg : Bool) (m : Nat) (e : Int) (bits : Nat) : Res :=
  let x := fn.exact neg m e
  let good := f.round .rn x.neg x.m x.e x.sticky
  if f != Fmt.f32 then good
  else
    match fn.own neg m e bits with
    | none => good
    | some v =>
      if fn.inOrder largestF32 then
        ⟨v, orFlags flagNX (flagIf (v % 2 ^ 31 != 0 && decide (v % 2 ^ 31 < 2 ^ f.fbits)) flagUF)⟩
      else good

/-- FRCP, FRSQ, FEXP2 and FLOG2 (R244).
DESIGN CHOICE (assumption 18). -/
def Fmt.func (f : Fmt) (fn : Func) (a : Nat) : Res :=
  match f.decode a with
  | .nan s => f.nanRes s
  | .inf n =>
    (match fn with
      | .rcp => ⟨f.signBit n, 0⟩
      | .rsq => if n then f.nanRes true else ⟨0, 0⟩
      | .exp2 => if n then ⟨0, 0⟩ else ⟨f.infBits, 0⟩
      | .log2 => if n then f.nanRes true else ⟨f.infBits, 0⟩)
  | .fin n m e =>
    if m = 0 then
      (match fn with
        | .rcp | .rsq => ⟨f.signBit n + f.infBits, flagDZ⟩
        | .exp2 => ⟨(f.round .rn false 1 0 false).bits, 0⟩
        | .log2 => ⟨f.signBit true + f.infBits, flagDZ⟩)
    else if n && (fn == .rsq || fn == .log2) then f.nanRes true
    else f.applyFunc fn n m e a

/-! ## Elements of packed types (R138) -/

/-- Element i of a packed value whose elements have `w` bits. -/
def elemOf (w v i : Nat) : Nat := v / 2 ^ (w * i) % 2 ^ w

/-- `v` with element i replaced. -/
def setElem (w v i x : Nat) : Nat := setBits v (w * i + w - 1) (w * i) x

/-- An operation applied to elements 0 to n - 1, the flags combined. -/
def perElem (w : Nat) (op : Nat → Res) : Nat → Res
  | 0 => ⟨0, 0⟩
  | n + 1 =>
    let r := perElem w op n
    let x := op n
    ⟨r.bits + x.bits % 2 ^ w * 2 ^ (w * n), orFlags r.flags x.flags⟩

end Sys2Proof.Machine
end

