-- ==== Sys2Proof/Machine/Squad.lean ====
section
/-! DEFINITION. The squad instructions (R207-R211): each reads every active lane's operands as they
stand and writes every active lane's result. -/

namespace Sys2Proof.Machine

/-- A register result written in each of some threads. -/
def State.writeEach (s : State) (i : Issue) (n : Nat) (f : Tid → Nat) (ts : List Tid) : State :=
  ts.foldl (fun s t => s.writeD i t n (f t)) s

/-- A predicate result written in each of some threads. -/
def State.setPEach (s : State) (p : Nat) (f : Tid → Bool) (ts : List Tid) : State :=
  ts.foldl (fun s t => s.modThread t fun th => th.setP p (f t)) s

/-- The mask of the lanes of some threads. -/
def lanesMask (ts : List Tid) : Nat := ts.foldl (fun m t => m ||| 2 ^ t.lane) 0

/-- VOTE (R208). -/
def squadVote (i : Issue) (_ : Sid) (ts : List Tid) (s : State) : SquadOut :=
  let yes := ts.filter fun t => (s.thread t).p i.x.a.toNat
  let d := i.x.d.toNat
  match i.x.sub.toNat with
  | 0 => { s := s.setPEach d (fun _ => yes.length == ts.length) ts }
  | 1 => { s := s.setPEach d (fun _ => !yes.isEmpty) ts }
  | _ => { s := s.writeEach i 2 (fun _ => lanesMask yes) ts }

/-- The source lane of SHFL, if it is a lane number (R209). -/
def shflLane (sub l b : Nat) : Option Nat :=
  match sub with
  | 0 => some b
  | 1 => if b ≤ l then some (l - b) else none
  | 2 => some (l + b)
  | _ => some (l ^^^ b)

/-- The active thread in the source lane of SHFL, if there is one. -/
def shflSource (s : State) (i : Issue) (ts : List Tid) (t : Tid) : Option Tid :=
  match shflLane i.x.sub.toNat t.lane (operandB s i.x t 1) with
  | some l => ts.find? fun u => u.lane == l
  | none => none

/-- SHFL (R209). -/
def squadShfl (i : Issue) (_ : Sid) (ts : List Tid) (s : State) : SquadOut :=
  let s1 := s.writeEach i i.x.type.regs (fun t => srcA s i ((shflSource s i ts t).getD t)) ts
  { s := s1.setPEach i.x.e.toNat (fun t => (shflSource s i ts t).isSome) ts }

/-- The combination of SRED and SSCAN by op and type: result and flags (R210). -/
def combine (op : Nat) (ty : Ty) (a b : Nat) : Nat × Nat :=
  let w := tyBits ty
  match op with
  | 0 => (fillInt ty (srcInt ty a + srcInt ty b), 0)
  | 1 => (fillInt ty (min (srcInt ty a) (srcInt ty b)), 0)
  | 2 => (fillInt ty (max (srcInt ty a) (srcInt ty b)), 0)
  | 3 => (bitsAnd w a b, 0)
  | 4 => (bitsOr w a b, 0)
  | 5 => (bitsXor w a b, 0)
  | 6 => let r := (fmtOf ty).add a b; (r.bits, r.flags)
  | 7 => let r := (fmtOf ty).minMax false a b; (r.bits, r.flags)
  | _ => let r := (fmtOf ty).minMax true a b; (r.bits, r.flags)

/-- The first exclusive value by op and type (R210). -/
def firstExclusive (op : Nat) (ty : Ty) : Nat :=
  let w := tyBits ty
  match op with
  | 0 => 0
  | 1 => fillInt ty (intMax (tySigned ty) w)
  | 2 => fillInt ty (intMin (tySigned ty) w)
  | 3 => 2 ^ w - 1
  | 4 => 0
  | 5 => 0
  | 6 => (fmtOf ty).signBit true
  | 7 => (fmtOf ty).infBits
  | _ => (fmtOf ty).signBit true + (fmtOf ty).infBits

/-- A lane's value under the type: a narrow value is read by R193 or R237. -/
def scanValue (ty : Ty) (v : Nat) : Nat :=
  if ty.isFloat then v % 2 ^ tyBits ty else if ty.isInt then fillInt ty (srcInt ty v) else v

/-- The values of R210's loop, lane by lane: exclusive and inclusive value and the flags so far. -/
def scanFrom (op : Nat) (ty : Ty) (acc : Option Nat) (fl : Nat) :
    List (Tid × Nat) → List (Tid × Nat × Nat) × Option Nat × Nat
  | [] => ([], acc, fl)
  | (t, v) :: vs =>
    let ex := acc.getD (firstExclusive op ty)
    let r := match acc with
      | none => (v, 0)
      | some a => combine op ty a v
    let rest := scanFrom op ty (some r.1) (orFlags fl r.2) vs
    ((t, ex, r.1) :: rest.1, rest.2)

/-- SRED and SSCAN (R210). -/
def squadScan (scan : Bool) (i : Issue) (_ : Sid) (ts : List Tid) (s : State) : SquadOut :=
  let ty := i.x.type
  let op := i.x.sub.toNat % 16
  let (vals, acc, fl) := scanFrom op ty none 0 (ts.map fun t => (t, scanValue ty (srcA s i t)))
  let res := fun (v : Tid × Nat × Nat) =>
    if !scan then acc.getD 0 else if 16 ≤ i.x.sub.toNat then v.2.1 else v.2.2
  let s1 := vals.foldl (fun s v => s.writeD i v.1 ty.regs (res v)) s
  { s := ts.foldl (fun s t => s.raiseFlags t fl) s1 }

/-- ELECT (R211). -/
def squadElect (i : Issue) (_ : Sid) (ts : List Tid) (s : State) : SquadOut :=
  match ts with
  | [] => { s }
  | u :: _ =>
    let s1 := s.setPEach i.x.d.toNat (fun t => t == u) ts
    { s := ts.foldl (fun s t => s.modThread t fun th => th.setX i.x.e.toNat (.ofNat 32 u.lane)) s1 }

/-- MATCH (R211). -/
def squadMatch (i : Issue) (_ : Sid) (ts : List Tid) (s : State) : SquadOut :=
  let same := fun (t : Tid) => ts.filter fun u => srcA s i u == srcA s i t
  let s1 := s.writeEach i 2 (fun t => lanesMask (same t)) ts
  { s := s1.setPEach i.x.e.toNat (fun t => (same t).length == ts.length) ts }

/-- VOTE (R208): all, any or ballot of a predicate. -/
def execVote (x : Ext) (s : State) : Out := simtSquad .vote x x.len squadVote s

/-- SHFL (R209): a register of another lane. -/
def execShfl (x : Ext) (s : State) : Out := simtSquad .shfl x x.len squadShfl s

/-- SRED (R210): a reduction in lane order. -/
def execSred (x : Ext) (s : State) : Out := simtSquad .sred x x.len (squadScan false) s

/-- SSCAN (R210): a scan in lane order. -/
def execSscan (x : Ext) (s : State) : Out := simtSquad .sscan x x.len (squadScan true) s

/-- ELECT (R211): the lowest active lane. -/
def execElect (x : Ext) (s : State) : Out := simtSquad .elect x x.len squadElect s

/-- MATCH (R211): the lanes that hold one value. -/
def execMatch (x : Ext) (s : State) : Out := simtSquad .match x x.len squadMatch s

end Sys2Proof.Machine
end

