-- ==== Sys2Proof/Machine/LoadStore.lean ====
section
/-! DEFINITION. Loads, stores and atomics (R216-R226), prefetch and hints (R229, R230), page requests
(R94, R231), fences (R232), and how a long-latency instruction completes (R182, R183, R327, R328). -/

namespace Sys2Proof.Machine

/-! ## A lane's access -/

/-- What a lane's access comes to: it is made at a location, the page is not resident and RF names a
predicate (R92), or the lane's instruction has another outcome. -/
inductive Access where
  | go (l : Loc) (s : State)
  | absent (s : State)
  | out (o : LaneOut)

/-- The checks of R81 with R92 on a lane's access of `n` bytes. -/
def access (i : Issue) (t : Tid) (s : State) (n : Nat) (kind : AccessKind) : Access :=
  let a := effAddr s i t
  match s.checkAddr i.core t.team (s.launchOf t).space a n n kind with
  | .ok l s => .go l s
  | .trap c => .out (.trap c a)
  | .absent => if i.x.rf = 0 then .out (.trap Cause.nonresident a) else .absent s
  | .held => .out .hold

/-- The residency predicate an instruction names, with its value (R92). -/
def residency (i : Issue) (v : Bool) : List (Nat × Bool) :=
  if i.x.rf = 0 then [] else [(i.x.rf.toNat, v)]

/-- The residency predicate written at once. -/
def State.setResidency (s : State) (i : Issue) (t : Tid) (v : Bool) : State :=
  s.modThread t fun th => th.setPreds (residency i v)

/-- An absent scratchpad line parks the lane (R87); otherwise its event is made. -/
def onPresent (s : State) (t : Tid) (l : Loc) (n : Nat) (o : LaneOut) : LaneOut :=
  match s.lineAbsent t.team l n with
  | some (h, k) => .parkAgain (.line h k)
  | none => o

/-- The hint of an instruction (R96). -/
def Issue.hint (i : Issue) : Hint := .ofCode i.x.hint.toNat

def State.loadAt (s : State) (i : Issue) (t : Tid) : Loc → State
  | .glob pa => s.cacheLoad i.core t pa i.hint
  | .scr _ _ => s

def State.storeAt (s : State) (i : Issue) (t : Tid) : Loc → State
  | .glob pa => s.cacheStore i.core t pa i.hint
  | .scr _ _ => s

def State.atomicAt (s : State) (i : Issue) (t : Tid) : Loc → State
  | .glob pa => s.cacheAtomic i.core t pa i.hint
  | .scr _ _ => s

/-- A loaded value as its register holds it (R218). -/
def fillLoaded (ty : Ty) (v : Nat) : Nat :=
  match ty with
  | .i8 | .i16 => fillInt ty v
  | _ => v

/-- The results of a long-latency memory instruction: D, and the residency predicate. -/
def laterResult (i : Issue) (t : Tid) (s : State) (v : Nat) (resident : Bool) (flags : Nat) : LaneOut :=
  s.later i t (regWrites i.x.d.toNat i.x.type.regs v) (residency i !resident) flags

/-- LD (R219). -/
def laneLd (i : Issue) (t : Tid) (s : State) : LaneOut :=
  let n := i.x.type.size
  match access i t s n .read with
  | .out o => o
  | .absent s => laterResult i t s 0 false 0
  | .go l s =>
    onPresent s t l n
      (if s.badLoc t.team l n then s.laterFault i t Cause.dataUncorrectable (effAddr s i t)
      else
        let r := (s.loadAt i t l).seen .t (s.party t) t.team l n
        laterResult i t r.2 (fillLoaded i.x.type r.1) true 0)

/-- ST (R220): made at once, whether or not the line is present (R87). -/
def laneSt (i : Issue) (t : Tid) (s : State) : LaneOut :=
  let n := i.x.type.size
  match access i t s n .write with
  | .out o => o
  | .absent s => .next (s.setResidency i t true)
  | .go l s =>
    if s.badLoc t.team l n then .trap Cause.dataUncorrectable (effAddr s i t)
    else
      let v := (s.thread t).xs i.x.d.toNat i.x.type.regs % 2 ^ (8 * n)
      .next (((s.storeAt i t l).threadWrite t l n v).setResidency i t false)

/-! ## Atomics -/

/-- An element-wise floating operation of SUB 7 to 9 (R221). -/
def atomFloat (sub : Nat) (ty : Ty) (old v : Nat) : Res :=
  let w := 8 * ty.elem.size
  let f := fmtOf ty
  perElem w (fun k =>
    let a := elemOf w old k
    let b := elemOf w v k
    if sub = 7 then f.add a b else f.minMax (sub == 9) a b) ty.elems

/-- The new value and the flags of an atomic operation (R221). -/
def atomOp (sub : Nat) (ty : Ty) (old v : Nat) : Res :=
  let w := tyBits ty
  match sub with
  | 0 => ⟨wrapTo w (srcInt ty old + srcInt ty v), 0⟩
  | 1 => ⟨wrapTo w (min (srcInt ty old) (srcInt ty v)), 0⟩
  | 2 => ⟨wrapTo w (max (srcInt ty old) (srcInt ty v)), 0⟩
  | 3 => ⟨bitsAnd w old v, 0⟩
  | 4 => ⟨bitsOr w old v, 0⟩
  | 5 => ⟨bitsXor w old v, 0⟩
  | 6 => ⟨v, 0⟩
  | sub => atomFloat sub ty old v

/-- ATOM (R222). -/
def laneAtom (i : Issue) (t : Tid) (s : State) : LaneOut :=
  let n := i.x.type.size
  match access i t s n .atomic with
  | .out o => o
  | .absent s => laterResult i t s 0 false 0
  | .go l s =>
    onPresent s t l n
      (if s.badLoc t.team l n then s.laterFault i t Cause.dataUncorrectable (effAddr s i t)
      else
        let old := s.readLoc t.team l n
        let r := atomOp i.x.sub.toNat i.x.type old (srcC s i t)
        laterResult i t ((s.atomicAt i t l).threadUpdate t l n r.bits) old true r.flags)

/-- Flags of an add without return (R148, R223): into L2AFLAGS of the home slice, or SPAFLAGS of the core
whose half holds the word. -/
def State.addFlags (s : State) (team : Nat) (l : Loc) (f : Nat) : State :=
  if f = 0 then s
  else
    match l with
    | .glob pa =>
      let k := s.sliceOf pa
      s.modSite (siteOfPa pa) fun st =>
        { st with l2aflags := st.l2aflags.set k (st.l2aflags.getD k 0 ||| .ofNat 6 f) }
    | .scr h _ =>
      s.modCore ((s.team team).core + h) fun co => { co with spaFlags := co.spaFlags ||| .ofNat 6 f }

/-- RED (R223). -/
def laneRed (i : Issue) (t : Tid) (s : State) : LaneOut :=
  let n := i.x.type.size
  match access i t s n .atomic with
  | .out o => o
  | .absent s => .next (s.setResidency i t true)
  | .go l s =>
    onPresent s t l n
      (if s.badLoc t.team l n then .trap Cause.dataUncorrectable (effAddr s i t)
      else
        let r := atomOp i.x.sub.toNat i.x.type (s.readLoc t.team l n) (srcC s i t)
        let s := s.addFlags t.team l r.flags
        .next (((s.atomicAt i t l).threadUpdate t l n r.bits).setResidency i t false))

/-- A CAS that fails (R224): a read alone at the home L2. -/
def State.readAt (s : State) (i : Issue) (t : Tid) : Loc → State
  | .glob pa => s.cachePeek t pa i.hint
  | .scr _ _ => s

/-- CAS (R224): a write only where the value is the expected one. -/
def laneCas (i : Issue) (t : Tid) (s : State) : LaneOut :=
  let n := i.x.type.size
  match access i t s n .atomic with
  | .out o => o
  | .absent s => laterResult i t s 0 false 0
  | .go l s =>
    onPresent s t l n
      (if s.badLoc t.team l n then s.laterFault i t Cause.dataUncorrectable (effAddr s i t)
      else
        let old := s.readLoc t.team l n
        let new := (s.thread t).xs i.x.e.toNat i.x.type.regs
        laterResult i t (if old = srcC s i t then (s.atomicAt i t l).threadUpdate t l n new
          else (s.readAt i t l).sees (s.party t) t.team l n)
          old true 0)

/-! ## FADDW (R226, R228) -/

/-- The exact f32 of an 8-bit number. -/
def f32OfByte (v : Nat) : Nat := (Fmt.f32.convert .rn (ofInteger v)).bits

/-- FADDW's threshold, where it has one. -/
def faddwThreshold (s : State) (i : Issue) (t : Tid) : Option Nat :=
  let ty := i.x.type
  match i.x.sub.toNat with
  | 0 => some (if ty = .f32 then f32OfByte i.x.imm.toNat else i.x.imm.toNat)
  | 1 => some ((s.k t i.x.e.toNat).toNat % 2 ^ (8 * ty.size))
  | _ => none

/-- Whether a is at least b in the order of a type of FADDW or WAITW: b32 is unsigned, and a NaN is
below every value (R226, R227). -/
def wordGe (ty : Ty) (a b : Nat) : Bool :=
  if ty = .f32 then
    (let x := Fmt.f32.decode a
     let y := Fmt.f32.decode b
     y.lt x || x.eq y)
  else
    let signed := ty == .i32 || ty == .i64
    decide (intVal signed (tyBits ty) b ≤ intVal signed (tyBits ty) a)

/-- Wake(a) (R228): every thread parked by WAITW on overlapping bytes is due to wake.
DEDUCED (assumption 96). -/
def State.wakeWatchers (s : State) (team : Nat) (l : Loc) (n : Nat) : State :=
  s.threads.foldl (fun s p =>
    match p.2.status with
    | .parked (.word w) =>
      if l.overlaps (p.1.team == team) n w.loc w.ty.size then s.due (.waitwWake p.1) 0 else s
    | _ => s) s

/-- The sum of FADDW: f32 rounded once, integers wrapping (R226). -/
def faddwSum (ty : Ty) (old v : Nat) : Res :=
  if ty = .f32 then Fmt.f32.add old v else ⟨(old + v) % 2 ^ tyBits ty, 0⟩

/-- FADDW (R226). -/
def laneFaddw (i : Issue) (t : Tid) (s : State) : LaneOut :=
  let n := i.x.type.size
  match access i t s n .atomic with
  | .out o => o
  | .absent s => laterResult i t s 0 false 0
  | .go l s =>
    onPresent s t l n
      (if s.badLoc t.team l n then s.laterFault i t Cause.dataUncorrectable (effAddr s i t)
      else
        let old := s.readLoc t.team l n
        let r := faddwSum i.x.type old (srcC s i t)
        let s1 := (s.atomicAt i t l).threadUpdate t l n r.bits
        let wakes := match faddwThreshold s i t with
          | none => true
          | some th => wordGe i.x.type r.bits th
        laterResult i t (if wakes then s1.wakeWatchers t.team l n else s1) old true r.flags)

/-! ## Prefetch and hints -/

/-- The access of PREF or CLHINT, checked as a 1-byte load (R229, R230); an address in the scratchpad form
has no effect and does not trap (R79).
DEDUCED (assumption 92). -/
def hintAccess (i : Issue) (t : Tid) (s : State) : Access :=
  let a := effAddr s i t
  if isScratch a && formOk (s.team t.team).paired a then .go (.scr (scratchHalf a) (scratchOff a)) s
  else access i t s 1 .read

/-- PREF (R229): the line is brought in, or under `.na` the translation alone.
DEDUCED (assumption 92). -/
def lanePref (i : Issue) (t : Tid) (s : State) : LaneOut :=
  match hintAccess i t s with
  | .out o => o
  | .absent s => .next (s.setResidency i t true)
  | .go l s => .next ((if i.x.hint = 3 then s else s.loadAt i t l).setResidency i t false)

/-- CLHINT (R230).
DEDUCED (assumption 92). -/
def laneClhint (i : Issue) (t : Tid) (s : State) : LaneOut :=
  match hintAccess i t s with
  | .out o => o
  | .absent s => .next (s.setResidency i t true)
  | .go l s =>
    let s1 := match l with
      | .glob pa => s.clhint i.core pa i.x.sub.toNat
      | .scr _ _ => s
    .next (s1.setResidency i t false)

/-! ## PAGEREQ (R94, R231) -/

/-- PAGEREQ: the completion operand is checked, then the address's form; the request stands until the
page is resident.
DEDUCED (assumption 48). -/
def lanePagereq (i : Issue) (t : Tid) (s : State) : LaneOut :=
  let sp := (s.launchOf t).space
  let op := (s.thread t).xp i.x.c.toNat
  match s.checkCompletion i.core (some t.team) sp op with
  | .error (c, a) => failLane c a
  | .ok s =>
    let a := effAddr s i t
    if !isGlobal a then .trap Cause.addressForm a
    else
      let (id, s) := s.fresh
      let q : PageReq :=
        { asn := sp.asn, tableRoot := sp.root, system := sp.system, va := a.toNat, core := i.core
          team := t.team, done := op, agent := s.party t }
      .next ({ s with pageReqs := s.pageReqs.set id q }.due (.pagereqComplete id) coreTicks)

/-- The signal of a page request (R94, R115). Nothing is left to signal in the scratchpad of a team
that has been released. -/
def State.signalPage (s : State) (q : PageReq) (failed : Bool) (cause : Nat) : State :=
  if (AMap.find? q.team s.teams).isNone && isScratch (sigAddr q.done) then s
  else
    s.signal
      { core := q.core, team := if q.team = 0 then none else some q.team
        sp := ⟨q.asn, q.tableRoot, q.system⟩, op := q.done, n := 1, failed, cause, agent := q.agent }

/-- PAGEREQ_COMPLETE (R94): the page is resident, or not valid; until then the request stands.
DEDUCED (assumption 48). -/
def execPagereqComplete (req : Nat) (s : State) : Out :=
  match AMap.find? req s.pageReqs with
  | none => .next s
  | some q =>
    let gone := { s with pageReqs := s.pageReqs.erase req }
    match s.translateWalk ⟨q.asn, q.tableRoot, q.system⟩ q.va .read with
    | .ok (_, s1) => .next ({ s1 with pageReqs := s.pageReqs.erase req }.signalPage q false 0)
    | .error c =>
      if c = Cause.nonresident ∨ c = heldCause then .next (s.due (.pagereqComplete req) coreTicks)
      else .next (gone.signalPage q true Cause.protection)

/-! ## Fences and completion -/

/-- The fence in an instruction's fields (R176, R232). -/
def extFence (x : Ext) : Fence := ⟨x.pm1, x.pm2, x.sel.toNat⟩

/-- FENCE (R117, R232). -/
def laneFence (i : Issue) (t : Tid) (s : State) : LaneOut := .next (s.fence (extFence i.x) (s.party t))

/-- A window of a thread, in either of the places it may be kept. -/
def Thread.windowOf (th : Thread) (w : Nat) : Option Window :=
  (th.windows ++ th.saved).find? fun v => v.id == w

/-- The windows with one complete; an exhausted complete one is gone, unless it has a fault to raise. -/
def finishWindow (w : Nat) (faulted : Bool) (ws : List Window) : List Window :=
  (ws.map fun v => if v.id == w then { v with complete := true } else v).filter
    fun v => !(v.id == w && v.left == 0 && !faulted)

/-- A window's results written (R182). -/
def Thread.deliver (th : Thread) (v : Window) : Thread :=
  ((th.setRegs v.regs).setPreds v.preds).raise v.flags

/-- A window complete: what waited for it is ready from the present clock on (R37).
DEDUCED (assumption 24). -/
def State.complete (s : State) (t : Tid) (w : Nat) (faulted : Bool) : State :=
  s.modThread t fun th =>
    let waited := th.windowWait
    let th := { th with
      windows := finishWindow w faulted th.windows
      saved := finishWindow w faulted th.saved }
    if waited && !th.windowWait then { th with since := s.clock } else th

/-- LONG_LATENCY_COMPLETE (R182, R183): the results of a long-latency instruction are written. -/
def execLongLatencyComplete (t : Tid) (w : Nat) (s : State) : Out :=
  match (s.thread t).windowOf w with
  | some v =>
    if v.known && !v.complete && v.fault.isNone then
      .next ((s.modThread t fun th => th.deliver v).complete t w false)
    else .next s
  | none => .next s

/-- LONG_LATENCY_FAULT (R328): the instruction has met a fault, and the thread traps in place of the
next instruction it would issue. -/
def execLongLatencyFault (t : Tid) (w : Nat) (cause : BitVec 8) (addr : DWord) (s : State) : Out :=
  match (s.thread t).windowOf w with
  | some v =>
    if v.known && !v.complete && v.fault == some (cause.toNat, addr) then .next (s.complete t w true)
    else .next s
  | none => .next s

/-! ## The meanings -/

/-- LD (R219): a load. -/
def execLd (x : Ext) (s : State) : Out := simt .ld x x.len true laneLd s

/-- PREF (R229), base form: a prefetch. -/
def execPref (i : BitVec 8) (a : BitVec 7) (s : State) : Out :=
  simt .pref (.bi i a 0) 4 true lanePref s

/-- PREF (R229), extended form. -/
def execPrefExt (x : Ext) (s : State) : Out := simt .pref x x.len true lanePref s

/-- PAGEREQ (R231): a request for a page. -/
def execPagereq (x : Ext) (s : State) : Out := simt .pagereq x x.len true lanePagereq s

/-- CLHINT (R230): the class of a cached line. -/
def execClhint (x : Ext) (s : State) : Out := simt .clhint x x.len true laneClhint s

/-- FENCE (R232): an order between paths. -/
def execFence (x : Ext) (s : State) : Out := simt .fence x x.len true laneFence s

end Sys2Proof.Machine
end

