-- ==== Sys2Proof/Machine/Commands.lean ====
section
/-! DEFINITION. Engine commands (R74, R93, R270, R271): queue entries, addresses translated at issue,
presence counts (R86), the transfers of a command, its completion (R115), and the tensor shape records
(R274-R276). -/

namespace Sys2Proof.Machine

/-! ## Queue entries (R74) -/

/-- The three engine queues of a core. -/
inductive EngineQueue where
  | copy | put | near
deriving DecidableEq, Repr

/-- The queue of a command's instruction. -/
def engineQueue : Op → EngineQueue
  | .put | .get | .msg => .put
  | .nmcmd => .near
  | _ => .copy

/-- The commands of one queue of a core. -/
def State.inQueue (s : State) (core : Nat) (q : EngineQueue) : List Command :=
  (s.commands.filter fun p => p.2.core == core && engineQueue p.2.op == q).map Prod.snd

/-- The entries of a core's shared pool in use, of its three queues together. -/
def State.sharedOn (s : State) (core : Nat) : List Command :=
  (s.commands.filter fun p => p.2.core == core && p.2.shared).map Prod.snd

/-- The shared entries that a team holds, of all its cores together. -/
def State.sharedOf (s : State) (team : Nat) : Nat :=
  (s.commands.filter fun p => p.2.team == team && p.2.shared).length

/-- The entry a command of a team takes: one of the team's 4 reserved in the queue, or one of the core's 256
shared while the team holds fewer than 128; none where the command is refused. -/
def State.takeEntry (s : State) (core team : Nat) (q : EngineQueue) : Option Bool :=
  let mine := (s.inQueue core q).filter fun c => c.team == team
  if (mine.filter fun c => !c.shared).length < 4 then some false
  else if (s.sharedOn core).length < 256 && s.sharedOf team < 128 then some true
  else none

/-- A command with nothing in it. -/
def Command.blank : Command :=
  { op := .cpy, sub := 0, ty := .b32, hint := 0, core := 0, team := 0, lid := 0, lanes := [], agent := .foreign,
    space := ⟨0, 0, false⟩, shared := false, done := 0, pieces := [], pages := [], lines := [], ready := true, began := false,
    cause := 0, win := none, word := 0, addr := 0, len := 0, plane := .reticle, refusals := 0,
    parts := [], rows := [], sums := [], root := 0, tsr := 0 }

/-- The command of some lanes of one squad, as the instruction's fields and operands give it. -/
def commandOf (i : Issue) (q : Sid) (ts : List Tid) (s : State) (done : DWord) : Command :=
  { Command.blank with
    op := i.op, sub := i.x.sub.toNat, ty := i.x.type, hint := i.x.hint.toNat, core := i.core,
    team := q.team, lid := (s.team q.team).lid, lanes := ts,
    agent := s.party (ts.headD ⟨q.team, 0, 0⟩), space := (s.teamLaunch q.team).space, done := done }

/-! ## Addresses -/

/-- The size of the pages a command's addresses are translated in. -/
def pageSize : Nat := 65536

/-- The global addresses at which a range enters a page: its start, and each page boundary in it. -/
def pageStarts (a n : Nat) : List Nat :=
  if isScratch (.ofNat 64 a) || n = 0 then []
  else
    a :: (List.range' (a / pageSize + 1) ((a + n - 1) / pageSize - a / pageSize)).map (· * pageSize)

/-- Pages translated at issue (R271): the first that is not valid, whose rights forbid the access, or that is
register space and accessed in other than 4 or 8 bytes (R21) gives its cause and address; one that is not resident
is noted as such. -/
def State.translatePages (s : State) (core : Nat) (sp : Space) (kind : AccessKind) (size : Nat) :
    List Nat → AMap Nat (Option Nat) → Except (Nat × Nat) (AMap Nat (Option Nat) × State)
  | [], m => .ok (m, s)
  | va :: vas, m =>
    match s.translate core sp va kind with
    | .ok (pa, s1) =>
      if isRegisterPa pa && !(size == 4 || size == 8) then .error (Cause.alignment, va)
      else s1.translatePages core sp kind size vas (m.set (va / pageSize) (some (pa / pageSize)))
    | .error c =>
      if c = Cause.nonresident then s.translatePages core sp kind size vas (m.set (va / pageSize) none)
      else .error (c, va)

/-- Where an address of a command leads; none in a page that was not resident. -/
def Command.loc (c : Command) (a : Nat) : Option Loc :=
  if isScratch (.ofNat 64 a) then some (.scr (scratchHalf (.ofNat 64 a)) (scratchOff (.ofNat 64 a)))
  else
    match AMap.find? (a / pageSize) c.pages with
    | some (some p) => some (.glob (p * pageSize + a % pageSize))
    | _ => none

/-- Whether some page of a command is held by a flip or a flush (R98, R352). -/
def State.commandHeld (s : State) (c : Command) : Bool :=
  c.pages.any fun p =>
    match p.2 with
    | some pg => s.accessHeld (pg * pageSize)
    | none => false

/-- A range of scratchpad within the team's share (R81 step 4). -/
def scratchFits (t : Team) (a : DWord) (n : Nat) : Bool := decide (scratchOff a + n ≤ t.scratchBytes)

/-! ## Presence counts (R86) -/

/-- The scratchpad line of an address. -/
def lineOf (a : Nat) : Option (Nat × Nat) :=
  if isScratch (.ofNat 64 a) then
    some (scratchHalf (.ofNat 64 a), scratchOff (.ofNat 64 a) / 128)
  else none

/-- The scratchpad lines that hold destination bytes of some transfers, each once. -/
def linesOf (ps : List Piece) : List (Nat × Nat) := (ps.filterMap fun p => lineOf p.dst).dedup

/-- Whether another pending count would pass 255. -/
def State.linesFull (s : State) (team : Nat) (ls : List (Nat × Nat)) : Bool :=
  ls.any fun l => decide (255 ≤ AMap.getD (s.team team).pending l 0)

/-- A line's pending count changed. -/
def State.setPending (s : State) (team : Nat) (l : Nat × Nat) (n : Nat) : State :=
  s.modTeam team fun t =>
    { t with pending := if n = 0 then t.pending.erase l else t.pending.set l n }

def State.addPending (s : State) (team : Nat) (ls : List (Nat × Nat)) : State :=
  ls.foldl (fun s l => s.setPending team l (AMap.getD (s.team team).pending l 0 + 1)) s

/-- The threads of a team parked on a line. -/
def State.parkedOn (s : State) (team : Nat) (l : Nat × Nat) : List Tid :=
  (s.threads.filter fun p => p.1.team == team && p.2.status == .parked (.line l.1 l.2)).map Prod.fst

/-- A line's pending count falls by one; at zero the presence bit sets and its threads wake (R49, R86,
R123). -/
def State.dropPending (s : State) (team : Nat) (l : Nat × Nat) : State :=
  let n := AMap.getD (s.team team).pending l 0 - 1
  let s := s.setPending team l n
  if n = 0 then (s.parkedOn team l).foldl (fun s t => (s.crossLine team l (s.party t)).wake t) (s.presentLine team l)
  else s

/-! ## Acceptance -/

/-- The acceptance predicate of an engine command (R271): written in its lanes when the instruction
completes. -/
def State.answer (s : State) (i : Issue) (ts : List Tid) (accepted : Bool) : State :=
  ts.foldl (fun s t => (s.openWindow i t true [] [(i.x.d.toNat, accepted)] 0 none).2) s

/-- The record of a command accepted by the copy or the put engine (R413). -/
def State.traceAccept (s : State) (c : Command) : State :=
  let site := siteOf c.core
  match engineQueue c.op with
  | .copy => s.report site 0x2100 2 c.core (s.tenantOf c.lid) c.op.code
  | .put =>
    s.report site 0x2200 3 c.core (s.tenantOf c.lid)
      ((match c.win with | some e => e.site | none => 0) * 2 ^ 18 +
        bit01 (c.plane == .external) * 2 ^ 17 + c.len / 4 % 2 ^ 17)
  | .near => s

/-- A command put to its queue (R74, R86): refused, or accepted with its presence counts raised. Where
it is accepted, `start` is what sets it going. -/
def State.issueCommand (s : State) (i : Issue) (c : Command) (start : Nat → State → State) : State :=
  let ls := if engineQueue c.op = .copy then linesOf c.pieces else []
  match s.takeEntry c.core c.team (engineQueue c.op) with
  | none => s.answer i c.lanes false
  | some shared =>
    if s.linesFull c.team ls then s.answer i c.lanes false
    else
      let (id, s) := s.fresh
      let s := (s.setCommand id { c with shared, lines := ls }).addPending c.team ls
      (start id (s.traceAccept c)).answer i c.lanes true

/-- A copy command set going: each destination line in scratchpad is delivered, then the command
completes. -/
def startCopy (id : Nat) (s : State) : State :=
  let ls := ((AMap.find? id s.commands).getD .blank).lines
  (ls.foldl (fun s l => s.due (.copyLineDelivered id l.1 l.2) coreTicks) s).due (.commandComplete id)
    (2 * coreTicks)

/-! ## Transfers -/

/-- A return-free add performed at a location (R147, R148): the new value and the flags it raised. -/
def addAt (ty : Ty) (old v : Nat) : Res :=
  if ty.isFloat then (fmtOf ty).add old v else ⟨(old + v) % 2 ^ tyBits ty, 0⟩

/-- What an MDRAIN with add-on-store leaves in an element: the exact f32 tile value added, and one
rounding in the element's format (R266 step 4, R147). -/
def drainAdd (ty : Ty) (old v : Nat) : Res :=
  (fmtOf ty).ofExact .rn (((fmtOf ty).decode old).add (Fmt.f32.decode v))

/-- Whether a command's writes add to what is there. -/
def Command.adds (c : Command) : Bool := (c.op == .mdrain || c.op == .put) && c.sub == 1

/-- The first error of a command kept.
DEDUCED (assumption 49). -/
def firstCause (a b : Nat) : Nat := if a = 0 then b else a

/-- Whether a command's transfers cover the 32 bytes of a granule of DRAM. -/
def Command.covers (c : Command) (g : Nat) : Bool :=
  (List.range' (32 * g) 32).all fun a =>
    c.pieces.any fun p =>
      match c.loc p.dst with
      | some (.glob pa) => decide (pa ≤ a ∧ a < pa + p.n)
      | _ => false

/-- Whether a command's write meets an uncorrectable error (R338): one of a place it adds to, or of a granule that
it does not cover whole. -/
def State.commandBad (s : State) (c : Command) (l : Loc) (n : Nat) : Bool :=
  if c.adds then s.badLoc c.team l n
  else
    s.badStore l n &&
      (match l with
        | .glob pa => !((List.range' (pa / 32) ((pa + n - 1) / 32 + 1 - pa / 32)).all c.covers)
        | .scr _ _ => false)

/-- The granules that a command's stores have covered are good again (R338). -/
def State.healed (s : State) (c : Command) : State :=
  if c.adds then s else { s with badDram := s.badDram.filter fun g => !c.covers g }

/-- The path of a command's accesses (R110). -/
def Command.path (c : Command) : Path :=
  match engineQueue c.op with
  | .copy => .c
  | .put => .p
  | .near => .n

/-- A command's write, which its completion signal completes (R117); without a signal nothing does. `update` is the
indivisible update that it is a part of (R126). -/
def State.commandStore (s : State) (id : Nat) (c : Command) (update : Option Nat) (l : Loc) (n v : Nat) : State :=
  s.writeAs c.path c.agent (.command s.moduleId id) update c.team l n v

/-- A write of a command at a location, and the cause of an error there (R338). -/
def State.commandWrite (s : State) (id : Nat) (c : Command) (update : Option Nat) (l : Loc) (n v : Nat) :
    State × Nat :=
  let bad := if s.commandBad c l n then Cause.dataUncorrectable else 0
  let s := match l with
    | .glob pa => s.touchL2 pa (.ofCode c.hint) true
    | .scr _ _ => s
  if c.adds then
    let r := (if c.op = .mdrain then drainAdd else addAt) c.ty (s.readLoc c.team l n) v
    ((s.commandStore id c update l n r.bits).addFlags c.team l r.flags, bad)
  else (s.commandStore id c none l n v, bad)

/-- A transfer whose bytes are not to be had: free values in their place, and the cause (R49, R115). -/
def State.noBytes (s : State) (n cause : Nat) : Nat × Nat × State :=
  (Config.freeBits s.free % 2 ^ (8 * n), cause, s.drawFree.2)

/-- What a transfer is to write: bytes, with the cause of an error in them, or nothing, for a cause. -/
inductive Source where
  | bytes (v cause : Nat) (s : State)
  | unwritten (cause : Nat)

/-- Free bytes for a cause. -/
def State.freeSource (s : State) (n cause : Nat) : Source :=
  let r := s.noBytes n cause
  .bytes r.1 r.2.1 r.2.2

/-- The bytes a transfer moves, and the cause of an error: free values where they lie in a page that is not
resident (R93), or cannot be corrected (R338). A leaf beneath a seal that cannot be followed is left unwritten
(R158, R166); under a root of a home in service on which no reference is held, which names no live line, its bytes
are free.
DEDUCED (assumption 49). -/
def State.pieceValue (s : State) (c : Command) (p : Piece) : Source :=
  match p.src with
  | .bytes v => .bytes v 0 s
  | .leaf d j off =>
    (match s.sealLeaf d c.root j with
      | some v => .bytes (v / 2 ^ (8 * off) % 2 ^ (8 * p.n)) 0 s
      | none =>
        if s.sealHomed c.root && (s.sealLine c.root).isNone then s.freeSource p.n Cause.sealInvalid else .unwritten Cause.sealInvalid)
  | .addr a =>
    match c.loc a with
    | none => s.freeSource p.n Cause.nonresident
    | some l =>
      if s.badLoc c.team l p.n then s.freeSource p.n Cause.dataUncorrectable
      else
        let r := s.seen c.path c.agent c.team l p.n
        .bytes r.1 0 r.2

/-- Whether a transfer writes its bytes. -/
def State.moves (s : State) (c : Command) (p : Piece) : Bool :=
  (c.loc p.dst).isSome &&
    (match s.pieceValue c p with
      | .bytes _ _ _ => true
      | .unwritten _ => false)

/-- One transfer: the state after it, and the cause of its error. -/
def State.movePiece (s : State) (id : Nat) (c : Command) (update : Option Nat) (p : Piece) : State × Nat :=
  match c.loc p.dst with
  | none => (s, Cause.nonresident)
  | some l =>
    match s.pieceValue c p with
    | .unwritten e => (s, e)
    | .bytes v e s =>
      let (s, e') := s.commandWrite id c update l p.n v
      (s, firstCause e e')

/-- Transfers in order, with the first error.
DEDUCED (assumption 13). -/
def State.movePieces (id : Nat) (c : Command) (update : Option Nat) : List Piece → State → Nat → State × Nat
  | [], s, e => (s, e)
  | p :: ps, s, e =>
    let r := s.movePiece id c update p
    State.movePieces id c update ps r.1 (firstCause e r.2)

/-- A range of virtual addresses cut where its pages end: each part's address and length. -/
def cutPages : (fuel a left : Nat) → List (Nat × Nat)
  | 0, _, _ => []
  | fuel + 1, a, left =>
    if left = 0 then []
    else
      let k := min left (65536 - a % 65536)
      (a, k) :: cutPages fuel (a + k) (left - k)

/-- The transfers that write a number's bytes from a virtual address on. -/
def bytePieces (a n v : Nat) : List Piece :=
  (cutPages 3 a n).map fun p => { dst := p.1, src := .bytes (v / 2 ^ (8 * (p.1 - a)) % 2 ^ (8 * p.2)), n := p.2 }

/-- Bytes of a command written where they belong (R93, R280, R338): the first error. `whole` are the transfers that the
command makes in all; a bad granule is made good by the bytes that end it. -/
def State.replyBytes (s : State) (id : Nat) (c : Command) (whole : List Piece) (a n v : Nat) : State × Nat :=
  let ps := bytePieces a n v
  let r := State.movePieces id { c with pieces := whole } none ps s 0
  let ended := fun g => ps.any fun p =>
    match c.loc p.dst with
    | some (.glob pa) => decide (pa ≤ 32 * g + 31 ∧ 32 * g + 31 < pa + p.n)
    | _ => false
  ({ r.1 with
    badDram := r.1.badDram.filter fun g => !(ended g && Command.covers { c with pieces := whole } g) }, r.2)

/-- Bytes that a failed command has not written: free values from then on (R115). -/
def State.leaveBytes (s : State) (id : Nat) (c : Command) (a n : Nat) : State :=
  let (v, s) := s.drawFree
  (s.replyBytes id c (bytePieces a n v) a n v).1

/-- The transfers of a command that `f` picks, made; a granule counts as covered by those that write their bytes.
Those of an add-on-store MDRAIN are one update (R126).
DEDUCED (assumption 49). -/
def State.moveSome (s : State) (id : Nat) (c : Command) (f : Piece → Bool) : State :=
  let writing := { c with pieces := c.pieces.filter (s.moves c) }
  let r := State.movePieces id writing (if c.adds then some s.writes else none) (c.pieces.filter f) s c.cause
  (r.1.healed { writing with pieces := writing.pieces.filter f }).setCommand id
    { c with pieces := c.pieces.filter fun p => !f p, cause := r.2, began := true }

/-- COPY_LINE_DELIVERED (R86): a command delivers all its bytes for a scratchpad line, whose pending
count falls. An add-on-store MDRAIN updates the whole tile at once (R126), with its first line.
DEDUCED (assumption 13). -/
def execCopyLineDelivered (c half line : Nat) (s : State) : Out :=
  match AMap.find? c s.commands with
  | none => .next s
  | some cmd =>
    if !cmd.lines.contains (half, line) then .next s
    else if !cmd.ready || s.commandHeld cmd then
      .next (s.due (.copyLineDelivered c half line) coreTicks)
    else
      let s := s.moveSome c cmd fun p => cmd.adds || lineOf p.dst == some (half, line)
      let cmd := (AMap.find? c s.commands).getD .blank
      let s := s.setCommand c { cmd with lines := cmd.lines.filter (· != (half, line)) }
      .next (s.dropPending cmd.team (half, line))

/-- The end of a command (R53, R74, R115): its entry frees, its completion is signalled, and it leaves
the tracker. -/
def State.finishCommand (s : State) (id : Nat) (c : Command) : State :=
  let s := c.lines.foldl (fun s l => s.dropPending c.team l) { s with commands := s.commands.erase id }
  let s := if sigAddr c.done = 0 then s else s.completeWrites (.command s.moduleId id)
  (s.signal
    { core := c.core, team := some c.team, sp := c.space, op := c.done, n := 1, failed := c.cause != 0
      cause := c.cause, agent := c.agent }).untrack c.core id

/-! ## Tensor shape records (R274-R276) -/

/-- The fields of a tensor shape record. -/
structure Tsr where
  base : Nat
  swz : Nat
  ndim : Nat
  etype : Nat
  /-- Strides of dimensions 1 to 4. -/
  strides : List Nat
  /-- Box sizes, extents and origins of dimensions 0 to 4. -/
  boxes : List Nat
  extents : List Nat
  origins : List Int
  rsv : Bool
deriving DecidableEq, Repr

/-- The record in the 64 bytes of a number (R274). -/
def Tsr.ofNat (v : Nat) : Tsr :=
  let w := fun i => bitsOf v (64 * i + 63) (64 * i)
  let org := fun i hi lo => intVal true 21 (bitsOf (w i) hi lo)
  { base := w 0, swz := bitsOf (w 1) 9 8, ndim := bitsOf (w 1) 7 5, etype := bitsOf (w 1) 4 0
    strides := [bitsOf (w 1) 51 16, bitsOf (w 2) 35 0, bitsOf (w 3) 35 0, bitsOf (w 4) 35 0]
    boxes := [bitsOf (w 2) 43 36 + 1, bitsOf (w 2) 51 44 + 1, bitsOf (w 2) 59 52 + 1,
      bitsOf (w 3) 43 36 + 1, bitsOf (w 3) 51 44 + 1]
    extents := [bitsOf (w 5) 19 0, bitsOf (w 5) 39 20, bitsOf (w 5) 59 40, bitsOf (w 6) 19 0,
      bitsOf (w 4) 55 36]
    origins := [org 6 40 20, org 6 61 41, org 7 20 0, org 7 41 21, org 7 62 42]
    rsv := bitsOf (w 1) 63 52 != 0 || bitsOf (w 1) 15 10 != 0 || bitsOf (w 2) 63 60 != 0 ||
      bitsOf (w 3) 63 52 != 0 || bitsOf (w 4) 63 56 != 0 || bitsOf (w 5) 63 60 != 0 ||
      bitsOf (w 6) 63 62 != 0 || bitOf (w 7) 63 }

/-- The element types a record may have (R275). -/
def tsrTypes : List Ty :=
  [.b8, .i8, .n8, .e4m3, .e5m2, .i16, .n16, .h16, .bf16, .b32, .i32, .n32, .f32, .h16x2, .bf16x2,
   .e4m3x4, .e5m2x4, .b64, .i64, .n64, .f64, .b128]

/-- The element type of a record, where it may have it. -/
def Tsr.ty (r : Tsr) : Option Ty :=
  match Ty.ofCode r.etype with
  | some t => if tsrTypes.contains t then some t else none
  | none => none

/-- The element size. -/
def Tsr.size (r : Tsr) : Nat :=
  match r.ty with
  | some t => t.size
  | none => 1

/-- The fields of dimensions at or above NDIM are zero (R274). -/
def Tsr.unusedZero (r : Tsr) : Bool :=
  ((r.boxes.drop r.ndim).all (· == 1)) && ((r.extents.drop r.ndim).all (· == 0)) &&
    ((r.origins.drop r.ndim).all (· == 0)) && ((r.strides.drop (r.ndim - 1)).all (· == 0))

/-- The number of positions in the box. -/
def Tsr.positions (r : Tsr) : Nat := r.boxes.foldl (· * ·) 1

/-- R275: the record is valid. -/
def Tsr.valid (r : Tsr) : Bool :=
  !r.rsv && decide (1 ≤ r.ndim ∧ r.ndim ≤ 5) && r.ty.isSome && r.unusedZero &&
    r.base % r.size == 0 && (r.strides.take (r.ndim - 1)).all (fun v => v % r.size == 0) &&
    (r.extents.take r.ndim).all (· != 0) && decide (r.positions * r.size ≤ 4 * 2 ^ 20)

/-- The box position of a number, innermost first. -/
def unpackBox : List Nat → Nat → List Nat
  | [], _ => []
  | n :: ns, v => v % n :: unpackBox ns (v / n)

/-- The coordinates of a box position (R276). -/
def Tsr.coords (r : Tsr) (pos : Nat) : List Int :=
  List.zipWith (fun (o : Int) (b : Nat) => o + b) r.origins (unpackBox r.boxes pos)

/-- Whether a box position is clipped (R276). -/
def Tsr.clipped (r : Tsr) (pos : Nat) : Bool :=
  ((List.zip (r.coords pos) r.extents).take r.ndim).any fun p =>
    decide (p.1 < 0) || decide ((p.2 : Int) ≤ p.1)

/-- The address of a box position's element (R276). -/
def Tsr.place (r : Tsr) (pos : Nat) : Nat :=
  let steps : List Int := (r.size : Int) :: r.strides.map fun (v : Nat) => (v : Int)
  wrapTo 64 ((List.zipWith (fun (c st : Int) => c * st) (r.coords pos) steps).foldl (· + ·) (r.base : Int))

/-- The swizzle span in bytes, 1 for none. -/
def Tsr.span (r : Tsr) : Nat := if r.swz = 0 then 1 else 16 * 2 ^ r.swz

/-- The byte of a box position on the linear side (R276). -/
def Tsr.linear (r : Tsr) (pos : Nat) : Nat :=
  let o := pos * r.size
  if r.swz = 0 then o else o ^^^ (o / r.span % (r.span / 16) * 16)

/-- What reading a tensor shape record comes to: the record and its 64 bytes, a trap of every active lane, or a line on
which the squad's active lanes park. -/
inductive TsrRead where
  | ok (r : Tsr) (image : Nat) (s : State)
  | trap (cause : Nat) (addr : DWord)
  | line (half line : Nat)
  | hold

/-- A tensor shape record read by a lane (R274). -/
def State.readTsr (s : State) (core : Nat) (t : Tid) (a : DWord) : TsrRead :=
  match s.checkAddr core t.team (s.launchOf t).space a 64 64 .read with
  | .trap c => .trap c a
  | .absent => .trap Cause.nonresident a
  | .held => .hold
  | .ok l s =>
    match s.lineAbsent t.team l 64 with
    | some (h, k) => .line h k
    | none =>
      if s.badLoc t.team l 64 then .trap Cause.dataUncorrectable a
      else
        let v := s.readLoc t.team l 64
        if (Tsr.ofNat v).valid then .ok (Tsr.ofNat v) v s else .trap Cause.tsrInvalid 0

/-- The address of the record: the literal, or XP(A) (R179, R266, R277). -/
def tsrAddr (i : Issue) (s : State) (t : Tid) : DWord :=
  match i.x.lit with
  | some v => v
  | none => (s.thread t).xp i.x.a.toNat

end Sys2Proof.Machine
end

