-- ==== Sys2Proof/Machine/Lease.lean ====
section
/-! DEFINITION. Matrix leases (R71, R72, R268): holding, counting down, waiting, and the arbiter. -/

namespace Sys2Proof.Machine

/-- Whether a team holds the lease of its cores. -/
def State.leaseHeld (s : State) (team : Nat) : Bool :=
  (s.core (s.team team).core).lease.holder == some team

/-- One MMA of some cores counted against a team's lease (R71, R72): the lease ends where the count
reaches zero. -/
def State.leaseCount (s : State) (team : Nat) (cores : List Nat) : State :=
  let s := cores.foldl (fun s c =>
    s.modCore c fun co => { co with lease := { co.lease with issued := some s.clock } }) s
  let c := (s.team team).core
  let left := (s.core c).lease.left - 1
  let s := s.modCore c fun co => { co with lease := { co.lease with left, lastMma := s.clock } }
  if left = 0 then s.endLease team else s

/-- The teams that wait for a core's engine. -/
def State.leaseWaiters (s : State) (c : Nat) : List Nat :=
  (s.teams.filter fun p => p.2.leaseWait && p.2.cores.contains c).map Prod.fst

/-- The clocks without an MMA after which a holder loses its lease to a team that waits (R71). -/
def leaseIdle : Nat := 4096

/-- The clocks left before a core's holder is idle long enough. -/
def State.leaseRest (s : State) (c : Nat) : Nat :=
  (s.core (match (s.core c).lease.holder with | some h => (s.team h).core | none => c)).lease.lastMma
    + leaseIdle - s.clock

/-- A team waits for a lease (R71): its arbiters are asked, and an idle holder is watched.
DEDUCED (assumption 94). -/
def State.leaseAsk (s : State) (team : Nat) : State :=
  let s := s.modTeam team fun t => { t with leaseWait := true }
  (s.team team).cores.foldl (fun s c =>
    (s.due (.leaseGrant c) 0).due (.leaseIdleExpiry c) (s.leaseRest c * coreTicks)) s

/-- The squads of a team parked for the lease wake (R50). -/
def State.wakeLease (s : State) (team : Nat) : State :=
  ((s.threads.filter fun p => p.1.team == team && p.2.status == .parked .lease).map Prod.fst).foldl
    State.wake s

/-- A lease granted to a team on all its cores in one clock (R71, R72). It ends at once where the team has no
resident squad.
DEDUCED (assumption 94). -/
def State.grant (s : State) (team : Nat) : State :=
  let t := s.team team
  let s := t.cores.foldl (fun s c =>
    s.modCore c fun co =>
      { co with
        lease :=
          { holder := some team, left := (s.launch t.lid).lease, lastMma := s.clock
            issued := co.lease.issued, lastSlot := t.slot, forPair := none } }) s
  let l := s.launch t.lid
  let s := t.cores.foldl (fun s c =>
    s.report (siteOf c) 0x2000 1 c l.tenant (t.slot * 2 ^ 18 + l.lease)) s
  let s := (s.modTeam team fun t => { t with leaseWait := false }).wakeLease team
  if (s.squadsOfTeam team).isEmpty then s.endLease team else s

/-- How far a slot lies behind the last granted one, in slot order (R71). -/
def slotsAfter (last slot : Nat) : Nat := (slot + 63 - last) % 64

/-- Whether the other core of a pair holds its engine free for a team (R72). -/
def State.heldForPair (s : State) (c team : Nat) : Bool :=
  (s.team team).paired &&
    (s.team team).cores.any fun d => d != c && (s.core d).lease.forPair == some team

/-- The rank of a waiting team at a core's arbiter: launch priority, a pair that the other engine is
held for, then slot order (R71, R72). -/
def State.leaseRank (s : State) (c team : Nat) : Nat :=
  (s.teamLaunch team).prio * 128 + bit01 (s.heldForPair c team) * 64 +
    (63 - slotsAfter (s.core c).lease.lastSlot (s.team team).slot)

/-- The team of highest rank in a list. -/
def State.leaseBest (s : State) (c : Nat) : List Nat → Option Nat
  | [] => none
  | t :: ts =>
    match s.leaseBest c ts with
    | none => some t
    | some u => if s.leaseRank c t < s.leaseRank c u then some u else some t

/-- The predicted step of a grant (R77): 3.5 A for each engine that has issued no MMA in the last 1,024
clocks, busy or not; 0 A for any other.
DESIGN CHOICE (assumption 120). -/
def State.grantStep (s : State) (team : Nat) : Nat :=
  (((s.team team).cores.filter fun c =>
    match (s.core c).lease.issued with
    | some t => decide (t + 1024 < s.clock)
    | none => true).map fun _ => 35).sum

/-- LEASE_GRANT (R71, R72): the arbiter of a free engine grants its next choice, or holds the engine
free for a paired team whose other engine is busy. -/
def execLeaseGrant (core : Nat) (s : State) : Out :=
  if (s.core core).lease.holder.isSome then .next s
  else
    match s.leaseBest core (s.leaseWaiters core) with
    | none =>
      .next ((s.forgetStart (siteOf core) (.leaseGrant core)).modCore core fun co =>
        { co with lease := { co.lease with forPair := none } })
    | some t =>
      if (s.team t).cores.all fun c => (s.core c).lease.holder.isNone then
        match s.mayStart (siteOf core) (s.grantStep t) (.leaseGrant core) with
        | (false, s) => .next s
        | (true, s) =>
          .next ((s.team t).cores.foldl (fun s c => s.due (.leaseIdleExpiry c) (leaseIdle * coreTicks)) (s.grant t))
      else .next (s.modCore core fun co => { co with lease := { co.lease with forPair := some t } })

/-- LEASE_IDLE_EXPIRY (R71): a holder that has issued no MMA for 4,096 clocks while another team waits
loses the lease. A holder on a halted core keeps it (R369). -/
def execLeaseIdleExpiry (core : Nat) (s : State) : Out :=
  match (s.core core).lease.holder with
  | none => .next s
  | some h =>
    if (s.leaseWaiters core).isEmpty then .next s
    else if (s.team h).cores.any fun c => (s.core c).halted then
      .next (s.due (.leaseIdleExpiry core) (leaseIdle * coreTicks))
    else if 0 < s.leaseRest core then
      .next (s.due (.leaseIdleExpiry core) (s.leaseRest core * coreTicks))
    else .next (s.endLease h)

end Sys2Proof.Machine
end

