-- ==== Sys2Proof/Machine/Matrix.lean ====
section
/-! DEFINITION. The matrix engine (R252-R269): the operand buffer's reservations, the checks and the
arithmetic of the matrix instructions, and the engine's issue order (R121). -/

namespace Sys2Proof.Machine

/-! ## The engine's order -/

/-- An entry put at the end of a core's engine order.
DEDUCED (assumption 50). -/
def State.enqueue (s : State) (c : Nat) (op : EngineOp) : State :=
  (s.modCore c fun co => { co with engine := co.engine ++ [op] }).due (.matrixOpComplete c) coreTicks

/-- The core on which half h of a team stands. -/
def State.coreOfHalf (s : State) (team h : Nat) : Nat := (s.team team).core + h

/-! ## Reservations (R88, R89) -/

def recBase (r : DWord) : Nat := bitsOf r.toNat 56 51
def recSize (r : DWord) : Nat := bitsOf r.toNat 50 44
def recFmt (r : DWord) : Nat := bitsOf r.toNat 43 39
def recBlk (r : DWord) : Nat := bitsOf r.toNat 38 37
def recSoff (r : DWord) : Nat := bitsOf r.toNat 36 25

/-- The bytes of a reservation. -/
def recBytes (r : DWord) : Nat := recSize r * 4096

/-- The block length of a reservation, 0 where it has none (R88). -/
def recLen (r : DWord) : Nat := if recBlk r = 1 then 8 else if recBlk r = 2 then 32 else 0

/-- The element type of a reservation. -/
def recTy (r : DWord) : Ty := (Ty.ofCode (recFmt r)).getD .h16

/-- The element size in bits. -/
def codeBits (ty : Ty) : Nat := if ty = .q4 then 4 else 8 * ty.size

/-- R89's combinations. -/
def recValid (fmt blk soff size : Nat) : Bool :=
  match fmt with
  | 12 | 13 => blk == 0 && soff == 0
  | 16 | 17 => (blk == 0 && soff == 0) || ((blk == 1 || blk == 2) && decide (1 ≤ soff ∧ soff < size * 64))
  | 18 => blk == 1 && decide (1 ≤ soff ∧ soff < size * 64)
  | _ => false

/-- Record r of a core, where it is valid and a team owns it. -/
def State.record (s : State) (c team r : Nat) : Option DWord :=
  let v := AMap.getD (s.core c).records r 0
  if v.getLsbD 63 && bitsOf v.toNat 62 57 == (s.team team).slot then some v else none

/-- The units of a core's operand buffer in use: reserved, or released and still to be read by a matrix
instruction issued before (R258). -/
def Core.usedUnits (co : Core) : List Nat :=
  ((co.records.vals.filter fun r => r.getLsbD 63).flatMap fun r => List.range' (recBase r) (recSize r)) ++
    co.engine.flatMap fun e =>
      match e.work with
      | .free b n => List.range' b n
      | _ => []

/-- The lowest unit from `b` up at which `n` free units begin (R257). -/
def findUnits (used : List Nat) (n : Nat) : (fuel b : Nat) → Option Nat
  | 0, _ => none
  | fuel + 1, b =>
    if 64 < b + n then none
    else if (List.range' b n).all fun u => !used.contains u then some b
    else findUnits used n fuel (b + 1)

/-- The lowest record that is not in use. -/
def Core.freeRecord (co : Core) : Option Nat :=
  (List.range 16).find? fun r => !(AMap.getD co.records r 0).getLsbD 63

/-- Units of the operand buffer made zero (R257). -/
def Core.clearUnits (co : Core) (b n : Nat) : Core :=
  { co with
    opBuf := co.opBuf.filter fun c => !decide (b * 4096 ≤ c.1 ∧ c.1 < (b + n) * 4096)
    badOpBuf := co.badOpBuf.filter fun o => !decide (b * 4096 ≤ o ∧ o < (b + n) * 4096) }

/-- Units to be zero before any later matrix instruction reads them. -/
def State.clearLater (s : State) (c team b n : Nat) : State :=
  if (s.core c).engine.isEmpty then s.modCore c fun co => co.clearUnits b n
  else s.enqueue c { work := .clear b n, team, half := 0, tids := [], window := 0 }

/-- OBRES (R257). -/
def laneObres (i : Issue) (t : Tid) (s : State) : LaneOut :=
  let w := ((s.thread t).x i.x.c.toNat).toNat
  let size := bitsOf w 6 0
  let fmt := bitsOf w 11 7
  let blk := bitsOf w 13 12
  let soff := bitsOf w 25 14
  if bitsOf w 31 26 ≠ 0 ∨ size < 1 ∨ 64 < size ∨ !recValid fmt blk soff size then
    .trap Cause.operandBufferRange 0
  else
    let answer := fun (s : State) (v : Word) (p : Bool) =>
      s.modThread t fun th => (th.setX i.x.d.toNat v).setP i.x.e.toNat p
    match (s.core i.core).freeRecord, findUnits (s.core i.core).usedUnits size 64 0 with
    | some r, some b =>
      let v := 2 ^ 63 + (s.team t.team).slot * 2 ^ 57 + b * 2 ^ 51 + size * 2 ^ 44 + fmt * 2 ^ 39 +
        blk * 2 ^ 37 + soff * 2 ^ 25
      let s := s.modCore i.core fun co => { co with records := co.records.set r (.ofNat 64 v) }
      .next (answer (s.clearLater i.core t.team b size) (.ofNat 32 r) true)
    | _, _ => .next (answer s 0xFFFFFFFF false)

/-- OBREL (R258).
DEDUCED (assumption 50). -/
def laneObrel (i : Issue) (t : Tid) (s : State) : LaneOut :=
  let w := ((s.thread t).x i.x.a.toNat).toNat
  match if 16 ≤ w then none else s.record i.core t.team w with
  | none => .trap Cause.operandBufferRange 0
  | some r =>
    let s := s.modCore i.core fun co => { co with records := co.records.erase w }
    .next (if (s.core i.core).engine.isEmpty then s
      else
        s.enqueue i.core
          { work := .free (recBase r) (recSize r), team := t.team, half := 0, tids := [], window := 0 })

/-- OBLD (R259): the bytes are read on path m at issue, and written in engine order. -/
def laneObld (i : Issue) (t : Tid) (s : State) : LaneOut :=
  let n := i.x.type.size
  let w := ((s.thread t).x i.x.c.toNat).toNat
  let off := bitsOf w 25 8
  match if bitsOf w 7 4 ≠ 0 ∨ bitsOf w 31 26 ≠ 0 then none else s.record i.core t.team (w % 16) with
  | none => .trap Cause.operandBufferRange 0
  | some r =>
    if recBytes r < off + n then .trap Cause.operandBufferRange 0
    else if off % n ≠ 0 then .trap Cause.alignment (effAddr s i t)
    else
      match access i t s n .read with
      | .out o => o
      | .absent s => s.later i t [] (residency i true) 0
      | .go l s =>
        if s.badLoc t.team l n then s.laterFault i t Cause.dataUncorrectable (effAddr s i t)
        else
          let r1 := (s.loadAt i t l).seen .m (s.party t) t.team l n
          let s := r1.2
          let work := EngineWork.load (recBase r * 4096 + off) n r1.1
          (s.enqueue i.core { work, team := t.team, half := s.half t.sid, tids := [], window := 0 }).later
            i t [] (residency i false) 0

/-! ## Shape word and op word (R254, R255) -/

def shapePitch (w : Nat) : Nat := 16 * bitsOf w 53 48
def shapeOff (w : Nat) : Nat := 256 * bitsOf w 44 32
def shapeChunks (w : Nat) : Nat := bitsOf w 23 16
def shapeN (w : Nat) : Nat := 16 * bitsOf w 13 8
def shapeM (w : Nat) : Nat := 8 * bitsOf w 4 0

def shapeRsv (w : Nat) : Bool :=
  bitsOf w 63 54 != 0 || bitsOf w 47 45 != 0 || bitsOf w 31 24 != 0 || bitsOf w 15 14 != 0 ||
    bitsOf w 7 5 != 0

/-- The tile of a shape word with `parts` cores to share its columns. -/
def shapeTile (w parts : Nat) : Tile :=
  { off := shapeOff w, pitch := shapePitch w, rows := shapeM w, cols := shapeN w / parts }

/-- R254: the shape word's own conditions, its KC apart. -/
def shapeOk (w : Nat) (pair : Bool) : Bool :=
  !shapeRsv w && decide (8 ≤ shapeM w ∧ shapeM w ≤ 128) &&
    (if pair then decide (32 ≤ shapeN w ∧ shapeN w ≤ 512) && shapeN w % 32 == 0
    else decide (16 ≤ shapeN w ∧ shapeN w ≤ 256)) &&
    decide (1 ≤ bitsOf w 53 48 ∧ (shapeTile w (if pair then 2 else 1)).cols ≤ shapePitch w)

/-- The offset of an element of a tile (R91). -/
def Tile.elem (t : Tile) (i j : Nat) : Nat := t.off + (i * t.pitch + j) * 4

/-- Every element of a tile lies in a share of `bytes` bytes. -/
def Tile.fits (t : Tile) (bytes : Nat) : Bool := decide (t.elem (t.rows - 1) (t.cols - 1) + 4 ≤ bytes)

def opApitch (w : Nat) : Nat := bitsOf w 60 48
def opBpitch (w : Nat) : Nat := bitsOf w 44 32
def opEoff (w : Nat) : Nat := bitsOf w 27 8
def opRec (w : Nat) : Nat := bitsOf w 3 0

def opRsv (w : Nat) : Bool :=
  bitsOf w 63 61 != 0 || bitsOf w 47 45 != 0 || bitsOf w 31 28 != 0 || bitsOf w 7 4 != 0

/-- The products in one K-chunk (R149). -/
def chunkOf (ty : Ty) : Nat := if ty = .q4 then 128 else if ty = .e4m3 ∨ ty = .e5m2 then 64 else 32

/-- The permitted pairs of formats (R256). -/
def fmtPair (a b : Ty) : Bool :=
  match a with
  | .e4m3 | .e5m2 => b == .e4m3 || b == .e5m2
  | _ => a == b

/-! ## Checks of squad instructions -/

/-- Lane 0 of a squad, whose operands a squad instruction of the engine reads (R253). -/
def lane0 (q : Sid) : Tid := ⟨q.team, q.squad, 0⟩

/-- The byte at which element e of an array ends, from its start (R256). -/
def elemEnd (ty : Ty) (e : Nat) : Nat := (e * codeBits ty + codeBits ty + 7) / 8

/-- The operands of MMA and MMAP as lane 0 gives them. -/
structure MmaArgs where
  shape : Nat
  opw : Nat
  a : DWord
  scale : DWord
  hasScale : Bool
  ty : Ty
  turned : Bool
  pair : Bool
deriving DecidableEq, Repr

def mmaArgs (i : Issue) (q : Sid) (s : State) : MmaArgs :=
  let th := s.thread (lane0 q)
  { shape := (th.xp i.x.c.toNat).toNat, opw := (opWord s i.x (lane0 q)).toNat
    a := th.xp i.x.a.toNat, scale := th.xp i.x.e.toNat, hasScale := i.x.e != 0, ty := i.x.type
    turned := i.x.sub == 1, pair := i.op == .mmap }

def MmaArgs.parts (g : MmaArgs) : Nat := if g.pair then 2 else 1
def MmaArgs.tile (g : MmaArgs) : Tile := shapeTile g.shape g.parts
def MmaArgs.k (g : MmaArgs) : Nat := shapeChunks g.shape * chunkOf g.ty

/-- R260 step 2 for one core's record. -/
def MmaArgs.badFormat (g : MmaArgs) (r : DWord) : Bool :=
  let l := recLen r
  !fmtPair g.ty (recTy r) ||
    (if l = 0 then g.hasScale
    else !g.hasScale || opApitch g.opw % l != 0 || opBpitch g.opw % l != 0 || opEoff g.opw % l != 0)

/-- R260 step 2 and R263: MATRIX_SHAPE. -/
def MmaArgs.badShape (g : MmaArgs) (paired : Bool) (recs : List (Option DWord)) : Bool :=
  (g.pair && !paired) || !shapeOk g.shape g.pair || opRsv g.opw ||
    decide (shapeChunks g.shape = 0 ∨ 4096 < g.k) || decide (opApitch g.opw < g.k) ||
    decide (opBpitch g.opw < (if g.turned then g.k else g.tile.cols)) ||
    recs.any fun r =>
      match r with
      | some r => g.badFormat r
      | none => false

/-- The element index of A's last element (R256). -/
def MmaArgs.lastA (g : MmaArgs) : Nat := (g.tile.rows - 1) * opApitch g.opw + (g.k - 1)

/-- The element index of B's last element on one core (R256). -/
def MmaArgs.lastB (g : MmaArgs) : Nat :=
  opEoff g.opw +
    (if g.turned then (g.tile.cols - 1) * opBpitch g.opw + (g.k - 1)
    else (g.k - 1) * opBpitch g.opw + (g.tile.cols - 1))

/-- The block lengths of the records that are there and have one. -/
def lensOf (rs : List (Option DWord)) : List Nat := (rs.filterMap (·.map recLen)).filter (· != 0)

/-- R260 step 3: the addresses of A and its scales, these with the block length of each record. -/
def MmaArgs.badAddress (g : MmaArgs) (t : Team) (ls : List Nat) : Option (Nat × DWord) :=
  let scaled := g.hasScale
  if !isScratch g.a || !formOk t.paired g.a then some (Cause.addressForm, g.a)
  else if scaled && (!isScratch g.scale || !formOk t.paired g.scale) then
    some (Cause.addressForm, g.scale)
  else if g.a.toNat % 16 ≠ 0 then some (Cause.alignment, g.a)
  else if !scratchFits t g.a (elemEnd g.ty g.lastA) then some (Cause.scratchBounds, g.a)
  else if scaled && (!(ls.all fun l => scratchFits t g.scale (g.lastA / l + 1)) ||
      scratchHalf g.a != scratchHalf g.scale) then some (Cause.scratchBounds, g.scale)
  else none

/-- R260 step 4 for one core's record: B's elements and scales lie in the reservation. -/
def MmaArgs.inRecord (g : MmaArgs) (r : DWord) : Bool :=
  decide (elemEnd (recTy r) g.lastB ≤ recBytes r) &&
    (recLen r == 0 || decide (recSoff r * 64 + g.lastB / recLen r + 1 ≤ recBytes r))

/-- The checks of R260 and R263 in their order.
DEDUCED (assumption 100). -/
def mmaCheck (i : Issue) (q : Sid) (s : State) : Option (Nat × DWord) :=
  let t := s.team q.team
  let g := mmaArgs i q s
  let recs := (if g.pair then t.cores else [i.core]).map fun c => s.record c q.team (opRec g.opw)
  if (s.teamLaunch q.team).lease = 0 then some (Cause.leaseInvalid, 0)
  else if g.badShape t.paired recs then some (Cause.matrixShape, 0)
  else
    match g.badAddress t (lensOf recs) with
    | some e => some e
    | none =>
      if !recs.all fun r =>
          match r with
          | some r => g.inRecord r
          | none => false then some (Cause.operandBufferRange, 0)
      else if !g.tile.fits t.accBytes then some (Cause.accumulatorRange, 0)
      else none

/-! ## Windows of squad instructions -/

/-- A window of one number opened in some threads, for an entry of the engine order to complete. -/
def State.openEngine (s : State) (i : Issue) (ts : List Tid) : Nat × State :=
  let (id, s) := s.fresh
  (id, ts.foldl (fun s t =>
    s.modThread t fun th =>
      { th with
        windows := th.windows ++
          [{ id, pc := i.pc, left := i.x.la.toNat, issued := 0, pend := pendingSet i.op i.x,
             known := false, complete := false, regs := [], preds := [], flags := 0, fault := none }] }) s)

/-- Windows of a squad that complete as the instruction enters the engine order (R253). -/
def State.enteredAll (s : State) (i : Issue) (ts : List Tid) : State :=
  ts.foldl (fun s t => (s.openWindow i t true [] [] 0 none).2) s

/-- The record of an MMA or MMAP (R413). -/
def State.mmaEvent (s : State) (i : Issue) (q : Sid) (g : MmaArgs) : Event :=
  s.event (siteOf i.core) 0x4000 1 i.core (s.teamLaunch q.team).tenant ((s.team q.team).slot * 2 ^ 18)
    (some (g.shape, g.opw))

/-- MMA and MMAP (R260, R263): checked, parked without the lease, counted and put in engine order.
DEDUCED (assumption 100). -/
def squadMma (i : Issue) (q : Sid) (ts : List Tid) (s : State) : SquadOut :=
  match mmaCheck i q s with
  | some (c, a) => .trapAll s ts c a
  | none =>
    if !s.leaseHeld q.team then
      { s := s.leaseAsk q.team, again := ts.map fun t => (t, .lease) }
    else
      let g := mmaArgs i q s
      let halves := if g.pair then [0, 1] else [s.half q]
      let (id, s) := ((s.leaseCount q.team (halves.map (s.coreOfHalf q.team))).engineEvent
        (s.mmaEvent i q g)).openEngine i ts
      { s := halves.foldl (fun s h =>
          let c := s.coreOfHalf q.team h
          let rec_ := (s.record c q.team (opRec g.opw)).getD 0
          s.enqueue c
            { work := .mma g.ty g.turned (scratchHalf g.a) (scratchOff g.a)
                (if g.hasScale then scratchOff g.scale else 0) (opApitch g.opw) (opBpitch g.opw)
                (opEoff g.opw) rec_ g.tile (shapeChunks g.shape) none
              team := q.team, half := h, tids := ts, window := id }) s }

/-- MZERO (R264).
DEDUCED (assumption 100). -/
def squadMzero (i : Issue) (q : Sid) (ts : List Tid) (s : State) : SquadOut :=
  let t := s.team q.team
  let w := ((s.thread (lane0 q)).xp i.x.c.toNat).toNat
  let pair := i.x.sub == 1
  let tile := shapeTile w (if pair then 2 else 1)
  if (pair && !t.paired) || !shapeOk w pair || shapeChunks w != 0 then .trapAll s ts Cause.matrixShape 0
  else if !tile.fits t.accBytes then .trapAll s ts Cause.accumulatorRange 0
  else
    let halves := if pair then [0, 1] else [s.half q]
    let s := s.enteredAll i ts
    { s := halves.foldl (fun s h =>
        s.enqueue (s.coreOfHalf q.team h)
          { work := .zero tile, team := q.team, half := h, tids := [], window := 0 }) s }

/-! ## MRD and MWR (R265) -/

/-- Whether an access of a thread has bytes beyond the share (R91). -/
def accBeyond (i : Issue) (s : State) (t : Tid) : Bool :=
  decide ((s.team t.team).accBytes < bitsOf ((s.thread t).x i.x.c.toNat).toNat 20 0 + i.x.type.size)

/-- The half and offset of an accumulator access, or the trap of its checks. -/
def accAccess (i : Issue) (t : Tid) (s : State) : Except Nat (Nat × Nat) :=
  let tm := s.team t.team
  let w := ((s.thread t).x i.x.c.toNat).toNat
  let off := bitsOf w 20 0
  if bitsOf w 31 24 ≠ 0 ∨ bitsOf w 22 21 ≠ 0 ∨ (bitOf w 23 ∧ !tm.paired) ∨ accBeyond i s t then
    .error Cause.accumulatorRange
  else if off % i.x.type.size ≠ 0 then .error Cause.alignment
  else .ok (bit01 (bitOf w 23), off)

/-- The share an access of a thread reaches: bit 23 selects the partner core's. -/
def State.accHalf (s : State) (t : Tid) (partner : Nat) : Nat := (s.half t.sid + partner) % 2

/-- One lane of MRD: its window, and its entry in the engine order. -/
def State.readAcc (s : State) (i : Issue) (t : Tid) (p off : Nat) : State :=
  let h := s.accHalf t p
  let (id, s) := s.openEngine i [t]
  s.enqueue (s.coreOfHalf t.team h)
    { work := .read off i.x.type.size i.x.d.toNat, team := t.team, half := h, tids := [t], window := id }

/-- One lane of MWR: its entry in the engine order, with which its window completes. -/
def State.writeAcc (s : State) (i : Issue) (t : Tid) (p off : Nat) : State :=
  let h := s.accHalf t p
  let v := (s.thread t).xs i.x.a.toNat i.x.type.regs
  ((s.enqueue (s.coreOfHalf t.team h)
    { work := .write off i.x.type.size v, team := t.team, half := h, tids := [], window := 0 }).openWindow i t
      true [] [] 0 none).2

/-- MRD and MWR of a squad's lanes: one that reaches beyond the share traps every thread that issues (R91); every other
failure traps its lane alone (R265).
DEDUCED (assumption 105). -/
def squadAcc (act : State → Issue → Tid → Nat → Nat → State) (i : Issue) (_ : Sid) (ts : List Tid) (s : State) :
    SquadOut :=
  if ts.any (accBeyond i s) then .trapAll s ts Cause.accumulatorRange 0
  else
    ts.foldl (fun o t =>
      match accAccess i t s with
      | .error c => { o with traps := o.traps ++ [(t, c, 0)] }
      | .ok (p, off) => { o with s := act o.s i t p off }) { s }

/-! ## MDRAIN (R266) -/

/-- The transfers of a drain: element (i, j) to box position (j, i), clipped positions left out. The
bytes are filled in when the tile is read. -/
def drainPieces (r : Tsr) (t : Tile) : List Piece :=
  ((List.range (t.rows * t.cols)).filter fun p => !r.clipped p).map fun p =>
    { dst := r.place p, src := .bytes p, n := r.size }

/-- The first fault of a list of destinations in scratchpad (R81). -/
def badScratchDst (t : Team) (ps : List Piece) : Option (Nat × DWord) :=
  ps.findSome? fun p =>
    let a : DWord := .ofNat 64 p.dst
    if !formOk t.paired a then some (Cause.addressForm, a)
    else if isScratch a && !scratchFits t a p.n then some (Cause.scratchBounds, a)
    else none

/-- A drain whose record has been read: its checks, and its entry in the copy queue (R74). -/
def drainWith (i : Issue) (q : Sid) (ts : List Tid) (r : Tsr) (tile : Tile) (done : DWord) (s : State) :
    SquadOut :=
  if r.ty != some i.x.type || r.boxes.getD 0 1 != tile.cols || r.boxes.getD 1 1 != tile.rows ||
      !(r.boxes.drop 2).all (· == 1) then .trapAll s ts Cause.tsrInvalid 0
  else
    let ps := drainPieces r tile
    match badScratchDst (s.team q.team) ps with
    | some (c, a) => .trapAll s ts c a
    | none =>
      match s.translatePages i.core (s.teamLaunch q.team).space .write i.x.type.size
          (ps.flatMap fun p => pageStarts p.dst p.n) [] with
      | .error (c, a) => .fail s ts c (.ofNat 64 a)
      | .ok (pages, s) =>
        let cmd := { commandOf i q ts s done with pieces := ps, pages, ready := false }
        { s := s.issueCommand i cmd fun id s =>
            startCopy id (s.enqueue i.core
              { work := .drain id tile, team := q.team, half := s.half q, tids := [], window := 0 }) }

/-- MDRAIN (R266): the shape, the tile's place, the completion operand, then the shape record.
DEDUCED (assumption 100). -/
def squadMdrain (i : Issue) (q : Sid) (ts : List Tid) (s : State) : SquadOut :=
  let t := s.team q.team
  let th := s.thread (lane0 q)
  let w := (th.xp i.x.c.toNat).toNat
  let tile := shapeTile w 1
  if !shapeOk w false || shapeChunks w != 0 then .trapAll s ts Cause.matrixShape 0
  else if !tile.fits t.accBytes then .trapAll s ts Cause.accumulatorRange 0
  else
    let done := th.xp i.x.e.toNat
    match s.checkCompletion i.core (some q.team) (s.teamLaunch q.team).space done with
    | .error (c, a) => .fail s ts c a
    | .ok s =>
      match s.readTsr i.core (lane0 q) (tsrAddr i s (lane0 q)) with
      | .trap c a => .trapAll s ts c a
      | .line h l => { s, again := ts.map fun t => (t, .line h l) }
      | .hold => { s, held := true }
      | .ok r _ s => drainWith i q ts r tile done s

/-! ## QUANT (R267) -/

/-- R267's checks for a scratchpad target: codes and scales in one half, within the share. -/
def quantScratchCheck (t : Team) (codes scales : DWord) (last : Nat) : Option (Nat × DWord) :=
  if !isScratch codes || !formOk t.paired codes then some (Cause.addressForm, codes)
  else if !isScratch scales || !formOk t.paired scales then some (Cause.addressForm, scales)
  else if codes.toNat % 16 ≠ 0 then some (Cause.alignment, codes)
  else if !scratchFits t codes (last / 2 + 1) then some (Cause.scratchBounds, codes)
  else if !scratchFits t scales (last / 8 + 1) || scratchHalf codes != scratchHalf scales then
    some (Cause.scratchBounds, scales)
  else none

/-- What a QUANT is to do, or the trap of its checks. -/
def quantWork (i : Issue) (q : Sid) (s : State) : Except (Nat × DWord) EngineWork :=
  let t := s.team q.team
  let th := s.thread (lane0 q)
  let w := (th.xp i.x.c.toNat).toNat
  let o := (opWord s i.x (lane0 q)).toNat
  let tile := shapeTile w 1
  let kind := i.x.sub.toNat % 4
  let buffer := bitOf i.x.sub.toNat 2
  let pitch := if buffer then opBpitch o else opApitch o
  let last := (tile.rows - 1) * pitch + (tile.cols - 1)
  if !shapeOk w false || shapeChunks w != 0 || opRsv o || pitch % 8 != 0 || opEoff o % 8 != 0 ||
      decide (pitch < tile.cols) then .error (Cause.matrixShape, 0)
  else if buffer then
    match s.record i.core q.team (opRec o) with
    | none => .error (Cause.operandBufferRange, 0)
    | some r =>
      if recFmt r ≠ 18 ∨ recBytes r < elemEnd .q4 (opEoff o + last) ∨
          recBytes r < recSoff r * 64 + (opEoff o + last) / 8 + 1 then
        .error (Cause.operandBufferRange, 0)
      else if !tile.fits t.accBytes then .error (Cause.accumulatorRange, 0)
      else .ok (.quantBuffer kind tile r (opEoff o) pitch)
  else
    let codes := th.xp i.x.a.toNat
    let scales := th.xp i.x.e.toNat
    match quantScratchCheck t codes scales last with
    | some e => .error e
    | none =>
      if !tile.fits t.accBytes then .error (Cause.accumulatorRange, 0)
      else .ok (.quantScratch kind tile (scratchHalf codes) (scratchOff codes) (scratchOff scales) pitch)

/-! ## The engine at work -/

/-- An element of a byte array by its index (R256): q4 two to a byte, the low nibble first. -/
def elemAt (m : Memory) (ty : Ty) (base e : Nat) : Nat :=
  if ty = .q4 then (m.get (base + e / 2)).toNat / (if e % 2 = 0 then 1 else 16) % 16
  else m.readNat (base + e * ty.size) ty.size

/-- A value with a block's scale (R139, R140): `l` is the block length, 0 for none. -/
def scaled (ty : Ty) (l bits scale : Nat) : FVal :=
  if ty = .q4 then q4Decode scale bits
  else
    let v := (fmtOf ty).decode bits
    if l = 0 then v
    else if scale = 255 then .nan false
    else
      match v with
      | .fin n m e => .fin n m (e + scale - 127)
      | v => v

/-- A(i, κ) of an MMA (R256). -/
def matA (sp : Memory) (ty : Ty) (l aOff sOff apitch i k : Nat) : FVal :=
  let e := i * apitch + k
  scaled ty l (elemAt sp ty aOff e) (if l = 0 then 0 else (sp.get (sOff + e / l)).toNat)

/-- The element index of B(κ, j) in its reservation (R256). -/
def indexB (turned : Bool) (bpitch eoff k j : Nat) : Nat :=
  eoff + (if turned then j * bpitch + k else k * bpitch + j)

/-- B(κ, j) of an MMA (R256). -/
def matB (ob : Memory) (r : DWord) (turned : Bool) (bpitch eoff k j : Nat) : FVal :=
  let e := indexB turned bpitch eoff k j
  let base := recBase r * 4096
  let l := recLen r
  scaled (recTy r) l (elemAt ob (recTy r) base e)
    (if l = 0 then 0 else (ob.get (base + recSoff r * 64 + e / l)).toNat)

/-- The exact sum of one chunk's products (R149). A sum of zero is +0, whatever the signs of its products.
DEDUCED (assumption 104). -/
def chunkSum (a b : Nat → FVal) (k0 chunk : Nat) : Exact :=
  sumTerms (.fin false 0 0, false) ((List.range' k0 chunk).map fun k => (a k).mul (b k))

/-- An f32 element after its chunks (R149, R261). -/
def mmaFold (a b : Nat → FVal) (chunk : Nat) : (chunks k0 c : Nat) → Nat
  | 0, _, c => c
  | n + 1, k0, c =>
    let r := (Fmt.f32.decode c).add (chunkSum a b k0 chunk).1
    mmaFold a b chunk n (k0 + chunk) (Fmt.f32.convert .rn r.1).bits

/-- The positions of a tile, row by row. -/
def Tile.cells (t : Tile) : List (Nat × Nat) :=
  (List.range t.rows).flatMap fun i => (List.range t.cols).map fun j => (i, j)

/-- A tile written from a function of row and column. -/
def Tile.fill (t : Tile) (m : Memory) (f : Nat → Nat → Nat) : Memory :=
  t.cells.foldl (fun m p => m.writeNat (t.elem p.1 p.2) 4 (f p.1 p.2)) m

/-- Whether an uncorrectable word lies in a range (R338). -/
def badIn (l : List (Nat × Nat)) (h a n : Nat) : Bool :=
  l.any fun b => b.1 == h && decide (a < b.2 + 4 ∧ b.2 < a + n)

/-- The accumulator words of a range are good again where it covers them. -/
def Team.goodAcc (t : Team) (h a n : Nat) : Team :=
  { t with badAcc := t.badAcc.filter fun b => !(b.1 == h && decide (a ≤ b.2 ∧ b.2 + 4 ≤ a + n)) }

/-- A tile of accumulators written from a function. -/
def State.fillTile (s : State) (team h : Nat) (t : Tile) (f : Nat → Nat → Nat) : State :=
  s.modTeam team fun tm =>
    t.cells.foldl (fun tm p => tm.goodAcc h (t.elem p.1 p.2) 4) (tm.setAcc h (t.fill (tm.acc h) f))

/-- The windows of an entry's threads completed, with an uncorrectable error where `bad` (R328). A
window shared with the partner core's entry completes with the later of the two (R263). -/
def State.engineDone (s : State) (c : Nat) (op : EngineOp) (bad : Bool) : State :=
  let others := ((s.team op.team).cores.filter (· != c)).any fun d =>
    (s.core d).engine.any fun e => e.window == op.window
  let s := if bad then
      op.tids.foldl (fun s t => s.modThread t fun th =>
        { th with windows := th.windows.map fun w =>
            if w.id == op.window then { w with fault := some (Cause.dataUncorrectable, 0) } else w }) s
    else s
  if others then s
  else op.tids.foldl (fun s t =>
    s.complete t op.window (match (s.thread t).windowOf op.window with
      | some w => w.fault.isSome
      | none => false)) s

/-- Elements of an MMA that come from an uncorrectable word of the operand buffer or of the accumulator
(R338), by row and column. -/
def mmaBad (co : Core) (t : Team) (h : Nat) (tile : Tile) (r : DWord) (turned : Bool) (bpitch eoff k : Nat)
    (i j : Nat) : Bool :=
  badIn t.badAcc h (tile.elem i j) 4 ||
    (!co.badOpBuf.isEmpty && (List.range k).any fun x =>
      let e := indexB turned bpitch eoff x j
      let at_ := recBase r * 4096 + e * codeBits (recTy r) / 8
      let sc := recBase r * 4096 + recSoff r * 64 + e / (if recLen r = 0 then 1 else recLen r)
      co.badOpBuf.any fun o => o == at_ / 4 * 4 || (recLen r != 0 && o == sc / 4 * 4))

/-- What one engine has read of A and its scales, for an entry of the partner core's engine (R263). -/
def EngineWork.hold (w : EngineWork) (m : Memory) : EngineWork :=
  match w with
  | .mma aTy tr ah ao so ap bp eo r t k none => .mma aTy tr ah ao so ap bp eo r t k (some m)
  | w => w

/-- R263: A is read once. What an engine reads of it is what the partner core's entry of one MMAP uses. -/
def State.shareA (s : State) (op : EngineOp) (m : Memory) : State :=
  (s.team op.team).cores.foldl (fun s c =>
    if (s.core c).engine.any fun e => e.window == op.window then
      s.modCore c fun co =>
        { co with engine := co.engine.map fun e =>
            if e.window == op.window then { e with work := e.work.hold m } else e }
    else s) s

/-- The bytes of a half of the scratchpad that an MMA reads of A and of its scales. -/
def readOfA (m : Memory) (aTy : Ty) (l aOff sOff apitch : Nat) (t : Tile) (k : Nat) : Memory :=
  let last := (t.rows - 1) * apitch + (k - 1)
  m.filter fun c =>
    decide (aOff ≤ c.1 ∧ c.1 < aOff + elemEnd aTy last) ||
      (l != 0 && decide (sOff ≤ c.1 ∧ c.1 ≤ sOff + last / l))

/-- MMA at work (R261): the products of each chunk summed exactly onto each element. -/
def State.runMma (s : State) (c : Nat) (op : EngineOp) (aTy : Ty) (turned : Bool)
    (aHalf aOff sOff apitch bpitch eoff : Nat) (r : DWord) (t : Tile) (chunks : Nat) (held : Option Memory) :
    State :=
  let (sp, s) := match held with
    | some m => (m, s)
    | none => s.seenHalf .m (s.party (op.tids.headD ⟨op.team, 0, 0⟩)) op.team aHalf
  let tm := s.team op.team
  let co := s.core c
  let acc := tm.acc op.half
  let chunk := chunkOf aTy
  let l := recLen r
  let bad := mmaBad co tm op.half t r turned bpitch eoff (chunks * chunk)
  let anyBad := (!co.badOpBuf.isEmpty || !tm.badAcc.isEmpty) && t.cells.any fun p => bad p.1 p.2
  let free := s.free
  let s := if anyBad then { s with free := s.free + t.rows * t.cols } else s
  let s := s.fillTile op.team op.half t fun i j =>
    if anyBad && bad i j then Config.freeBits (free + i * t.cols + j) % 2 ^ 32
    else
      mmaFold (matA sp aTy l aOff sOff apitch i) (fun k => matB co.opBuf r turned bpitch eoff k j) chunk
        chunks 0 (acc.readNat (t.elem i j) 4)
  (s.shareA op (readOfA sp aTy (if l = 0 then 0 else 8) aOff sOff apitch t (chunks * chunk))).engineDone c op anyBad

/-- A tile handed to a drain (R266): each element converted, its bytes at hand; with add-on-store the
exact tile value. An element that cannot be corrected is a free value (R338).
DEDUCED (assumption 49). -/
def State.runDrain (s : State) (op : EngineOp) (cmd : Nat) (t : Tile) : State :=
  match AMap.find? cmd s.commands with
  | none => s
  | some c =>
    let tm := s.team op.team
    let acc := tm.acc op.half
    let bad := t.cells.any fun p => badIn tm.badAcc op.half (t.elem p.1 p.2) 4
    let free := s.free
    let s := if bad then { s with free := s.free + t.rows * t.cols } else s
    let conv := fun p =>
      let at_ := t.elem (p / t.cols) (p % t.cols)
      let bits := if bad && badIn tm.badAcc op.half at_ 4 then Config.freeBits (free + p) % 2 ^ 32
        else acc.readNat at_ 4
      if c.adds then bits else ((fmtOf c.ty).convert .rn (Fmt.f32.decode bits)).bits
    let ps := c.pieces.map fun p =>
      match p.src with
      | .bytes n => { p with src := .bytes (conv n) }
      | _ => p
    s.setCommand cmd
      { c with pieces := ps, ready := true, cause := if bad then Cause.dataUncorrectable else c.cause }

/-- The scale byte and the codes of one block of eight elements of a row (R150, R141). -/
def quantBlock (acc : Memory) (kind : Nat) (t : Tile) (i b : Nat) : Nat × List Nat :=
  let xs := (List.range 8).map fun x => Fmt.f32.decode (acc.readNat (t.elem i (8 * b + x)) 4)
  let e := q4BlockE kind xs
  let scale := kind * 64 + e
  (scale, xs.map fun x => (q4Encode scale x).bits)

/-- Four bytes of codes, two to a byte, the low nibble first. -/
def packCodes : List Nat → Nat
  | [] => 0
  | c :: cs => c % 16 + 16 * packCodes cs

/-- The scale byte and the packed codes of a block: free values, but for the kind, where they are computed
from a word that cannot be corrected (R338).
DEDUCED (assumption 49). -/
def quantOut (tm : Team) (half kind : Nat) (t : Tile) (free i b : Nat) : Nat × Nat :=
  if !tm.badAcc.isEmpty && (List.range 8).any fun x => badIn tm.badAcc half (t.elem i (8 * b + x)) 4 then
    let v := Config.freeBits (free + i * t.cols + b)
    (kind * 64 + v % 64, v / 64 % 2 ^ 32)
  else
    let r := quantBlock (tm.acc half) kind t i b
    (r.1, packCodes r.2)

/-- The blocks of a tile, row by row: row and block. -/
def Tile.blocks (t : Tile) : List (Nat × Nat) :=
  (List.range t.rows).flatMap fun i => (List.range (t.cols / 8)).map fun b => (i, b)

/-- QUANT into a scratchpad (R267): path-t stores by lane 0. -/
def State.runQuantScratch (s : State) (op : EngineOp) (kind : Nat) (t : Tile)
    (half codes scales pitch : Nat) : State :=
  let tm := s.team op.team
  let free := s.free
  let lane0 := op.tids.headD ⟨op.team, 0, 0⟩
  t.blocks.foldl (fun s p =>
    let r := quantOut tm op.half kind t free p.1 p.2
    let e := p.1 * pitch + 8 * p.2
    let s := s.threadWrite lane0 (.scr half (codes + e / 2)) 4 r.2
    s.threadWrite lane0 (.scr half (scales + e / 8)) 1 r.1) s

/-- The byte addresses that a QUANT into the operand buffer writes. -/
def quantBytes (t : Tile) (base soff eoff pitch : Nat) : List Nat :=
  t.blocks.flatMap fun p =>
    let e := eoff + p.1 * pitch + 8 * p.2
    (base + soff * 64 + e / 8) :: List.range' (base + e / 2) 4

/-- QUANT into the operand buffer (R267). A word it writes whole is good again (R338). -/
def State.runQuantBuffer (s : State) (c : Nat) (op : EngineOp) (kind : Nat) (t : Tile) (rec_ : DWord)
    (eoff pitch : Nat) : State :=
  let tm := s.team op.team
  let base := recBase rec_ * 4096
  s.modCore c fun co =>
    { co with
      opBuf := t.blocks.foldl (fun m p =>
        let r := quantOut tm op.half kind t s.free p.1 p.2
        let e := eoff + p.1 * pitch + 8 * p.2
        (m.writeNat (base + e / 2) 4 r.2).writeNat (base + recSoff rec_ * 64 + e / 8) 1 r.1)
        co.opBuf
      badOpBuf := co.badOpBuf.filter fun o =>
        !((List.range' o 4).all fun a => (quantBytes t base (recSoff rec_) eoff pitch).contains a) }

/-- Whether a tile of a share holds an uncorrectable word. -/
def State.badTile (s : State) (op : EngineOp) (t : Tile) : Bool :=
  t.cells.any fun p => badIn (s.team op.team).badAcc op.half (t.elem p.1 p.2) 4

/-- The free values that a QUANT has used up. -/
def State.spendQuant (s : State) (t : Tile) (bad : Bool) : State :=
  if bad then { s with free := s.free + t.rows * t.cols } else s

/-- MRD at work (R265): the bits read are the results of the thread's window. -/
def State.runRead (s : State) (c : Nat) (op : EngineOp) (off n d : Nat) : State :=
  let tm := s.team op.team
  let bad := badIn tm.badAcc op.half off n
  let v := (tm.acc op.half).readNat off n
  let s := if bad then s
    else op.tids.foldl (fun s t => s.modThread t fun th =>
      if (th.windowOf op.window).isSome then th.setXs d (n / 4) v else th) s
  s.engineDone c op bad

/-- One entry of the engine order carried out.
DEDUCED (assumption 50). -/
def State.runEngine (s : State) (c : Nat) (op : EngineOp) : State :=
  match op.work with
  | .clear b n => s.modCore c fun co => co.clearUnits b n
  | .free _ _ => s
  | .load a n v =>
    s.modCore c fun co =>
      { co with
        opBuf := co.opBuf.writeNat a n v
        badOpBuf := co.badOpBuf.filter fun o => !decide (a ≤ o ∧ o + 4 ≤ a + n) }
  | .mma ty tr ah ao so ap bp eo r t k a => s.runMma c op ty tr ah ao so ap bp eo r t k a
  | .zero t => s.fillTile op.team op.half t fun _ _ => 0
  | .read off n d => s.runRead c op off n d
  | .write off n v =>
    s.modTeam op.team fun tm =>
      (tm.setAcc op.half ((tm.acc op.half).writeNat off n v)).goodAcc op.half off n
  | .drain cmd t => s.runDrain op cmd t
  | .quantScratch k t h co sc p =>
    ((s.runQuantScratch op k t h co sc p).spendQuant t (s.badTile op t)).engineDone c op (s.badTile op t)
  | .quantBuffer k t r eo p =>
    ((s.runQuantBuffer c op k t r eo p).spendQuant t (s.badTile op t)).engineDone c op (s.badTile op t)

/-- The first entry of a core's engine order carried out and removed. An entry of a team that is no
longer there does nothing.
DEDUCED (assumption 50). -/
def State.stepEngine (s : State) (c : Nat) : State :=
  match (s.core c).engine with
  | [] => s
  | op :: ops =>
    let s := s.modCore c fun co => { co with engine := ops }
    if (AMap.find? op.team s.teams).isSome || op.tids.isEmpty && op.window == 0 then s.runEngine c op
    else s

/-- A number of entries of a core's engine order carried out. -/
def State.stepsEngine (c : Nat) : Nat → State → State
  | 0, s => s
  | n + 1, s => State.stepsEngine c n (s.stepEngine c)

/-- The whole engine order of a core carried out. -/
def State.drainEngine (s : State) (c : Nat) : State :=
  State.stepsEngine c (s.core c).engine.length s

/-- MATRIX_OP_COMPLETE (R121, R261): the earliest entry of a core's engine order is carried out.
DEDUCED (assumption 50). -/
def execMatrixOpComplete (core : Nat) (s : State) : Out := .next (s.stepEngine core)

/-- QUANT (R267): into a scratchpad, its stores are made at its place in program order, behind every
entry before it; into the operand buffer, in engine order.
DEDUCED (assumption 100). -/
def squadQuant (i : Issue) (q : Sid) (ts : List Tid) (s : State) : SquadOut :=
  match quantWork i q s with
  | .error (c, a) => .trapAll s ts c a
  | .ok work =>
    let (id, s) := s.openEngine i ts
    let s := s.enqueue i.core { work, team := q.team, half := s.half q, tids := ts, window := id }
    match work with
    | .quantScratch _ _ _ _ _ _ => { s := s.drainEngine i.core }
    | _ => { s }

/-! ## The lease (R268) -/

/-- MLEASE. -/
def laneMlease (_ : Issue) (t : Tid) (s : State) : LaneOut :=
  if (s.launchOf t).lease = 0 then .trap Cause.leaseInvalid 0
  else .next (if s.leaseHeld t.team then s else s.leaseAsk t.team)

/-- MFREE. -/
def laneMfree (_ : Issue) (t : Tid) (s : State) : LaneOut :=
  if (s.launchOf t).lease = 0 then .next s
  else if s.leaseHeld t.team then .next (s.endLease t.team)
  else if s.threads.any fun p => p.1.team == t.team && p.2.status == .parked .lease then .next s
  else .next (s.stopWaiting t.team)

/-! ## The meanings -/

/-- OBRES (R257): units of the operand buffer reserved. -/
def execObres (x : Ext) (s : State) : Out := simt .obres x x.len true laneObres s

/-- OBREL (R258): a reservation released. -/
def execObrel (x : Ext) (s : State) : Out := simt .obrel x x.len true laneObrel s

/-- OBLD (R259): a reservation filled. -/
def execObld (x : Ext) (s : State) : Out := simt .obld x x.len true laneObld s

/-- MMA (R260): a matrix multiply. -/
def execMma (x : Ext) (s : State) : Out := simtSquad .mma x x.len squadMma s

/-- MMAP (R263): a matrix multiply on a pair. -/
def execMmap (x : Ext) (s : State) : Out := simtSquad .mmap x x.len squadMma s

/-- MZERO (R264): a tile cleared. -/
def execMzero (x : Ext) (s : State) : Out := simtSquad .mzero x x.len squadMzero s

/-- MDRAIN (R266): a tile drained. -/
def execMdrain (x : Ext) (s : State) : Out := simtSquad .mdrain x x.len squadMdrain s

/-- QUANT (R267): a tile turned into Q4 blocks. -/
def execQuant (x : Ext) (s : State) : Out := simtSquad .quant x x.len squadQuant s

/-- MRD (R265): accumulators read. -/
def execMrd (x : Ext) (s : State) : Out := simtSquad .mrd x x.len (squadAcc State.readAcc) s

/-- MWR (R265): accumulators written. -/
def execMwr (x : Ext) (s : State) : Out := simtSquad .mwr x x.len (squadAcc State.writeAcc) s

/-- MLEASE (R268): a wait for the lease. -/
def execMlease (x : Ext) (s : State) : Out := simt .mlease x x.len true laneMlease s

/-- MFREE (R268): the lease given up. -/
def execMfree (x : Ext) (s : State) : Out := simt .mfree x x.len true laneMfree s

end Sys2Proof.Machine
end

