-- ==== Sys2Proof/Machine/Rooms.lean ====
section
/-! DEFINITION. What a core has room for (R33, R68, R69), issue-position bases (R36), and the start of a
team's squads (R32). -/

namespace Sys2Proof.Machine

/-! ## Room -/

/-- The fields of a partition word (R68). -/
def partReg (p : Word) : Nat := bitsOf p.toNat 6 0
def partSp (p : Word) : Nat := bitsOf p.toNat 14 8
def partAcc (p : Word) : Nat := bitsOf p.toNat 22 16
def partUnits (p : Word) : Nat := partReg p + partSp p + partAcc p

/-- The pool units of a core that no resident team has (R15, R68). -/
def State.freeUnits (s : State) (c : Nat) : Nat :=
  64 - ((s.teams.filter fun p => p.2.cores.contains c).map fun p => partUnits p.2.part).sum

/-- The free thread slots of a core, of its 2,048 (R33). -/
def State.freeThreads (s : State) (c : Nat) : Nat :=
  2048 - ((s.residentOn c).map fun q => (s.teamLaunch q.team).width).sum

/-- The lowest team slot that is free on all of some cores.
DESIGN CHOICE (assumption 89). -/
def State.freeSlot (s : State) (cs : List Nat) : Option Nat :=
  (List.range 64).find? fun n => cs.all fun c => (AMap.find? n (s.core c).slots).isNone

/-- The squads of a team on one of its cores. -/
def State.squadsOnHalf (s : State) (team half : Nat) : List Sid :=
  (s.squadsOfTeam team).filter fun q => s.half q == half

/-- The squads that a team's register share still has room for on one of its cores (R68). -/
def State.shareRoom (s : State) (team half : Nat) : Nat :=
  let l := s.teamLaunch team
  partReg (s.team team).part * 24576 / (l.width * l.regs * 4) - (s.squadsOnHalf team half).length

/-! ## Issue positions (R36) -/

/-- The threads of a launch that hold positions `b` to `b + w − 1` on a core. -/
def State.holding (s : State) (c lid b w : Nat) : Nat :=
  (((s.residentOn c).filter fun q => (s.team q.team).lid == lid).map fun q =>
    ((s.liveOf q).filter fun t => decide (b ≤ s.position t ∧ s.position t < b + w)).length).sum

/-- The base among some at which the fewest threads hold positions, the lowest of equals. -/
def State.leastHeld (s : State) (c lid w : Nat) : List Nat → Nat
  | [] => 0
  | [b] => b
  | b :: bs =>
    let r := s.leastHeld c lid w bs
    if s.holding c lid b w ≤ s.holding c lid r w then b else r

/-- The base of a squad that starts (R36). -/
def State.positionBase (s : State) (c lid w : Nat) : Nat :=
  s.leastHeld c lid w ((List.range (64 / w)).map (· * w))

/-! ## Starting squads (R32, R39) -/

/-- The virtual address of a task record, as TSPAWN gave it. -/
def State.taskAddr (s : State) (task : Option Nat) : Nat :=
  match task with
  | some pa => (match AMap.find? pa s.tasks with | some p => p.1 | none => pa)
  | none => 0


/-- The seed of a thread's rounding generator (R145). -/
def rngSeed (lid team index : Nat) : Word :=
  let v := BitVec.ofNat 32 lid ^^^ BitVec.ofNat 32 (team % 2 ^ 20 * 2 ^ 12) ^^^ BitVec.ofNat 32 index
  if v = 0 then 1 else v

/-- A thread at the start of its squad: its registers undefined but for the argument of a task.
DESIGN CHOICE (assumption 4). -/
def State.startThread (s : State) (t : Tid) (pc : DWord) (arg : Option Nat) : State :=
  let l := s.launchOf t
  let th : Thread :=
    { Thread.blank with
      pc, seed := s.free, status := .ready, since := s.clock
      rng := rngSeed (s.team t.team).lid (s.team t.team).number (t.squad * l.width + t.lane) }
  { s.setThread t (match arg with | some a => th.setXs 8 2 a | none => th) with free := s.free + 128 }

/-- One squad started at a PC of a code object: it joins the back of its core's pick order with lane 0 as its lead (R39). -/
def State.startSquad (s : State) (q : Sid) (code pc : DWord) (task arg : Option Nat) : State :=
  let c := s.coreOf q
  let lid := (s.team q.team).lid
  let b := s.positionBase c lid (s.launch lid).width
  let (n, s) := s.fresh
  let s := s.setSquad q { base := b, lead := some 0, started := n, window := none, task, code }
  let s := s.modCore c fun co => { co with order := co.order ++ [q] }
  (s.threadsOf q).foldl (fun s t => s.startThread t pc arg) s

/-- Squads of a team started in one clock. -/
def State.startSquads (s : State) (team : Nat) (qs : List Nat) (code pc : DWord) (task arg : Option Nat) :
    State :=
  qs.foldl (fun s q => s.startSquad ⟨team, q⟩ code pc task arg) s

/-- The free squad slots of a team that `n` further squads take: the lowest, in a paired team
alternately on its two cores, the extra squad on core 2j (R34, R68).
DESIGN CHOICE (assumption 89). -/
def State.slotsFor (s : State) (team n : Nat) : List Nat :=
  let free := (List.range 32).filter fun q => !(s.squadsOfTeam team).contains ⟨team, q⟩
  if (s.team team).paired then
    ((free.filter fun q => q % 2 == 0).take ((n + 1) / 2)) ++ (free.filter fun q => q % 2 == 1).take (n / 2)
  else free.take n

/-- Whether a team has room for squads in some of its slots (R33, R68). -/
def State.roomFor (s : State) (team : Nat) (qs : List Nat) : Bool :=
  let t := s.team team
  let w := (s.teamLaunch team).width
  (List.range t.cores.length).all fun h =>
    let k := if t.paired then (qs.filter fun q => q % 2 == h).length else qs.length
    decide (k ≤ s.shareRoom team h) && decide (k * w ≤ s.freeThreads (t.core + h))

/-! ## Freeing a team (R54) -/

/-- One reservation record of a core cleared, its units free once every matrix instruction issued before
has read them (R258).
DEDUCED (assumption 50). -/
def State.clearRecord (s : State) (c team : Nat) (r : Nat × DWord) : State :=
  let s := s.modCore c fun co => { co with records := co.records.erase r.1 }
  if (s.core c).engine.isEmpty then s
  else s.enqueue c { work := .free (recBase r.2) (recSize r.2), team, half := 0, tids := [], window := 0 }

/-- The reservation records of a team on a core, in ascending order. -/
def State.recordsOf (s : State) (c team : Nat) : List (Nat × DWord) :=
  (List.range 16).filterMap fun r => (s.record c team r).map fun v => (r, v)

/-- A team's place freed: its reservation records are cleared as by OBREL (R88), its slot and units become
free, and its lease ends. -/
def State.freeTeam (s : State) (team : Nat) : State :=
  let t := s.team team
  let s := (s.stopWaiting team).endLease team
  let s := { s with pastStamps := s.pastStamps.set team t.stamps }
  let s := t.cores.foldl (fun s c =>
    (((s.recordsOf c team).foldl (fun s r => s.clearRecord c team r) s)).modCore c fun co =>
      { co with slots := co.slots.erase t.slot }) s
  ({ s with teams := s.teams.erase team }.settleTeam team).due (.blockRecompact (siteOf t.core) (blockOf t.core)) 0

end Sys2Proof.Machine
end

