-- ==== Sys2Proof/Machine/Waiting.lean ====
section
/-! DEFINITION. Waiting on a memory word (R227, R228) and on a receive ring (R235), consuming a ring's
slot (R236), and the events of R64 on task records that threads make (R233, R234). -/

namespace Sys2Proof.Machine

/-! ## WAITW -/

/-- Whether WAITW parks on a value (R227). -/
def waitParks (ty : Ty) (ge : Bool) (v expect : Nat) : Bool :=
  if ge then !wordGe ty v expect else v == expect

/-- A restored WAITW has made its first read (R331). -/
def State.firstRead (s : State) (t : Tid) : State :=
  if (s.thread t).waitLeft.isNone then s else s.modThread t fun th => { th with waitLeft := none }

/-- WAITW (R227): the first read, and the watch registered with it. -/
def laneWaitw (i : Issue) (t : Tid) (s : State) : LaneOut :=
  let ty := i.x.type
  let n := ty.size
  match access i t s n .read with
  | .out o => o
  | .absent s => .next ((((s.firstRead t).writeD i t ty.regs 0).setResidency i t true).fence (extFence i.x) (s.party t))
  | .go l s =>
    onPresent s t l n
      (if s.badLoc t.team l n then .trap Cause.dataUncorrectable (effAddr s i t)
      else
        let left := (s.thread t).waitLeft
        let s := ((s.firstRead t).loadAt i t l).sees (s.party t) t.team l n
        let v := s.readLoc t.team l n
        let ge := i.x.sub == 1
        if waitParks ty ge v (srcC s i t) then
          let e := left.getD ((s.thread t).x i.x.e.toNat).toNat
          let w : Watch :=
            { addr := effAddr s i t, loc := l, expect := srcC s i t
              deadline := if e = 0 then none else some (s.tick + e * coreTicks)
              d := i.x.d.toNat, ty, ge, rf := i.x.rf.toNat, len := i.len, fence := (extFence i.x) }
          .park (if e = 0 then s else s.due (.waitwTimeout t) (e * coreTicks)) (.word w)
        else
          .next (((s.writeD i t ty.regs v).setResidency i t false).fence (extFence i.x) (s.party t)))

/-- A parked WAITW that ends with a value, and its fence (R122). -/
def State.endWait (s : State) (t : Tid) (w : Watch) (v : Nat) (resident : Bool) : State :=
  ((s.modThread t fun th =>
    (th.setXs w.d w.ty.regs v).setP w.rf !resident).wakePast t w.len).fence w.fence (s.party t)

/-- A parked WAITW that traps at its second read. -/
def State.trapWait (s : State) (t : Tid) (w : Watch) (cause : Nat) : State :=
  s.trapParked [t] cause w.addr

/-- The second read of a woken WAITW (R227). Where the line is absent (R87) or the access is held, it is
made in a later clock. -/
def State.secondRead (s : State) (t : Tid) (w : Watch) : State :=
  let n := w.ty.size
  match s.checkAddr (s.coreOf t.sid) t.team (s.launchOf t).space w.addr n n .read with
  | .trap c => s.trapWait t w c
  | .absent => if w.rf = 0 then s.trapWait t w Cause.nonresident else s.endWait t w 0 false
  | .held => s.due (.waitwWake t) coreTicks
  | .ok l s =>
    if (s.lineAbsent t.team l n).isSome then s.due (.waitwWake t) coreTicks
    else if s.badLoc t.team l n then s.trapWait t w Cause.dataUncorrectable
    else (s.sees (s.party t) t.team l n).endWait t w (s.readLoc t.team l n) true

/-- WAITW_WAKE (R227, R228): a write or an FADDW wakes a parked WAITW.
DEDUCED (assumption 96). -/
def execWaitwWake (t : Tid) (s : State) : Out :=
  match (s.thread t).status with
  | .parked (.word w) => .next (s.secondRead t w)
  | _ => .next s

/-- WAITW_TIMEOUT (R227): the timeout passes. It stands still while the core's picker does.
DEDUCED (assumption 96). -/
def execWaitwTimeout (t : Tid) (s : State) : Out :=
  match (s.thread t).status with
  | .parked (.word w) =>
    (match w.deadline with
      | some d =>
        .next (if d ≤ s.tick && !(s.core (s.coreOf t.sid)).stopped then s.secondRead t w else s)
      | none => .next s)
  | _ => .next s

/-! ## Receive rings -/

/-- Whether ring n is registered (R101). -/
def Team.ringOn (t : Team) (n : Nat) : Bool :=
  decide (n < 8) && (AMap.getD t.ringCfg n 0).getLsbD 63

/-- Whether the header of ring n holds an uncorrectable error (R338). -/
def State.badRing (s : State) (team n : Nat) : Bool :=
  let tm := s.team team
  s.badLoc team (.scr (tm.ringHalf n) (tm.ringBase n)) 8

/-- The slots filled of a ring. -/
def Team.ringFilled (t : Team) (n : Nat) : Nat :=
  (t.ringTailWord n + 2 ^ 32 - t.ringHead n) % 2 ^ 32

/-- The address of a ring's header in the scratchpad form (R79, R101). -/
def Team.ringAddr (t : Team) (n : Nat) : DWord :=
  .ofNat 64 (2 ^ 56 + 2 ^ 23 * t.ringHalf n + t.ringBase n)

/-- RWAIT (R235). -/
def laneRwait (i : Issue) (t : Tid) (s : State) : LaneOut :=
  let n := i.x.imm.toNat
  let tm := s.team t.team
  if !tm.ringOn n then .trap Cause.ringInvalid 0
  else if s.badRing t.team n then .trap Cause.dataUncorrectable (tm.ringAddr n)
  else if tm.ringFilled n = 0 then .park (s.seesRing t n) (.ring n (tm.ringTailWord n) i.x.d.toNat i.len (extFence i.x))
  else .next (((s.seesRing t n).writeD i t 1 (tm.ringFilled n)).fence (extFence i.x) (s.party t))

/-- RPOP (R236). -/
def laneRpop (i : Issue) (t : Tid) (s : State) : LaneOut :=
  let n := i.x.imm.toNat
  let tm := s.team t.team
  if !tm.ringOn n then .trap Cause.ringInvalid 0
  else if s.badRing t.team n then .trap Cause.dataUncorrectable (tm.ringAddr n)
  else if tm.ringFilled n = 0 then .next (s.seesRing t n)
  else
    .next ((s.seesRing t n).threadWrite t (.scr (tm.ringHalf n) (tm.ringBase n)) 4 ((tm.ringHead n + 1) % 2 ^ 32))

/-! ## Task records -/

/-- R233's checks on the address of a task record: its physical address, or the lane's outcome.
DEDUCED (assumption 47). -/
def recordAt (i : Issue) (t : Tid) (s : State) : Except LaneOut (Nat × State) :=
  let a := effAddr s i t
  if !isGlobal a then .error (.trap Cause.addressForm a)
  else
    match s.checkAddr i.core t.team (s.launchOf t).space a 64 64 .atomic with
    | .trap c => .error (.trap c a)
    | .absent => .error (.trap Cause.nonresident a)
    | .held => .error .hold
    | .ok (.scr _ _) _ => .error (.trap Cause.addressForm a)
    | .ok (.glob pa) s =>
      if s.badLoc t.team (.glob pa) 64 then .error (.trap Cause.dataUncorrectable a)
      else .ok (pa, s)

/-- The `n` bytes at a global virtual address as a party reads them on path t, in at most `fuel` accesses, each
translated for reading (R21); or the cause of the first that cannot be made. -/
def State.readPieces (s : State) (core : Nat) (sp : Space) (a : Party) : (fuel va n : Nat) → Except Nat (Nat × State)
  | 0, _, _ => .ok (0, s)
  | fuel + 1, va, n =>
    if n = 0 then .ok (0, s)
    else
      let k := accessBytes va n
      match s.translate core sp va .read with
      | .error c => .error c
      | .ok (pa, s1) =>
        if isRegisterPa pa && k == 1 then .error Cause.alignment
        else if s.accessHeld pa then .error heldCause
        else if s1.badLoc 0 (.glob pa) k then .error Cause.dataUncorrectable
        else
          let (v, s2) := s1.seen .t a 0 (.glob pa) k
          match s2.readPieces core sp a fuel (va + k) (n - k) with
          | .error c => .error c
          | .ok (vs, s3) => .ok (v + 2 ^ (8 * k) * vs, s3)

/-- The `n` bytes at a global virtual address as a party reads them on path t. -/
def State.readVa (s : State) (core : Nat) (sp : Space) (a : Party) (va n : Nat) : Except Nat (Nat × State) :=
  s.readPieces core sp a n va n

/-- The TAG of a Scribe image (R295). -/
def scribeTag : Nat := 0x53435249

/-- The checks of TSPAWN and DEFER behind the state table (R64): the DONE operand, and the tier of the
code object.
DEDUCED (assumption 47). -/
def spawnChecks (i : Issue) (t : Tid) (s : State) (pa code : Nat) : Except (Nat × DWord) State :=
  let sp := (s.launchOf t).space
  match s.checkCompletion i.core none sp (recDone s pa) with
  | .error e => .error e
  | .ok s =>
    match s.readVa i.core sp (s.party t) code 8 with
    | .error c => .error (c, .ofNat 64 code)
    | .ok (v, s) =>
      if recScribe s pa == (v / 2 ^ 32 == scribeTag) then .ok s
      else .error (Cause.taskRecordInvalid, 0)

/-- A record spawned by a lane (R64): LID written, then READY or WAITING; and whether its ready queue
was full. -/
def State.spawn (s : State) (i : Issue) (t : Tid) (pa : Nat) : State × Bool :=
  let lid := (s.team t.team).lid
  let s := s.setRec (s.party t) pa 0x20 (setBits (recWord s pa 0x20) 63 32 lid)
  let s := { s with tasks := s.tasks.set pa ((effAddr s i t).toNat, lid) }
  if recCount s pa ≤ 0 then s.ready (s.party t) pa else (s.setRecState (s.party t) pa 1, false)

/-- A lane's event on a record that may have filled a ready queue (R66). -/
def readied (r : State × Bool) : LaneOut :=
  if r.2 then .trapNext r.1 Cause.readyQueueOverflow 0 else .next r.1

/-- TSPAWN (R233).
DEDUCED (assumption 47). -/
def laneTspawn (i : Issue) (t : Tid) (s : State) : LaneOut :=
  match recordAt i t s with
  | .error o => o
  | .ok (pa, s) =>
    let st := recState s pa
    if recMalformed s pa (s.launchOf t).width || (1 ≤ st && st ≤ 3) then
      .trap Cause.taskRecordInvalid 0
    else
      match spawnChecks i t s pa (recCode s pa) with
      | .error (c, a) => failLane c a
      | .ok s => readied ({ s with fences := s.fences.erase pa }.spawn i t pa)

/-- The amount of TDEC and TINC (R233). -/
def countAmount (i : Issue) (t : Tid) (s : State) : Nat :=
  if i.x.sub = 1 then 1 else ((s.thread t).x i.x.c.toNat).toNat

/-- TDEC (R233).
DEDUCED (assumption 47). -/
def laneTdec (i : Issue) (t : Tid) (s : State) : LaneOut :=
  match recordAt i t s with
  | .error o => o
  | .ok (pa, s) =>
    let d := countAmount i t s
    if 0x80000000 ≤ d then .trap Cause.taskRecordInvalid 0
    else
      match s.countDown (s.party t) pa d with
      | .trap c => .trap c 0
      | .done s false => .next s
      | .done s true => readied (s.ready (s.party t) pa)

/-- TINC (R233).
DEDUCED (assumption 47). -/
def laneTinc (i : Issue) (t : Tid) (s : State) : LaneOut :=
  match recordAt i t s with
  | .error o => o
  | .ok (pa, s) =>
    let d := countAmount i t s
    if 0x80000000 ≤ d then .trap Cause.taskRecordInvalid 0
    else
      match s.countUp (s.party t) pa d with
      | .trap c => .trap c 0
      | .done s _ => .next s

/-- DEFER's continuation in a record: ENTRY, CODE and ARG (R234).
DEDUCED (assumption 47). -/
def deferFields (i : Issue) (t : Tid) (s : State) : Nat × Nat × Nat :=
  let th := s.thread t
  ((th.x i.x.e.toNat).toNat, (s.launchOf t).codeBase.toNat, (th.xp i.x.c.toNat).toNat % 2 ^ 52)

/-- DEFER (R234): the event on the record, and the thread on its way out. The fence it carries is kept beside those of
the DEFERs that the record has taken before (R122).
DEDUCED (assumption 47). -/
def laneDefer (i : Issue) (t : Tid) (s : State) : LaneOut :=
  match recordAt i t s with
  | .error o => o
  | .ok (pa, s) =>
    let (entry, code, arg) := deferFields i t s
    let st := recState s pa
    let same := recEntry s pa == entry && recCode s pa == code && recArg s pa == arg
    if recMalformed s pa (s.launchOf t).width || st == 2 || st == 3 || (st == 1 && !same) then
      .trap Cause.taskRecordInvalid 0
    else
      match spawnChecks i t s pa code with
      | .error (c, a) => failLane c a
      | .ok s =>
        let before := if st = 1 then AMap.getD s.fences pa [] else []
        let s := { s with fences := s.fences.set pa (before ++ [extFence i.x]) }
        if st = 1 then .park s (.tracker false 0) else
        let a := s.party t
        let s := s.setRec a pa 8 (setBits (recWord s pa 8) 31 0 entry)
        let s := s.setRec a pa 0x10 (setBits (recWord s pa 0x10) 51 0 code)
        let s := s.setRec a pa 0x18 (setBits (recWord s pa 0x18) 51 0 arg)
        let r := s.spawn i t pa
        .park r.1 (.tracker r.2 0)

/-- The reports of DEFERs that filled a ready queue (R234): their threads are no longer in delivery. -/
def State.deferReports (s : State) (ts : List Tid) : State :=
  let recs : List TrapRec := ts.map fun t =>
    ⟨t, Cause.readyQueueOverflow, 0, (s.thread t).pc, (s.thread t).pc, false, false, 0⟩
  (s.reportsOf recs recs).foldl (fun s r => s.submit { r with threads := [] }) s

/-- The end of a gang's DEFER (R234): the overflows reported, and its threads on their way out. -/
def deferGang (g : Gang) (s : State) : State :=
  let s := s.deferReports ((g.members.map fun m => m.2).filter fun t =>
    (s.thread t).status == .parked (.tracker true 0))
  let ts := s.leaving (g.members.map fun m => m.2)
  if ts.isEmpty then s else s.exitThreads g.core ts

/-! ## The meanings -/

/-- WAITW (R227): parks on a memory word. -/
def execWaitw (x : Ext) (s : State) : Out := simt .waitw x x.len true laneWaitw s


/-- TSPAWN (R233): a task record spawned. -/
def execTspawn (x : Ext) (s : State) : Out := simt .tspawn x x.len true laneTspawn s


/-- TDEC (R233): a task record counted down. -/
def execTdec (x : Ext) (s : State) : Out := simt .tdec x x.len true laneTdec s


/-- TINC (R233): a task record counted up. -/
def execTinc (x : Ext) (s : State) : Out := simt .tinc x x.len true laneTinc s


/-- RWAIT (R235): parks on an empty ring. -/
def execRwait (x : Ext) (s : State) : Out := simt .rwait x x.len true laneRwait s


/-- RPOP (R236), base form: consumes a slot of a ring. -/
def execRpop (i : BitVec 8) (s : State) : Out := simt .rpop (.bi i 0 0) 4 true laneRpop s

/-- RPOP (R236), extended form. -/
def execRpopExt (x : Ext) (s : State) : Out := simt .rpop x x.len true laneRpop s


/-- DEFER (R234): a continuation registered, and the thread exits. -/
def execDefer (x : Ext) (s : State) : Out :=
  let o := simt .defer x x.len true laneDefer s
  match s.gang, o with
  | some g, .next s => .next (deferGang g s)
  | _, o => o

end Sys2Proof.Machine
end

