-- ==== Sys2Proof/Machine/Accepting.lean ====
section
/-! DEFINITION. Launch queues (R56, R57, R61), the launch record (R58), its validation (R60), acceptance
(R59), and the completion of a launch (R62). -/

namespace Sys2Proof.Machine

/-! ## The queue registers (R56) -/

def LaunchQueue.enabled (q : LaunchQueue) : Bool := q.cfg.getLsbD 31
def LaunchQueue.home (q : LaunchQueue) : Nat := bitsOf q.cfg.toNat 13 8
def LaunchQueue.size (q : LaunchQueue) : Nat := 2 ^ (q.cfg.toNat % 16 + 4)

/-- Whether an address-space number is the system launch's (R342). -/
def State.systemAsn (s : State) (asn : Nat) : Bool := s.launches.any fun p => p.2.system && p.2.asn == asn

/-- The space a queue's launches are bound to (R340). No queue carries the system launch (R356).
DEDUCED (assumption 61). -/
def State.queueSpace (s : State) (q : Nat) : Space :=
  let pt := (s.queue q).pt.toNat
  ⟨pt % 4096, bitsOf pt 47 15 * 2 ^ 15, s.systemAsn (pt % 4096)⟩

/-- The site that serves a queue: its HOME, or the lowest that is not out (R61). -/
def State.serving (s : State) (q : Nat) : Nat :=
  let h := (s.queue q).home
  if (s.site h).out then ((List.range 60).find? fun n => !(s.site n).out).getD h else h

/-- The records ready to be read. -/
def LaunchQueue.waiting (q : LaunchQueue) : Nat := (q.tail.toNat + 2 ^ 32 - q.head.toNat) % 2 ^ 32

/-- LQTAIL_WRITE (R57, R350): the host's doorbell.
DESIGN CHOICE (assumption 91). -/
def execLqtailWrite (q : Nat) (v : Word) (s : State) : Out :=
  .next ((s.modQueue q fun lq => { lq with tail := v }).due (.launchRecordRead q) coreTicks)

/-- LQCFG_WRITE (R56, R61): ignored whole where an RSV bit or HOME forbids it; ECAUSE is not written.
DEDUCED (assumption 61). -/
def execLqcfgWrite (q : Nat) (v : Word) (s : State) : Out :=
  let n := v.toNat
  if bitsOf n 30 24 ≠ 0 ∨ bitsOf n 15 14 ≠ 0 ∨ bitsOf n 7 4 ≠ 0 ∨ 60 ≤ bitsOf n 13 8 then .next s
  else
    let keep := fun (lq : LaunchQueue) => setBits n 23 16 (bitsOf lq.cfg.toNat 23 16)
    .next ((s.modQueue q fun lq => { lq with cfg := .ofNat 32 (keep lq) }).due (.launchRecordRead q)
      coreTicks)

/-! ## Reading by the scheduler (R61) -/

/-- What a read comes to. -/
inductive SchedRead where
  | ok (v : Nat) (s : State)
  | absent (va : Nat)
  | bad (cause : Nat)
  | held

/-- The `n` 8-byte words at a virtual address, lowest first in one number: path-t reads, whose agent is the scheduler,
a unit of the module.
DESIGN CHOICE (assumption 124). -/
def State.schedRead (s : State) (sp : Space) : (va n : Nat) → SchedRead
  | _, 0 => .ok 0 s
  | va, n + 1 =>
    match s.translateAccess sp va .read with
    | .error c => if c = Cause.nonresident then .absent va else if c = heldCause then .held else .bad c
    | .ok (pa, s1) =>
      if s1.badLoc 0 (.glob pa) 8 then .bad Cause.dataUncorrectable
      else
        match s1.schedRead sp (va + 8) n with
        | .ok v s2 =>
          let r := s2.seen .t .module 0 (.glob pa) 8
          .ok (r.1 + 2 ^ 64 * v) r.2
        | o => o

/-- A page asked of Barrel, as PAGEREQ does (R94), with no completion to signal; not again while the
request stands.
DEDUCED (assumption 48). -/
def State.askPage (s : State) (sp : Space) (va : Nat) : State :=
  if s.pageReqs.any fun p => p.2.asn == sp.asn && p.2.va == va && p.2.done == 0 then s else
  let (id, s) := s.fresh
  let r : PageReq :=
    { asn := sp.asn, tableRoot := sp.root, system := sp.system, va, core := 0, team := 0, done := 0
      agent := .module }
  { s with pageReqs := s.pageReqs.set id r }.due (.pagereqComplete id) coreTicks

/-- R112's checks on a completion operand of the scheduler's, in a space. -/
def State.checkDone (s : State) (sp : Space) (op : DWord) : Option Nat :=
  let a := sigAddr op
  if a = 0 then none
  else if sigKind op = 0 ∨ 3 < sigKind op then some Cause.reservedBits
  else if sigKind op = 3 ∧ bitsOf op.toNat 5 3 ≠ 0 then some Cause.alignment
  else if !isGlobal a then some Cause.addressForm
  else
    match s.translateWalk sp a.toNat .write with
    | .error c => some c
    | .ok _ => none

/-! ## The launch record (R58) -/

/-- Bits of the 64-bit word of a record at a byte offset. -/
def lrec (r off hi lo : Nat) : Nat := bitsOf r (8 * off + hi) (8 * off + lo)

/-- The bits of each word that the table lists, as (offset, mask); every other bit is RSV. -/
def lrecMasks : List (Nat × Nat) :=
  [(0x00, 0x000FFFFFFFFFFFFF), (0x08, 0xFFFFFFFFFFFFFFFF), (0x10, 0x7FFF07FF1F7FF1FF),
   (0x18, 0xFFFFFFFF00FFFFFF), (0x20, 0x000FFFFFFFFFFFFF), (0x28, 0x7F), (0x30, 0x0000FF01FFFFFFFF),
   (0x38, 0x000FFFFFFFFFFFFF), (0x40, 0xFFFF), (0x48, 0x000FFFFFFFFFFFC0), (0x50, 0xFFFFFFFFFFFFFFFF),
   (0x58, 0x0FFFFFFFFFFFFFFF)]

/-- R58: an RSV bit of the record is 1. -/
def lrecReserved (r : Nat) : Bool :=
  (lrecMasks.any fun p => (BitVec.ofNat 64 (lrec r p.1 63 0) &&& ~~~BitVec.ofNat 64 p.2) != 0) ||
    bitsOf r 2047 (8 * 0x60) != 0

/-- The launch that a record describes, in a space, with its constants (R58, R59). -/
def lrecLaunch (r queue : Nat) (sp : Space) (consts : List DWord) : Launch :=
  let shot := lrec r 0x10 62 48
  { Launch.blank with
    codeBase := .ofNat 64 (lrec r 0 51 0)
    codeLen := lrec r 8 63 32
    entry := lrec r 8 31 0
    shot := if shot = 0 then 4096 else 4 * shot
    idem := bitOf r (64 * 2 + 42)
    memb := bitOf r (64 * 2 + 41)
    noprom := bitOf r (64 * 2 + 40)
    lease := lrec r 0x10 39 32
    prio := lrec r 0x10 28 24
    depth := lrec r 0x10 22 16
    regs := 8 * (lrec r 0x10 15 12 + 1)
    sqn := lrec r 0x10 8 3
    pair := bitOf r (64 * 2 + 2)
    width := 8 * 2 ^ lrec r 0x10 1 0
    part := .ofNat 32 (lrec r 0x18 63 32)
    teams := lrec r 0x18 23 0
    consts
    tenant := lrec r 0x30 47 40
    hv := bitOf r (64 * 6 + 32)
    hoff := lrec r 0x30 31 0
    wptr := .ofNat 64 (lrec r 0x38 51 0)
    wcnt := lrec r 0x40 15 0
    root := lrec r 0x48 51 6 * 64
    done := .ofNat 64 (lrec r 0x50 63 0)
    rmask := lrec r 0x58 59 0
    queue
    asn := sp.asn
    tableRoot := sp.root
    sysSpace := sp.system }

/-- R68's conditions 1 to 4 on a partition word. -/
def partValid (l : Launch) : Bool :=
  let reg := partReg l.part * 24576
  let n := l.regs * 4
  let t := min 2048 (reg / n)
  let q := if l.pair then (l.sqn + 1) / 2 else l.sqn
  decide (partUnits l.part ≤ 64) && decide (1 ≤ partReg l.part) && decide (l.width * n ≤ reg) &&
    decide (t * l.depth * 8 ≤ partSp l.part * 24576) && decide (q * l.width * n ≤ reg) &&
    decide (q * l.width ≤ 2048)

/-- Whether a launch may use a site (R58). -/
def Launch.permits (l : Launch) (site : Nat) : Bool := l.rmask == 0 || bitOf l.rmask site

/-- R60: a permitted reticle publishes a pair. -/
def State.pairPermitted (s : State) (l : Launch) : Bool :=
  (List.range 60).any fun n =>
    l.permits n && (List.range 12).any fun b =>
      !((s.site n).block b).rtdead && decide (0 < ((s.site n).block b).npairs)

/-- R60's conditions but for the constant table: the cause of the first that holds. -/
def State.lrecBad (s : State) (r : Nat) (l : Launch) : Option Nat :=
  let kcnt := lrec r 0x28 6 0
  let shot := lrec r 0x10 62 48
  if lrecReserved r || bitsOf l.part.toNat 31 23 != 0 || bitOf l.part.toNat 15 || bitOf l.part.toNat 7 ||
      decide (112 < kcnt) || decide (64 < l.depth) || decide (32 < l.sqn) ||
      (shot != 0 && (decide (shot < 64) || decide (16384 < shot))) then some Cause.reservedBits
  else if decide (l.codeLen ≤ l.entry) || (l.hv && decide (l.codeLen ≤ l.hoff)) then some Cause.codeBounds
  else if !partValid l || (l.pair && !s.pairPermitted l) || l.teams == 0 then
    some Cause.taskRecordInvalid
  else if l.codeBase.toNat % 4 ≠ 0 ∨ (kcnt ≠ 0 ∧ lrec r 0x20 51 0 % 8 ≠ 0) ∨
      (l.wcnt ≠ 0 ∧ l.wptr.toNat % 64 ≠ 0) then some Cause.alignment
  else none

/-! ## Acceptance (R57, R59-R61) -/

/-- HEAD past the record. -/
def State.advanceHead (s : State) (q : Nat) : State :=
  (s.modQueue q fun lq => { lq with head := lq.head + 1 }).due (.launchRecordRead q) coreTicks

/-- The queue's ECAUSE set, and EN cleared where it stops.
DEDUCED (assumption 61). -/
def State.queueCause (s : State) (q cause : Nat) (stop : Bool) : State :=
  s.modQueue q fun lq =>
    let v := setBits lq.cfg.toNat 23 16 cause
    { lq with cfg := .ofNat 32 (if stop then setBits v 31 31 0 else v) }

/-- A queue that waits for a page (R61). -/
def State.queueWait (s : State) (q : Nat) (sp : Space) (va : Nat) : State :=
  ((s.askPage sp va).modQueue q fun lq => { lq with wait := true }).due (.launchPageResume q) coreTicks

/-- A rejected record (R60, R61): DONE is signalled as failed, or where DONE is at fault the queue records
the cause. -/
def State.reject (s : State) (q : Nat) (sp : Space) (done : DWord) (cause : Nat) (doneBad : Bool) : State :=
  let s := if doneBad then s.queueCause q cause false
    else s.signal { core := 0, team := none, sp, op := done, n := 1, failed := true, cause, agent := .module }
  s.advanceHead q

/-- The identity after one: 0 is never taken (R59). -/
def lidAfter (n : Nat) : Nat := if (n + 1) % 2 ^ 32 = 0 then 1 else (n + 1) % 2 ^ 32

/-- A launch accepted (R59).
DESIGN CHOICE (assumption 86). -/
def State.accept (s : State) (l : Launch) : State :=
  let lid := s.nextLid
  let s := { s with nextLid := lidAfter lid }.setLaunch lid l
  (s.due (.teamPlace lid) coreTicks).due (.launchComplete lid) (2 * coreTicks)

/-- The 64-bit words of a number. -/
def wordsOf (v n : Nat) : List DWord := (List.range n).map fun i => .ofNat 64 (bitsOf v (64 * i + 63) (64 * i))

/-- The record at HEAD, once it has been read.
DEDUCED (assumption 61). -/
def State.acceptRecord (s : State) (q : Nat) (r : Nat) : State :=
  let sp := s.queueSpace q
  let l := lrecLaunch r q sp []
  let doneCause := s.checkDone sp l.done
  if doneCause = some heldCause then s.due (.launchRecordRead q) coreTicks else
  let reject := fun (s : State) (c : Nat) => s.reject q sp l.done c doneCause.isSome
  match s.lrecBad r l with
  | some c => reject s c
  | none =>
    match s.schedRead sp (lrec r 0x20 51 0) (lrec r 0x28 6 0) with
    | .absent va => s.queueWait q sp va
    | .bad c => reject s c
    | .held => s.due (.launchRecordRead q) coreTicks
    | .ok v s =>
      match doneCause with
      | some c => reject s c
      | none =>
        let s := s.report (s.serving q) 0x2400 5 noCore l.tenant q
        (s.accept { l with consts := wordsOf v (lrec r 0x28 6 0) }).advanceHead q

/-- LAUNCH_RECORD_READ (R57, R60, R61): the home scheduler reads the record at HEAD, and accepts it,
rejects it, stops the queue or asks for a page.
DEDUCED (assumption 61). DESIGN CHOICE (assumption 86). -/
def execLaunchRecordRead (q : Nat) (s : State) : Out :=
  let lq := s.queue q
  if !lq.enabled || lq.wait || lq.waiting == 0 then .next s
  else if lq.size < lq.waiting then
    .next ((s.modQueue q fun lq =>
      { lq with head := lq.tail - BitVec.ofNat 32 (lq.waiting % lq.size) }).due (.launchRecordRead q) 0)
  else
    let va := bitsOf lq.base.toNat 51 8 * 256 + 256 * (lq.head.toNat % lq.size)
    match s.schedRead (s.queueSpace q) va 32 with
    | .absent p => .next (s.queueWait q (s.queueSpace q) p)
    | .bad c => .next (s.queueCause q c true)
    | .held => .next (s.due (.launchRecordRead q) coreTicks)
    | .ok r s => .next (s.acceptRecord q r)

/-- LAUNCH_PAGE_RESUME (R61): the page that a queue waits for may be resident, and the scheduler reads
on. -/
def execLaunchPageResume (q : Nat) (s : State) : Out :=
  if (s.queue q).wait then
    .next ((s.modQueue q fun lq => { lq with wait := false }).due (.launchRecordRead q) 0)
  else .next s

/-! ## Completion (R62, R70) -/

/-- Whether a launch has tracker entries. -/
def State.hasTracker (s : State) (f : TrackerEntry → Bool) : Bool :=
  s.cores.any fun p => p.2.tracker.any f

/-- R62's conditions. -/
def State.launchOver (s : State) (lid : Nat) : Bool :=
  match AMap.find? lid s.launches with
  | none => false
  | some l =>
    !l.rootWait && !l.unplaced && l.savedTeams.isEmpty && (s.squadsOfLaunch lid).isEmpty &&
      (s.recordsIn lid 2).isEmpty && (s.recordsIn lid 3).isEmpty &&
      !s.hasTracker fun e => e.lid == lid

/-- R378: a launch with no placed team and none to place abandons its READY tasks. -/
def State.strand (s : State) (lid : Nat) : State :=
  let l := s.launch lid
  if (AMap.find? lid s.launches).isSome && !l.unplaced && l.savedTeams.isEmpty &&
      (s.teamsOfLaunch lid).isEmpty then (s.dropReady lid).abandon lid 2
  else s

/-- DONE signalled (R62 step 4), and the launch gone; its tenant's debug grant may end with it (R367). -/
def State.launchDone (s : State) (lid : Nat) : State :=
  let l := s.launch lid
  let s := s.signal
    { core := 0, team := none, sp := l.space, op := l.done, n := 1, failed := l.failCause != 0
      cause := l.failCause, agent := .module }
  let s := { s with launches := s.launches.erase lid }
  if s.level = 1 ∧ !s.tenantLive s.dbgTenant then s.due .tenantDebugRevoke 0 else s

/-- The root decrement (R62 step 3), and what follows it. -/
def State.rootStep (s : State) (lid : Nat) : State :=
  let l := s.launch lid
  if l.root = 0 then s.launchDone lid
  else
    match s.translateWalk l.space l.root .write with
    | .error c =>
      if c = Cause.nonresident then
        ((s.askPage l.space l.root).modLaunch lid fun l => { l with rootWait := true }).due
          (.rootDecrementResume lid) coreTicks
      else if c = heldCause then
        (s.modLaunch lid fun l => { l with rootWait := true }).due (.rootDecrementResume lid) coreTicks
      else (s.failLaunch lid Cause.protection).launchDone lid
    | .ok (_, s) =>
      (s.signal
        { core := 0, team := none, sp := l.space, op := .ofNat 64 (l.root + 3), n := 1, failed := false
          cause := 0, agent := .module }).launchDone lid

/-- LAUNCH_COMPLETE (R62): WAITING records are abandoned, the teams released, the root decremented, DONE
signalled. -/
def execLaunchComplete (lid : Nat) (s : State) : Out :=
  let s := s.strand lid
  if !s.launchOver lid then .next s
  else
    let s := s.abandon lid 1
    let s := (s.teamsOfLaunch lid).foldl State.freeTeam s
    .next ((s.rootStep lid).retryPlaces)

/-- ROOT_DECREMENT_RESUME (R62): the root's page may be resident. -/
def execRootDecrementResume (lid : Nat) (s : State) : Out :=
  match AMap.find? lid s.launches with
  | none => .next s
  | some l =>
    if !l.rootWait then .next s
    else
      match s.translateWalk l.space l.root .write with
      | .error c =>
        if c = Cause.nonresident ∨ c = heldCause then .next (s.due (.rootDecrementResume lid) coreTicks)
        else .next (s.rootStep lid)
      | .ok _ => .next (s.rootStep lid)

/-- TEAM_RELEASE (R70): an empty team of a launch with teams still to place is released. -/
def execTeamRelease (team : Nat) (s : State) : Out :=
  match AMap.find? team s.teams with
  | none => .next s
  | some t =>
    if (s.squadsOfTeam team).isEmpty && !t.frozen && (s.launch t.lid).unplaced &&
        !s.hasTracker fun e => e.team == team then
      .next (s.freeTeam team).retryPlaces
    else .next s

end Sys2Proof.Machine
end

