-- ==== Sys2Proof/Machine/Engines.lean ====
section
/-! DEFINITION. The engine commands CPY (R273), TCOPY (R277), UNSEAL (R166, R287) and NMCMD (R284, R285,
R317, R318). -/

namespace Sys2Proof.Machine

/-! ## Checks -/

/-- R81 steps 1, 2 and 4 on an address of a command: the cause of the first that fails. -/
def cmdAddr (t : Team) (a : DWord) (n align : Nat) : Option Nat :=
  if !formOk t.paired a then some Cause.addressForm
  else if a.toNat % align ≠ 0 then some Cause.alignment
  else if isScratch a && !scratchFits t a n then some Cause.scratchBounds
  else none

/-- The completion operand of a command's lane: XP(E) (R270). -/
def doneOperand (i : Issue) (s : State) (t : Tid) : DWord := (s.thread t).xp i.x.e.toNat

/-- The first check of a command (R270): its completion operand. -/
def withDone (i : Issue) (q : Sid) (ts : List Tid) (s : State)
    (f : Tid → DWord → State → SquadOut) : SquadOut :=
  match ts with
  | [] => { s }
  | t :: _ =>
    let done := doneOperand i s t
    match s.checkCompletion i.core (some q.team) (s.teamLaunch q.team).space done with
    | .error (c, a) => .fail s ts c a
    | .ok s => f t done s

/-! ## CPY (R273) -/

/-- What the lanes of a CPY or NMCMD have come to: the pages translated, the lanes that take part, what
they contribute, and the traps. -/
structure LaneScan (α : Type) where
  s : State
  pages : AMap Nat (Option Nat)
  lanes : List Tid
  work : List α
  traps : List (Tid × Nat × DWord)

/-- One lane's checks, its pages translated where they hold. -/
def LaneScan.step {α : Type} (o : LaneScan α) (core : Nat) (sp : Space) (t : Tid)
    (bad : Option (Nat × DWord)) (size : Nat) (reads writes adds : List Nat) (w : List α) : LaneScan α :=
  match bad with
  | some (c, a) => { o with traps := o.traps ++ [(t, c, a)] }
  | none =>
    match o.s.translatePages core sp .read size reads o.pages with
    | .error (c, a) => { o with traps := o.traps ++ [(t, c, .ofNat 64 a)] }
    | .ok (m, s) =>
      match s.translatePages core sp .write size writes m with
      | .error (c, a) => { o with traps := o.traps ++ [(t, c, .ofNat 64 a)] }
      | .ok (m, s) =>
        match s.translatePages core sp .atomic size adds m with
        | .error (c, a) => { o with traps := o.traps ++ [(t, c, .ofNat 64 a)] }
        | .ok (m, s) =>
          { o with s, pages := m, lanes := o.lanes ++ [t], work := o.work ++ w }

/-- Some lane's translation waits for a walk that is held. -/
def LaneScan.held {α : Type} (o : LaneScan α) : Bool := o.traps.any fun p => p.2.1 == heldCause

/-- One lane of a CPY. -/
def cpyLane (i : Issue) (q : Sid) (o : LaneScan Piece) (t : Tid) : LaneScan Piece :=
  let n := i.x.type.size
  let tm := o.s.team q.team
  let dst := effAddr o.s i t
  let src := (o.s.thread t).xp i.x.c.toNat
  let bad := match cmdAddr tm dst n n with
    | some c => some (c, dst)
    | none => (cmdAddr tm src n n).map fun c => (c, src)
  o.step i.core (o.s.teamLaunch q.team).space t bad n (pageStarts src.toNat n) (pageStarts dst.toNat n) []
    [{ dst := dst.toNat, src := .addr src.toNat, n }]

/-- CPY (R273): the lanes that pass their checks form one command. -/
def squadCpy (i : Issue) (q : Sid) (ts : List Tid) (s : State) : SquadOut :=
  withDone i q ts s fun _ done s =>
    let o := ts.foldl (cpyLane i q) ⟨s, [], [], [], []⟩
    if o.held then { s, held := true }
    else if o.lanes.isEmpty then { s := o.s, traps := o.traps }
    else
      let c := { commandOf i q o.lanes o.s done with pieces := o.work, pages := o.pages }
      { s := o.s.issueCommand i c startCopy, traps := o.traps }

/-! ## TCOPY (R277) -/

/-- The transfers of a TCOPY: tensor to linear side with zeros for clipped positions, or linear side to
tensor but for clipped positions. -/
def tcopyPieces (r : Tsr) (lin : Nat) (store : Bool) : List Piece :=
  (List.range r.positions).filterMap fun p =>
    if store then
      (if r.clipped p then none
      else some { dst := r.place p, src := .addr (lin + r.linear p), n := r.size })
    else
      some
        { dst := lin + r.linear p, src := if r.clipped p then .bytes 0 else .addr (r.place p)
          n := r.size }

/-- The tensor-side addresses of a TCOPY's transfers. -/
def tensorSide (store : Bool) (ps : List Piece) : List Nat :=
  ps.filterMap fun p =>
    if store then some p.dst
    else
      match p.src with
      | .addr a => some a
      | _ => none

/-- The first fault of a list of tensor elements (R81 steps 1 and 4). -/
def badElement (t : Team) (n : Nat) (as : List Nat) : Option (Nat × DWord) :=
  as.findSome? fun a => (cmdAddr t (.ofNat 64 a) n 1).map fun c => (c, .ofNat 64 a)

/-- A TCOPY whose record has been read: the checks of its linear side, and its entry in the queue. -/
def tcopyWith (i : Issue) (q : Sid) (ts : List Tid) (t : Tid) (done : DWord) (r : Tsr) (image : Nat)
    (s : State) : SquadOut :=
  let lin := (s.thread t).xp i.x.c.toNat
  let store := i.x.sub == 1
  let tm := s.team q.team
  let sp := (s.teamLaunch q.team).space
  match cmdAddr tm lin (r.positions * r.size) (if r.swz = 0 then r.size else max r.size r.span) with
  | some c => .trapAll s ts c lin
  | none =>
    let ps := tcopyPieces r lin.toNat store
    let tensor := tensorSide store ps
    match badElement tm r.size tensor with
    | some (c, a) => .trapAll s ts c a
    | none =>
      let tp := tensor.flatMap fun a => pageStarts a r.size
      let lp := pageStarts lin.toNat (r.positions * r.size)
      match s.translatePages i.core sp .read r.size (if store then lp else tp) [] with
      | .error (c, a) => .fail s ts c (.ofNat 64 a)
      | .ok (m, s) =>
        match s.translatePages i.core sp .write r.size (if store then tp else lp) m with
        | .error (c, a) => .fail s ts c (.ofNat 64 a)
        | .ok (pages, s) =>
          let c := { commandOf i q ts s done with
            pieces := ps, pages, addr := lin.toNat, tsr := image }
          { s := s.issueCommand i c startCopy }

/-- TCOPY (R277). -/
def squadTcopy (i : Issue) (q : Sid) (ts : List Tid) (s : State) : SquadOut :=
  withDone i q ts s fun t done s =>
    match s.readTsr i.core t (tsrAddr i s t) with
    | .trap c a => .trapAll s ts c a
    | .line h l => { s, again := ts.map fun t => (t, .line h l) }
    | .hold => { s, held := true }
    | .ok r image s => tcopyWith i q ts t done r image s

/-! ## UNSEAL (R287) -/

/-- The transfers of an UNSEAL: leaf f + i to destination + 256 i, line by line. -/
def unsealPieces (dst depth first count : Nat) : List Piece :=
  (List.range (2 * count)).map fun k =>
    { dst := dst + 128 * k, src := .leaf depth (first + k / 2) (128 * (k % 2)), n := 128 }

/-- R166, R287: the unseal word's fields are within their limits. -/
def unsealOk (w : Nat) : Bool :=
  let d := bitsOf w 62 60
  let k := bitsOf w 56 32
  !bitOf w 63 && bitsOf w 59 57 == 0 && bitsOf w 31 24 == 0 && decide (d ≤ 6) &&
    decide (1 ≤ k ∧ k ≤ 2 ^ 24) && decide (bitsOf w 23 0 + k ≤ 16 ^ d)

/-- UNSEAL (R166, R287). -/
def squadUnseal (i : Issue) (q : Sid) (ts : List Tid) (s : State) : SquadOut :=
  withDone i q ts s fun t done s =>
    let w := opWord s i.x t
    let v := w.toNat
    let dst := (s.thread t).xp i.x.a.toNat
    let n := 256 * bitsOf v 56 32
    if !unsealOk v then .trapAll s ts Cause.tsrInvalid 0
    else
      match cmdAddr (s.team q.team) dst n 256 with
      | some c => .trapAll s ts c dst
      | none =>
        match s.translatePages i.core (s.teamLaunch q.team).space .write 256 (pageStarts dst.toNat n) [] with
        | .error (c, a) => .fail s ts c (.ofNat 64 a)
        | .ok (pages, s) =>
          let c := { commandOf i q ts s done with
            pieces := unsealPieces dst.toNat (bitsOf v 62 60) (bitsOf v 23 0) (bitsOf v 56 32)
            pages, addr := dst.toNat, word := w, root := (s.thread t).xs i.x.c.toNat 4 }
          { s := s.issueCommand i c startCopy }

/-! ## NMCMD (R284) -/

/-- The row length in bytes. -/
def nmRow (i : Issue) : Nat := 64 * i.x.imm.toNat

/-- One lane of an NMCMD: a row and a second address. -/
def nmLane (i : Issue) (q : Sid) (o : LaneScan (Nat × Nat)) (t : Tid) : LaneScan (Nat × Nat) :=
  let n := nmRow i
  let tm := o.s.team q.team
  let row := (o.s.thread t).xp i.x.a.toNat
  let snd := (o.s.thread t).xp i.x.c.toNat
  let sub := i.x.sub.toNat
  let sndForm := if sub = 3 then isGlobal snd else isScratch snd && formOk tm.paired snd
  let bad :=
    if !isGlobal row then some (Cause.addressForm, row)
    else if !sndForm then some (Cause.addressForm, snd)
    else if row.toNat % 64 ≠ 0 then some (Cause.alignment, row)
    else (cmdAddr tm snd n 64).map fun c => (c, snd)
  let rows := pageStarts row.toNat n
  o.step i.core (o.s.teamLaunch q.team).space t bad (if sub = 3 then 64 else 4) (if sub = 2 then [] else rows)
    (if sub = 3 then pageStarts snd.toNat n else []) (if sub = 2 then rows else [])
    [(row.toNat, snd.toNat)]

/-- The 64-byte parts of a row: each lies in one granule. -/
def rowParts (n : Nat) : List Nat := (List.range (n / 64)).map (64 * ·)

/-- The command unit of the stack that homes a physical address: site × 4 + stack (R20). -/
def unitOf (pa : Nat) : Nat := siteOfPa pa * 4 + offsetOfPa pa / 256 % 48 / 12

/-- The physical address of a global address of a command. -/
def Command.phys (c : Command) (a : Nat) : Option Nat :=
  match c.loc a with
  | some (.glob pa) => some pa
  | _ => none

/-- R318: a row lies in a page that is not resident. -/
def Command.rowAbsent (c : Command) (r : Nat × Nat) : Bool :=
  (rowParts c.len).any fun o => (c.phys (r.1 + o)).isNone

/-- A row, or a byte of the place a ROWCOPY copies it to, lies in a page that is not resident: the
completion records the error (R93, R318). -/
def Command.rowFails (c : Command) (r : Nat × Nat) : Bool :=
  c.rowAbsent r || (c.sub == 3 && (rowParts c.len).any fun o => (c.phys (r.2 + o)).isNone)

/-- The rows of a command that act: no row of a bag of which one is absent, no absent row (R318). -/
def Command.rowsLeft (c : Command) : List (Nat × Nat) :=
  c.rows.filter fun r =>
    if c.sub = 0 then !(c.rows.any fun v => v.2 == r.2 && c.rowAbsent v) else !c.rowAbsent r

/-- The command units that home a part of a row, each once. -/
def Command.units (c : Command) : List Nat :=
  (c.rowsLeft.flatMap fun r => (rowParts c.len).filterMap fun o => (c.phys (r.1 + o)).map unitOf).dedup

/-- A part of a row: its physical address, its second address, and the second address of its row, which names the
row's bag. -/
structure RowPart where
  pa : Nat
  snd : Nat
  bag : Nat
deriving DecidableEq, Repr

/-- The parts of a command's rows that one unit handles, in lane order. -/
def Command.unitParts (c : Command) (unit : Nat) : List RowPart :=
  c.rowsLeft.flatMap fun r => (rowParts c.len).filterMap fun o =>
    match c.phys (r.1 + o) with
    | some pa => if unitOf pa = unit then some { pa, snd := r.2 + o, bag := r.2 } else none
    | none => none

/-- The bytes at a location as a command unit reads them: free where they cannot be corrected (R338).
DEDUCED (assumption 49). -/
def State.unitRead (s : State) (c : Command) (l : Loc) (n : Nat) : Nat × Nat × State :=
  if s.badLoc c.team l n then
    let (v, s) := s.drawFree
    (v % 2 ^ (8 * n), Cause.dataUncorrectable, s)
  else (s.readLoc c.team l n, 0, s)

/-- The bytes of a source as a command unit reads them on its path (R120). -/
def State.unitSource (s : State) (c : Command) (l : Loc) (n : Nat) : Nat × Nat × State :=
  if s.badLoc c.team l n then s.unitRead c l n
  else
    let r := s.seen .n c.agent c.team l n
    (r.1, 0, r.2)

/-- Flags of an add at a command unit: ATOMXF of its stack (R148, R285). -/
def State.addUnitFlags (s : State) (unit f : Nat) : State :=
  if f = 0 then s
  else
    s.modSite (unit / 4) fun st =>
      { st with atomxf := st.atomxf.set (unit % 4) (st.atomxf.getD (unit % 4) 0 ||| .ofNat 6 f) }

/-- The partial sum of a bag's element at a unit with one more addend (R285): the first is taken as it is. -/
def addPartial (unit dst bag v : Nat) : List (Nat × Nat × Nat × Nat) → List (Nat × Nat × Nat × Nat) × Nat
  | [] => ([(unit, dst, bag, v)], 0)
  | p :: ps =>
    if p.1 = unit ∧ p.2.1 = dst ∧ p.2.2.1 = bag then
      let r := Fmt.f32.add p.2.2.2 v
      ((unit, dst, bag, r.bits) :: ps, r.flags)
    else
      let q := addPartial unit dst bag v ps
      (p :: q.1, q.2)

/-- One word of a .gathersum's part. -/
def gatherWord (unit : Nat) (p : RowPart) (r : State × Command) (k : Nat) : State × Command :=
  let (s, c) := r
  let (v, e, s) := s.unitSource c (.glob (p.pa + 4 * k)) 4
  let (sums, f) := addPartial unit (p.snd + 4 * k) p.bag v c.sums
  (s.modCore c.core fun co => { co with spaFlags := co.spaFlags ||| .ofNat 6 f },
    { c with sums, cause := firstCause c.cause e })

/-- One element of a .scatteradd's part: the sum at its home stack, by arrival (R125, R285). -/
def scatterWord (id unit update : Nat) (p : RowPart) (r : State × Command) (k : Nat) : State × Command :=
  let (s, c) := r
  match c.loc (p.snd + 4 * k) with
  | none => (s, c)
  | some src =>
    let (x, e1, s) := s.unitSource c src 4
    let (old, e2, s) := s.unitRead c (.glob (p.pa + 4 * k)) 4
    let v := Fmt.f32.add old x
    let s := (s.touchL2 (p.pa + 4 * k) .normal true).commandStore id c (some update)
      (.glob (p.pa + 4 * k)) 4 v.bits
    (s.addUnitFlags unit v.flags, { c with cause := firstCause c.cause (firstCause e1 e2) })

/-- One 64-byte part copied; none in a destination page that is not resident (R93). -/
def copyPart (id : Nat) (p : RowPart) (r : State × Command) : State × Command :=
  let (s, c) := r
  match c.loc p.snd with
  | none => (s, c)
  | some dst =>
    let (v, e, s) := s.unitSource c (.glob p.pa) 64
    let e2 := if s.badStore dst 64 then Cause.dataUncorrectable else 0
    (s.commandStore id c none dst 64 v, { c with cause := firstCause c.cause (firstCause e e2) })

/-- A command unit's part of an NMCMD (R284, R285). What a .scatteradd adds in one line there is one update (R126).
DEDUCED (assumption 13). -/
def State.unitWork (s : State) (id : Nat) (c : Command) (unit : Nat) : State × Command :=
  (c.unitParts unit).foldl (fun r p =>
    if c.sub = 0 then (List.range 16).foldl (gatherWord unit p) r
    else if c.sub = 2 then (List.range 16).foldl (scatterWord id unit s.writes p) r
    else copyPart id p r) (s, c)

/-- The destinations of a .gathersum's words, each once. -/
def Command.sumPlaces (c : Command) : List Nat := (c.sums.map fun p => p.2.1).dedup

/-- The bags that have a word, each once. -/
def Command.bagsAt (c : Command) (d : Nat) : List Nat := ((c.sums.filter fun p => p.2.1 == d).map fun p => p.2.2.1).dedup

/-- A list turned by a number of places. -/
def turned {α : Type} (n : Nat) (l : List α) : List α := l.drop (n % l.length) ++ l.take (n % l.length)

/-- The partial sum with the lowest unit of a list. -/
def lowestUnit : List (Nat × Nat) → Option (Nat × Nat)
  | [] => none
  | p :: ps =>
    match lowestUnit ps with
    | none => some p
    | some q => if q.1 < p.1 then some q else some p

/-- The partial sums of a word added in ascending unit order (R285): the total and the flags. -/
def totalOf : (fuel : Nat) → List (Nat × Nat) → Option (Nat × Nat) → Nat × Nat
  | 0, _, acc => acc.getD (0, 0)
  | fuel + 1, ps, acc =>
    match lowestUnit ps with
    | none => acc.getD (0, 0)
    | some p =>
      let rest := ps.filter fun q => q.1 != p.1
      match acc with
      | none => totalOf fuel rest (some (p.2, 0))
      | some a =>
        let r := Fmt.f32.add a.1 p.2
        totalOf fuel rest (some (r.bits, a.2 ||| r.flags))

/-- The total of one bag's word written, its flags to SPAFLAGS (R285). -/
def State.bagTotal (s : State) (id : Nat) (c : Command) (d : Nat) (l : Loc) (bag : Nat) : State :=
  let ps := (c.sums.filter fun p => p.2.1 == d && p.2.2.1 == bag).map fun p => (p.1, p.2.2.2)
  let t := totalOf ps.length ps none
  (s.commandStore id c none l 4 t.1).modCore c.core fun co => { co with spaFlags := co.spaFlags ||| .ofNat 6 t.2 }

/-- The core's share of a .gathersum (R285): the totals of each word of each bag. A word of several bags holds one of
theirs, and which is a free value (R317).
DEDUCED (assumption 49). -/
def State.gatherTotals (s : State) (id : Nat) (c : Command) : State :=
  c.sumPlaces.foldl (fun s d =>
    match c.loc d with
    | none => s
    | some l =>
      let (f, s) := s.drawFree
      (turned f (c.bagsAt d)).foldl (fun s b => s.bagTotal id c d l b) s) s

end Sys2Proof.Machine
end

