-- ==== Sys2Proof/Machine/LineupTable.lean ====
section
/-! DEFINITION. The Lineup's replica tables as reticles hold them (R419-R421): slots by launch, the
banks' entries, and whether a replica is live in a version (R316). -/

namespace Sys2Proof.Machine

/-- A Lineup slot of the module, and a reticle's registers for it. -/
def State.lupSlot (s : State) (l : Nat) : LupSlot := AMap.getD s.lups l .reset
def Site.lupSite (st : Site) (l : Nat) : LupSite := AMap.getD st.lup l .reset

def State.modLupSlot (s : State) (l : Nat) (f : LupSlot → LupSlot) : State :=
  { s with lups := s.lups.set l (f (s.lupSlot l)) }
def State.modLupSite (s : State) (site l : Nat) (f : LupSite → LupSite) : State :=
  s.modSite site fun st => { st with lup := st.lup.set l (f (st.lupSite l)) }

/-- The enabled slot that names a launch (R419). -/
def State.lupOf (s : State) (lid : Nat) : Option Nat :=
  (List.range 4).find? fun l =>
    (s.lupSlot l).cfg.getLsbD 63 && (s.lupSlot l).cfg.toNat % 2 ^ 32 == lid

/-- VER and PREPVER (R420). -/
def LupSite.version (t : LupSite) : Nat := t.ver.toNat % 2 ^ 32
def LupSite.prepared (t : LupSite) : Nat := t.ver.toNat / 2 ^ 32
def LupSite.sel (t : LupSite) : Nat := bit01 (t.bank.getLsbD 0)

/-- The physical address of an entry of a bank (R420, R421). -/
def State.lupEntryPa (s : State) (site l bank e : Nat) : Nat :=
  site * 2 ^ 42 + bitsOf ((s.site site).lupSite l).bank.toNat 41 20 * 2 ^ 20 + bank * 2 ^ 19 + 128 * e

/-- A 64-bit word of an entry. -/
def State.lupWord (s : State) (site l bank e w : Nat) : Nat :=
  s.mem.readNat (s.lupEntryPa site l bank e + 8 * w) 8

/-- The replicas in service of an expert in a bank: none where the expert does not exist. -/
def State.lupLive (s : State) (site l bank e : Nat) : Nat :=
  let w := s.lupWord site l bank e 0
  if bitOf w 63 then w % 256 else 0

/-- Whether a bank has a replica of an expert in service on the reticle that holds the bank.
DEDUCED (assumption 81). -/
def State.lupServes (s : State) (site l bank e r : Nat) : Bool :=
  bitOf (s.lupLive site l bank e) r && s.lupWord site l bank e (8 + r) % 64 == site

/-- Replica-table versions: the next one (R424), and the steps from one to a later one (R316). -/
def nextLup (v : Nat) : Nat := if v + 1 = 2 ^ 32 then 1 else v + 1
def lupSteps (v w : Nat) : Nat := if v ≤ w then w - v else w + (2 ^ 32 - 1) - v
def lupLater (v w : Nat) : Bool := decide (1 ≤ lupSteps v w ∧ lupSteps v w ≤ 2 ^ 31 - 1)

/-- R316: whether a Lineup input window's replica takes a token looked up under version v. 0 is no version of the
sequence, so no commit is later than it. -/
def State.tokenOk (s : State) (site l e r v : Nat) : Bool :=
  let t := (s.site site).lupSite l
  (t.version != 0 && s.lupServes site l t.sel e r) ||
    (t.prepared != 0 && v == t.prepared && s.lupServes site l (1 - t.sel) e r) ||
    (match AMap.find? (e * 8 + r) t.grace with
      | some (start, w) =>
        v != 0 && lupLater v w &&
          decide (s.tick < start + max 1 (bitsOf (s.lupSlot l).pol.toNat 63 48) * 800)
      | none => false)

end Sys2Proof.Machine
end

