-- ==== Sys2Proof/Machine/Topology.lean ====
section
/-! DEFINITION. The wafer's grid and its mesh routes (R5-R8), the routers of a reticle (R24-R27), the
banks of route tables (R392) and the tables the module boots with (R7, R27, R395). -/

namespace Sys2Proof.Machine

/-! ## The grid (R5, R6) -/

/-- The rows of the grid: the first site, the first column present and the number present. -/
def gridRows : List (Nat × Nat × Nat) :=
  [(0, 3, 2), (2, 1, 6), (8, 1, 6), (14, 0, 8), (22, 0, 8), (30, 0, 8), (38, 0, 8), (46, 1, 6),
   (52, 1, 6), (58, 3, 2)]

/-- The number of sites. -/
def siteCount : Nat := 60

/-- The row of a site, counted from a list of rows. -/
def rowIn (site : Nat) : List (Nat × Nat × Nat) → Nat
  | [] => 0
  | r :: rs => if site < r.1 + r.2.2 then 0 else rowIn site rs + 1

/-- The row and column of a site. -/
def gridRow (site : Nat) : Nat := rowIn site gridRows
def gridCol (site : Nat) : Nat :=
  let r := gridRows.getD (gridRow site) (0, 0, 0)
  site - r.1 + r.2.1

/-- The site at a row and column, if it is present. -/
def siteAt (row col : Nat) : Option Nat :=
  match gridRows[row]? with
  | some (f, c, n) => if c ≤ col ∧ col < c + n then some (f + col - c) else none
  | none => none

/-- The neighbour over an edge: 0 N, 1 E, 2 S, 3 W. -/
def neighbour (site edge : Nat) : Option Nat :=
  let r := gridRow site
  let c := gridCol site
  match edge with
  | 0 => if r = 0 then none else siteAt (r - 1) c
  | 1 => siteAt r (c + 1)
  | 2 => siteAt (r + 1) c
  | _ => if c = 0 then none else siteAt r (c - 1)

/-- The hop count between two sites (R6). -/
def meshHops (a b : Nat) : Nat :=
  (max (gridRow a) (gridRow b) - min (gridRow a) (gridRow b)) +
    (max (gridCol a) (gridCol b) - min (gridCol a) (gridCol b))

/-- The edge a boot route leaves a site by (R7); none at the destination. -/
def bootEdge (x d : Nat) : Option Nat :=
  let along := if gridCol x < gridCol d then some 1 else if gridCol d < gridCol x then some 3 else none
  let down := if gridRow x < gridRow d then some 2 else if gridRow d < gridRow x then some 0 else none
  if (siteAt (gridRow x) (gridCol d)).isSome then (match along with | some e => some e | none => down)
  else down

/-- R395: whether some boot route to d enters x travelling N or S. -/
def entersByColumn (x d : Nat) : Bool :=
  [0, 2].any fun e =>
    match neighbour x e with
    | some y => y != d && bootEdge y d == some (2 - e)
    | none => false

/-- The boot mesh entry of a site for a destination (R392, R395). -/
def bootMeshEntry (x d : Nat) : Nat :=
  match bootEdge x d with
  | none => 0xC000
  | some e => 0x8000 + e + (if e % 2 = 1 ∧ entersByColumn x d then 4 else 0)

/-! ## The routers of a reticle (R24-R26) -/

/-- The router at a network port of a router (R25). -/
def routerAt (n p : Nat) : Nat :=
  let s := n / 9
  let a := n / 3 % 3
  let b := n % 3
  if p < 2 then n - b + (if b ≤ p then p + 1 else p)
  else if s = 0 then 9 + 3 * (p - 2) + (b + 9 - (p - 2) * a) % 3
  else 3 * (p - 2) + (a * (p - 2) + b) % 3

/-- The port of a router that leads to another, if they are joined. -/
def portTo (n m : Nat) : Option Nat := (List.range 5).find? fun p => routerAt n p == m

/-- The boot port of a router for a destination router (R27); 7 for its own. -/
def bootPort (n m : Nat) : Nat :=
  if n = m then 7
  else
    match portTo n m with
    | some p => p
    | none => ((List.range 5).find? fun p => (portTo (routerAt n p) m).isSome).getD 7

/-- The router of a block (R24), of a mesh edge, of an L2 slice (R26), and of a DRAM channel (R20). -/
def blockRouter (b : Nat) : Nat := b / 6 * 9 + b % 6 / 2 * 3 + b % 2 + 1
def edgeRouter (e : Nat) : Nat := 3 * e
def sliceRouter (i : Nat) : Nat := 3 * i
def channelRouter (c : Nat) : Nat := 3 * (c % 12 / 2)

/-- The channels of a memory router (R20, R26). -/
def routerChannels (i : Nat) : List Nat := (List.range 48).filter fun c => channelRouter c == 3 * i

/-- The routers of the endpoint's ports A and B (R23, R26). -/
def endpointA : Nat := 12
def endpointB : Nat := 15

/-- The port by which traffic enters from the external plane and leaves to it: A, or B where A's router is
dead. The manual leaves open which of the two a packet takes.
DESIGN CHOICE (assumption 109). -/
def endpointRouter (dead : Nat) : Nat := if bitOf dead endpointA then endpointB else endpointA

/-! ## Banks (R392) -/

/-- The boot bank of a site.
DESIGN CHOICE (assumption 8). -/
def bootBank (site : Nat) : Memory :=
  let local_ := (List.range 324).map fun i => BitVec.ofNat 8 (0x80 + bootPort (i / 18) (i % 18))
  let mesh := (List.range siteCount).flatMap fun d => bytesOfNat 2 (bootMeshEntry site d)
  let sel := 256 * 2 ^ 48 + 512 * 2 ^ 32 + 40 * 2 ^ 16 + 4
  (((Memory.write [] 0 local_).write 0x180 mesh).writeNat 0x200 8 sel).writeNat 0x208 8 site

/-- Fields of a bank. -/
def meshEntry (bank : Memory) (d : Nat) : Nat := bank.readNat (0x180 + 2 * d) 2
def localEntry (bank : Memory) (n m : Nat) : Nat := bank.readNat (18 * n + m) 1
def hopWeight (bank : Memory) : Nat := bank.readNat 0x200 2
def extWeight (bank : Memory) : Nat := bank.readNat 0x202 2
def thresholdHigh (bank : Memory) : Nat := bank.readNat 0x204 2
def thresholdLow (bank : Memory) : Nat := bank.readNat 0x206 2
def extSite (bank : Memory) : Nat := bank.readNat 0x208 8 % 64

/-- The pair of a port in a router in passive bypass (R394). -/
def bypassPair (p : Nat) : Option Nat :=
  match p with
  | 0 => some 1
  | 1 => some 0
  | 2 => some 4
  | 4 => some 2
  | _ => none

/-- More routers than any route passes: each of the 18, entered by each port. -/
def routeFuel : Nat := 108

/-- Whether the on-reticle table takes a packet from one router to another (R392, R394): every entry met
is valid, a bypassed router is passed straight through, and the fuel bounds the routers passed. -/
def reticlePath (bank : Memory) (dead : Nat) (m : Nat) : (fuel n : Nat) → (came : Option Nat) → Bool
  | 0, _, _ => false
  | fuel + 1, n, came =>
    if bitOf dead n then
      match came.bind bypassPair with
      | some p => n != m && reticlePath bank dead m fuel (routerAt n p) (portTo (routerAt n p) n)
      | none => false
    else
      let e := localEntry bank n m
      if !bitOf e 7 || bitsOf e 6 3 != 0 then false
      else
        let p := e % 8
        if p = 7 then n == m
        else if 4 < p then false
        else reticlePath bank dead m fuel (routerAt n p) (portTo (routerAt n p) n)

end Sys2Proof.Machine
end

