-- ==== Sys2Proof/Machine/Fabric.lean ====
section
/-! DEFINITION. Packets on the mesh and the external plane (R282, R283, R389-R398): versions, sending,
hops, refusals, what a sender does with them, and the error log (R339). -/

namespace Sys2Proof.Machine

/-! ## Versions (R391, R396) -/

def Site.active (st : Site) : Nat := st.netver.toNat % 2 ^ 16
def Site.shadow (st : Site) : Nat := bitsOf st.netver.toNat 31 16
def Site.prep (st : Site) : Bool := st.netver.getLsbD 32

/-- a is older than b (R396).
DEDUCED (assumption 39). -/
def older (a b : Nat) : Bool :=
  let d := (b + 2 ^ 16 - a) % 2 ^ 16
  decide (1 ≤ d ∧ d ≤ 32767)

/-- The version after one: 0 is never in force (R396).
DEDUCED (assumption 39). -/
def nextVersion (v : Nat) : Nat := if (v + 1) % 2 ^ 16 = 0 then 1 else (v + 1) % 2 ^ 16

/-! ## The error log (R339) -/

/-- The 32 bytes of a report of a number of events. -/
def ErrorReport.bytes (e : ErrorReport) (time count : Nat) : List Byte :=
  bytesOfNat 8 time ++
    bytesOfNat 8 (e.cause * 2 ^ 56 + e.unit * 2 ^ 48 + bit01 e.unc * 2 ^ 32 + e.gen % 2 ^ 16 * 2 ^ 16 +
      e.logical) ++
    bytesOfNat 8 (count % 2 ^ 16 * 2 ^ 32 + e.phys) ++ bytesOfNat 8 (e.addr % 2 ^ 48)

/-- A report of one event written to a reticle's log.
DEDUCED (assumption 62). -/
def State.logError (s : State) (site : Nat) (e : ErrorReport) : State :=
  s.modSite site fun st => { st with errorLog := st.errorLog ++ [e.bytes s.waferNs 1] }

/-! ## The live map (R373) -/

/-- A change of the live map: DMAPGEN rises by 1 before it and by 1 after it. -/
def State.mapChanged (s : State) : State := { s with dmapgen := s.dmapgen + 2 }

/-- A change made in service, which Nib writes to the retirement journal as well.
DEDUCED (assumption 84). -/
def State.journalise (s : State) (c : Change) : State :=
  { s.mapChanged with flash := { s.flash with journal := s.flash.journal ++ [{ change := c, authentic := true }] } }

/-! ## The header (R389) -/

/-- The four words of a packet's Lincor header. -/
def headerWords (p : Packet) : List Nat :=
  [p.ptype.toNat * 2 ^ 56 + p.reason.toNat * 2 ^ 48 + p.ver.toNat * 2 ^ 32 + p.srcMod.toNat * 2 ^ 16 + p.dstMod.toNat,
    p.srcSite % 64 * 2 ^ 58 + p.dstSite % 64 * 2 ^ 52 + p.hops % 32 * 2 ^ 47 + p.vc % 4 * 2 ^ 45 +
      p.srcCore % 2 ^ 13 * 2 ^ 32 + p.tag.toNat,
    p.off % 2 ^ 40 * 2 ^ 24 + p.len % 2 ^ 13, p.seq.toNat]

/-- The header's 32 bytes. -/
def packetHeader (p : Packet) : List Byte := (headerWords p).flatMap (bytesOfNat 8)

/-- The most payload bytes of a packet. -/
def packetBytes : Nat := 4096

/-! ## Planes and times -/

/-- One mesh hop (R8), in eighths of a nanosecond.
DESIGN CHOICE (assumption 12). DESIGN CHOICE (assumption 86). -/
def hopTicks : Nat := 96

/-- Ten microseconds, one millisecond and half a millisecond (R397-R399, R408). -/
def tenMicros : Nat := 80000
def oneMilli : Nat := 8000000

/-- The site whose endpoint takes in a site's external traffic (R400). -/
def State.landing (s : State) (site : Nat) : Nat :=
  match (s.site site).servedBy with
  | some v => v
  | none => site

/-- R282: the plane of a command of a site for a target. The queues' occupancies Qm and Ql are values of
the moment that the manual does not fix.
DESIGN CHOICE (assumption 9). -/
def State.choosePlane (s : State) (src dstMod dstSite : Nat) : Plane × State :=
  if dstMod ≠ s.moduleId then (.external, s)
  else if dstSite = src then (.reticle, s)
  else
    let st := s.site src
    let bank := st.activeBank
    let (qm, s) := s.drawFree
    let (qf, s) := s.drawFree
    let e := extSite bank
    let ql := if e = src then qf else AMap.getD st.occupancy e 0 + hopWeight bank * meshHops src e
    let mesh := meshHops src dstSite * hopWeight bank + qm
    let ext := extWeight bank + ql + AMap.getD st.occupancy dstSite 0
    (if ext < mesh then .external else .mesh, s)

/-! ## Ports and links (R400, R403) -/

/-- OPTLINKk. -/
def Site.link (st : Site) (k : Nat) : Nat := (AMap.getD st.optlinks k 0).toNat

/-- LANES, CARRIER and UP. -/
def linkLanes (v : Nat) : Nat := bitsOf v 23 0
def linkCarrier (v : Nat) : Nat := bitsOf v 47 24
def linkUp (v : Nat) : Bool := bitOf v 63

/-- Whether a site's port is live (R400). -/
def Site.portLive (st : Site) : Bool := (List.range 4).any fun k => linkUp (st.link k)

/-! ## The mesh and its versions -/

/-- A packet that its reticle holds carries a version older than the reticle's own (R313). -/
def State.stalePacket (s : State) (p : Packet) : Bool :=
  p.plane != .reticle && p.ver != 0 && older p.ver.toNat (s.site p.at_).active

/-! ## Sending -/

/-- A packet put on its way from its source site (R398): stamped, on VC 0, no hop taken. -/
def State.launchPacket (s : State) (p : Packet) (after : Nat) : Nat × State :=
  let st := s.site p.srcSite
  let (id, s) := s.fresh
  let p :=
    { p with
      ver := .ofNat 16 st.active, hops := 0, vc := 0, at_ := p.srcSite, came := none, landed := false
      named := .ofNat 16 st.active }
  (id, { s with packets := s.packets.set id p }.due (.packetHop (.known id)) after)

/-- A packet with nothing in it. -/
def blankPacket : Packet :=
  { ptype := 0, reason := 0, ver := 0, srcMod := 0, dstMod := 0, srcSite := 0, dstSite := 0, hops := 0
    vc := 0, srcCore := 0, tag := 0, off := 0, len := 0, seq := 0, payload := [], cmd := 0, part := 0
    total := 1
    win := { valid := false, radd := false, rget := false, rput := false, modId := 0, site := 0
             base := 0, len := 0, arrived := 0, tag := 0, rsv := false }
    ety := 0, head := 0, cause := 0, plane := .mesh, at_ := 0, came := none, landed := false, named := 0 }

/-- An answer to a packet, sent back from a site on the packet's plane (R283).
DEDUCED (assumption 41). -/
def answerTo (p : Packet) (own site ptype : Nat) : Packet :=
  { blankPacket with
    ptype := .ofNat 8 ptype, srcMod := .ofNat 16 own, dstMod := p.srcMod, srcSite := site
    dstSite := p.srcSite, srcCore := p.srcCore, tag := p.tag, cmd := p.cmd, part := p.part
    total := p.total, off := p.off, win := p.win, plane := p.plane }

/-- An acknowledgement with a cause, 0 for none.
DEDUCED (assumption 37). -/
def State.acknowledge (s : State) (p : Packet) (site cause : Nat) : State :=
  (s.launchPacket { answerTo p s.moduleId site 0x10 with cause } 0).2

/-- A NAK with a reason, naming the site's version (R313), and the Lineup version there where one is stale (R316).
DEDUCED (assumption 37). -/
def State.nak (s : State) (p : Packet) (site reason lup : Nat) : State :=
  let q := if p.ptype = 0x04 then { p with srcMod := p.dstMod, srcSite := p.dstSite } else p
  let payload := if reason = 0x06 then bytesOfNat 4 lup else []
  let stays := p.plane == .external && !p.landed && q.srcMod.toNat == s.moduleId
  (s.launchPacket { answerTo q s.moduleId site 0x11 with
    reason := .ofNat 8 reason, payload, len := payload.length, plane := if stays then .mesh else p.plane } 0).2

/-- A packet off the module. -/
def State.dropPacket (s : State) (id : Nat) : State :=
  { s with packets := s.packets.erase id }

/-- A packet that is nowhere held or queued at a site any more. -/
def State.unhold (s : State) (site id : Nat) : State :=
  s.modSite site fun st =>
    { st with queued := st.queued.filter (· != id), held := st.held.filter (· != id) }

/-! ## What a sender does with answers (R283, R390, R408) -/

/-- The reducing types (R408). -/
def isReducing (p : Packet) : Bool := p.ptype == 0x02 || p.ptype == 0x06

/-- Half a millisecond: a reducing packet not acknowledged by then fails its command. -/
def ackTicks : Nat := 4000000

/-- A packet of a command sent, and kept until it is acknowledged. The number it is kept under is new
with each transmission. -/
def State.transmit (s : State) (c : Nat) (p : Packet) : Nat × State :=
  let (part, s) := s.fresh
  let p := { p with cmd := c, part }
  let s := { s with sent := s.sent.set part p }
  let s := (s.launchPacket p coreTicks).2
  (part, if isReducing p then s.due (.ackTimeout part) ackTicks else s)

/-- A command changed, if it is still there. -/
def State.modCommand (s : State) (c : Nat) (f : Command → Command) : State :=
  match AMap.find? c s.commands with
  | some v => s.setCommand c (f v)
  | none => s

/-- A part of a command is done (R115): the command completes with its last part. -/
def State.partDone (s : State) (c part cause : Nat) : State :=
  match AMap.find? c s.commands with
  | none => { s with sent := s.sent.erase part }
  | some v =>
    if !v.parts.contains part then { s with sent := s.sent.erase part }
    else
      let v := { v with parts := v.parts.filter (· != part), cause := firstCause v.cause cause }
      let s := { s.setCommand c v with sent := s.sent.erase part }
      if v.parts.isEmpty then s.due (.commandComplete c) 0 else s

/-- The registration entry that a TAG selects on a site, where its reticle checks puts (R346). -/
def State.regEntry (s : State) (site : Nat) (tag : Word) : Option Nat :=
  let st := s.site site
  let n := 2 ^ (st.wregcfg.toNat % 16 + 6)
  if st.wregcfg.getLsbD 31 then some (bitsOf st.wregbase.toNat 47 6 * 64 + tag.toNat % n * 64) else none

/-- Fields of a registration (R346). -/
def regWord (s : State) (pa i : Nat) : Nat := s.mem.readNat (pa + 8 * i) 8
def regLid (s : State) (pa : Nat) : Nat := bitsOf (regWord s pa 4) 63 32

/-- A valid registration of a TAG on a site. -/
def State.regFor (s : State) (site : Nat) (tag : Word) : Option Nat :=
  match s.regEntry site tag with
  | some pa =>
    if bitOf (regWord s pa 0) 63 && regWord s pa 0 % 2 ^ 32 == tag.toNat then some pa else none
  | none => none

/-- The registration of a TAG on this module: that of the lowest site that has one. -/
def State.regOnModule (s : State) (tag : Word) : Option Nat :=
  (List.range siteCount).findSome? fun n => s.regFor n tag

/-- The resident team of a number of a launch. -/
def State.teamNumbered (s : State) (lid number : Nat) : Option Nat :=
  (List.find? (fun p : Nat × Team => p.2.lid == lid && p.2.number == number) s.teams).map Prod.fst

/-! ## What a failed command leaves (R115) -/

/-- INFLIGHT of a registration changed (R346), as an update of the module's own. -/
def State.inflight (s : State) (pa : Nat) (up : Bool) : State :=
  let n := regWord s pa 4 % 2 ^ 32
  s.updateLoc .module 0 (.glob (pa + 32)) 4 (if up then n + 1 else n - 1)

/-- Whether a command of this module has been refused at its target. -/
def State.turnedAway (s : State) (c : Nat) : Bool :=
  match AMap.find? (s.moduleId, c) s.arrivals with
  | some a => a.refused.isSome
  | none => false

/-- The packets of a command of this module that are still on their way to its targets. -/
def State.onTheWay (s : State) (c : Nat) : Nat :=
  (s.packets.filter fun q => q.2.cmd == c && q.2.srcMod.toNat == s.moduleId && q.2.ptype.toNat ≤ 0x06 &&
    q.2.ptype != 0x04).length

/-- The end at its target of a command of this module that has failed: its registration counts it no longer, and
what is still on its way is turned away there. -/
def State.endArrival (s : State) (c : Nat) : State :=
  match AMap.find? (s.moduleId, c) s.arrivals with
  | none => s
  | some a =>
    let s := if a.refused.isSome then s else s.inflight a.entry false
    let left := s.onTheWay c
    { s with
      arrivals := if left = 0 then s.arrivals.erase (s.moduleId, c)
        else s.arrivals.set (s.moduleId, c) { a with refused := some (a.refused.getD 0x05), left } }

/-- The bytes of a PUT's packet on this module take free values, where its window has not refused it. -/
def State.leavePut (s : State) (p : Packet) : State :=
  if p.dstMod.toNat ≠ s.moduleId ∨ s.turnedAway p.cmd then s
  else
    match s.regFor p.dstSite p.tag with
    | none => s
    | some pa =>
      match s.translateWalk (s.launch (regLid s pa)).space (p.win.base.toNat + p.off) .write with
      | .error _ => s
      | .ok (a, s) =>
        let (v, s) := s.drawFree
        let agent := ((AMap.find? p.cmd s.commands).map (·.agent)).getD .module
        s.writeAs .p agent (.command s.moduleId p.cmd) none 0 (.glob a) p.len v

/-- A command unit's part of an NMCMD that was not done: its destinations take free values, and no total of
them is written. -/
def State.leaveUnit (s : State) (id : Nat) (c : Command) (unit : Nat) : State :=
  let ps := c.unitParts unit
  if c.sub = 2 then
    ps.foldl (fun s p =>
      let (v, s) := s.drawFree
      s.commandStore id c none (.glob p.pa) 64 v) s
  else
    let s := ps.foldl (fun s p => s.leaveBytes id c p.snd 64) s
    s.modCommand id fun v =>
      { v with sums := v.sums.filter fun q =>
          !ps.any fun p => p.bag == q.2.2.1 && decide (p.snd ≤ q.2.1 ∧ q.2.1 < p.snd + 64) }

/-- The stack of a row's address (R20). -/
def stackOf (off : Nat) : Nat := off / 256 % 48 / 12

/-- What the packet of a part was to write, and has not: the bytes of a GET at its issuer, of a PUT at its
target, of an NMCMD at a command unit.
DEDUCED (assumption 49). -/
def State.leavePart (s : State) (part : Nat) (c : Command) : State :=
  match AMap.find? part s.sent with
  | none => s
  | some p =>
    match p.ptype.toNat with
    | 0x03 => s.leaveBytes p.cmd c (c.addr + (p.off - c.word.toNat)) p.len
    | 0x01 | 0x02 => s.leavePut p
    | 0x06 => s.leaveUnit p.cmd c (p.dstSite * 4 + stackOf p.off)
    | _ => s

/-- Whether the part of a packet is still on its way, or is one that a reply is to bring. -/
def State.undone (s : State) (p : Packet) : Bool :=
  p.ptype == 0x03 ||
    s.packets.any fun q => q.2.cmd == p.cmd && q.2.part == p.part && q.2.ptype == p.ptype

/-- What a failed command has still to write (R115).
DEDUCED (assumption 49). -/
def State.leaveCommand (s : State) (id : Nat) (c : Command) : State :=
  let s := c.pieces.foldl (fun s p => s.leaveBytes id c p.dst p.n) s
  ((s.sent.filter fun q => q.2.cmd == id && s.undone q.2).map Prod.fst).foldl (fun s n => s.leavePart n c) s

/-- A command fails: none of its packets is waited for (R283, R408).
DESIGN CHOICE (assumption 38). -/
def State.failCommand (s : State) (c cause : Nat) : State :=
  match AMap.find? c s.commands with
  | none => s
  | some v =>
    let s := (s.leaveCommand c v).endArrival c
    let s := { s with sent := s.sent.filter fun p => p.2.cmd != c }
    (s.modCommand c fun v => { v with parts := [], pieces := [], cause := firstCause v.cause cause }).due
      (.commandComplete c) 0

/-- A refused packet sent again (R283), on the plane that the selector then chooses.
DEDUCED (assumption 40). -/
def State.retransmit (s : State) (c part : Nat) : State :=
  match AMap.find? part s.sent with
  | none => s
  | some p =>
    let (plane, s) := s.choosePlane p.srcSite p.dstMod.toNat p.dstSite
    let (n, s) := { s with sent := s.sent.erase part }.transmit c { p with plane }
    s.modCommand c fun v => { v with parts := n :: v.parts.filter (· != part), plane }

/-- A part refused for good (R127, R313, R347): nothing is written at its target, and a GET's bytes are not to be
had. -/
def State.leaveRefused (s : State) (c part : Nat) : State :=
  match AMap.find? c s.commands with
  | some v => if v.op = .get then s.leavePart part v else s
  | none => s

/-- A topology refusal at the sender (R283): the sixteenth fails the command. -/
def State.topologyRefusal (s : State) (c part : Nat) : State :=
  match AMap.find? c s.commands with
  | none => s
  | some v =>
    if !v.parts.contains part then s
    else if 16 ≤ v.refusals + 1 then (s.leaveRefused c part).failCommand c Cause.topologyStale
    else (s.setCommand c { v with refusals := v.refusals + 1 }).retransmit c part

/-- Whether a packet is an acknowledgement or a NAK. -/
def isAnswer (p : Packet) : Bool := p.ptype == 0x10 || p.ptype == 0x11

/-- A NAK at the sender, by its reason (R283, R390). A refused acknowledgement or NAK is sent again. -/
def State.nakAt (s : State) (c part reason : Nat) : State :=
  match (AMap.find? part s.sent).filter isAnswer with
  | some a => (({ s with sent := s.sent.erase part }).launchPacket a hopTicks).2
  | none =>
  match reason with
  | 0x05 | 0x06 => (s.leaveRefused c part).partDone c part Cause.windowRights
  | 0x07 => s.partDone c part Cause.ringInvalid
  | 0x09 => s.due (.replayFullRetry part) 16000
  | _ => s.topologyRefusal c part

/-! ## Refusing (R313, R390, R398) -/

/-- A packet refused at a site with a reason: a NAK goes to its sender. An acknowledgement or NAK of this module is
kept until that NAK has come, by a number of its own. A NAK that was held at its destination counts there as a
refusal of the original packet (R398).
DEDUCED (assumption 40). -/
def State.refuse (s : State) (id : Nat) (p : Packet) (site reason : Nat) : State :=
  let s := (s.dropPacket id).unhold site id
  if p.ptype = 0x11 ∧ p.at_ = p.dstSite ∧ p.dstMod.toNat = s.moduleId ∧ reason = 0x02 then s.nakAt p.cmd p.part 0x02
  else if isAnswer p ∧ p.srcMod.toNat = s.moduleId then
    let (k, s) := s.fresh
    { s with sent := s.sent.set k p }.nak { p with cmd := k, part := k } site reason 0
  else s.nak p site reason 0

/-! ## Hops -/

/-- The types of R390. -/
def knownPacket (p : Packet) : Bool :=
  ((1 ≤ p.ptype.toNat && p.ptype.toNat ≤ 6) || p.ptype == 0x10 || p.ptype == 0x20) && p.reason == 0 ||
    (p.ptype == 0x11 && 1 ≤ p.reason.toNat && p.reason.toNat ≤ 9)

/-- Whether a packet is still to leave by the external plane. -/
def outbound (p : Packet) : Bool := p.plane == .external && !p.landed

/-- The site a packet makes for: its destination, or the endpoint its source uses (R392). -/
def State.goalOf (s : State) (p : Packet) : Nat :=
  if outbound p then extSite (s.site p.srcSite).activeBank else p.dstSite

/-- A commit request sent to the commit reticle (R397).
DEDUCED (assumption 63). -/
def State.requestCommit (s : State) (site : Nat) (ver : Option Nat) : State :=
  let t := meshHops site s.netroot * hopTicks
  let r : CommitRequest := { site, ver, arrives := s.tick + t }
  { s with commits := s.commits ++ [r] }.due .commitRequestServe t

/-- A steering commit asked for, with the move that waits for it (R406 step 2).
DESIGN CHOICE (assumption 64). -/
def State.steer (s : State) (site w src dst : Nat) : State :=
  (s.modSite site fun st =>
    { st with moves := st.moves ++ [{ wave := w, src, dst, ver := none }] }).requestCommit site none

/-- A peer's answer about a move of a wavelength (R406 step 1): the move is made when every peer asked has agreed in
time.
DESIGN CHOICE (assumption 64). -/
def State.answered (s : State) (site w peer : Nat) (agree : Bool) : State :=
  match (s.site site).asks.find? fun a => a.wave == w && a.waits.contains peer with
  | none => s
  | some a =>
    let rest := (s.site site).asks.filter (· != a)
    let a' := { a with waits := a.waits.filter (· != peer) }
    if !agree || decide (a.until_ < s.tick) then s.modSite site fun st => { st with asks := rest }
    else if a'.waits.isEmpty then (s.modSite site fun st => { st with asks := rest }).steer site a.wave a.src a.dst
    else s.modSite site fun st => { st with asks := a' :: rest }

/-- A control packet to the reticle at the far end of a link (R406).
DESIGN CHOICE (assumption 64). -/
def State.tellPeer (s : State) (site peer : Nat) (c : Control) : State :=
  let payload := (Config.controlBytes c).take packetBytes
  (s.launchPacket { blankPacket with
    ptype := 0x20, srcMod := .ofNat 16 s.moduleId, dstMod := .ofNat 16 (peer / 64), srcSite := site
    dstSite := peer % 64, len := payload.length, payload, plane := .external } coreTicks).2

/-- What a control packet does at its destination (R393, R397, R406): the module's own commits, requests,
reports and steering requests are the steps that take the same effects.
DESIGN CHOICE (assumption 110). -/
def State.control (s : State) (site : Nat) (p : Packet) (c : Control) : State :=
  match c with
  | .commit ver swap =>
    if ver = 0 then s else (s.modSite site fun st => { st with broadcasts := st.broadcasts ++ [Broadcast.mk ver swap] }).due
      (.commitBroadcast site) 0
  | .request n ver => { s with commits := s.commits ++ [CommitRequest.mk n ver s.tick] }.due .commitRequestServe 0
  | .occupancy n occ => s.modSite site fun st => { st with occupancy := st.occupancy.set n occ }
  | .steering n w src dst => s.due (.steeringRequest n w src dst) 0
  | .answer n w agree => s.answered n w (p.srcMod.toNat * 64 + p.srcSite) agree

/-- What becomes of a packet that has reached its destination: the step of its type. -/
def State.arrive (s : State) (id : Nat) (p : Packet) : State :=
  match p.ptype.toNat with
  | 0x01 | 0x02 => s.due (.putArrive id) 0
  | 0x03 => s.due (.getRequestArrive id) 0
  | 0x04 => s.due (.getReplyArrive id) 0
  | 0x05 => s.due (.ringAppend id) 0
  | 0x06 => s.due (.nmcmdPacketArrive id p.dstSite (stackOf p.off)) 0
  | 0x10 => s.due (.putAck id) 0
  | 0x11 => s.due (.nakReceive id) 0
  | _ =>
    let s := s.dropPacket id
    match Config.controlOf p.payload with
    | some c => s.control p.dstSite p c
    | none => s

/-- The router at which a packet enters a reticle: that of the edge it came by, of the endpoint, or of the block
of the core its header names. An answer to a request from the mesh enters where that core's number has its
block.
DESIGN CHOICE (assumption 109). -/
def entryRouter (dead : Nat) (p : Packet) : Nat :=
  match p.came with
  | some e => edgeRouter e
  | none => if p.landed then endpointRouter dead else blockRouter (blockOf p.srcCore)

/-- The physical address on its target's reticle that a put or a GET acts on.
DESIGN CHOICE (assumption 109). -/
def State.targetPa (s : State) (p : Packet) : Option Nat :=
  match s.regFor p.dstSite p.tag with
  | none => none
  | some e =>
    match s.translateWalk (s.launch (regLid s e)).space (p.win.base.toNat + p.off) .read with
    | .ok (pa, _) => if siteOfPa pa = p.dstSite then some pa else none
    | .error _ => none

/-- The block of the team a message is for. -/
def State.targetBlock (s : State) (p : Packet) : Option Nat :=
  match s.regOnModule p.tag with
  | none => none
  | some e =>
    (s.teamNumbered (regLid s e) (p.off % 2 ^ 24)).map fun k =>
      blockOf ((s.team k).core + (s.team k).ringHalf (p.off / 2 ^ 24 % 8))

/-- The router that a packet makes for on its destination's reticle (R26): the home slice of a put's or GET's
bytes, the channel of a row, the block of a message's team, the block of the core an answer is for. None where
the target will refuse the packet anyway.
DESIGN CHOICE (assumption 109). -/
def State.targetRouter (s : State) (p : Packet) : Option Nat :=
  match p.ptype.toNat with
  | 0x01 | 0x02 | 0x03 => (s.targetPa p).map fun pa => sliceRouter (s.sliceOf pa)
  | 0x05 => (s.targetBlock p).map blockRouter
  | 0x06 => some (channelRouter (p.off / 256 % 48))
  | 0x20 => none
  | _ => some (blockRouter (blockOf p.srcCore))

/-- Whether the on-reticle table of the reticle where a packet stands takes it to a router. -/
def State.reaches (s : State) (p : Packet) (m : Nat) : Bool :=
  let st := s.site p.at_
  reticlePath st.activeBank st.rdead m routeFuel (entryRouter st.rdead p) none

/-- Whether a packet at its destination comes through the reticle's network to its target, or to the endpoint
it leaves by (R27, R392). -/
def State.delivers (s : State) (p : Packet) : Bool :=
  if outbound p then s.reaches p (endpointRouter (s.site p.at_).rdead)
  else (s.targetRouter p).all (s.reaches p)

/-- A packet over one mesh edge.
DEDUCED (assumption 40). -/
def State.cross (s : State) (id : Nat) (p : Packet) (edge y vc : Nat) : State :=
  let p := { p with at_ := y, came := some ((edge + 2) % 4), hops := p.hops + 1, vc }
  { s with packets := s.packets.set id p }.due (.packetHop (.known id)) hopTicks

/-- A packet at a reticle whose version it carries, on its way by the mesh (R392, R395, R399).
DEDUCED (assumption 40). -/
def State.meshStep (s : State) (id : Nat) (p : Packet) (goal : Nat) : State :=
  let x := p.at_
  let st := s.site x
  let e := meshEntry st.activeBank goal
  let edge := e % 4
  if 24 ≤ p.hops || !bitOf e 15 || bitOf e 14 || bitsOf e 13 3 != 0 ||
      !s.reaches p (edgeRouter edge) then
    s.refuse id p x 0x03
  else
    match neighbour x edge with
    | none => s.refuse id p x 0x03
    | some y =>
      if bitOf e 2 && p.vc == 3 then s.refuse id p x 0x04
      else if st.deadRefuse.contains edge || (s.site y).off then s.refuse id p x 0x08
      else if bitOf st.edead edge then
        s.modSite x fun st => { st with queued := st.queued ++ [id] }
      else if (AMap.find? edge st.retry).isSome then
        s.modSite x fun st => { st with retry := st.retry.set edge (AMap.getD st.retry edge [] ++ [id]) }
      else s.cross id p edge y (if bitOf e 2 then p.vc + 1 else p.vc)

/-- The delivery mode of a type (R402). -/
def deliveryMode (ptype : Nat) : DeliveryMode :=
  match ptype with
  | 0x03 | 0x04 => .rudi
  | 0x10 | 0x11 | 0x20 => .rod
  | _ => .rud

/-- A packet given to the external network (R402): the types that carry no SEQ take OFF for their entropy.
DESIGN CHOICE (assumption 117). -/
def onWire (p : Packet) : Wire :=
  { packet := p, mode := deliveryMode p.ptype.toNat
    entropy := Config.entropyOf p.srcCore (if isReducing p then p.seq.toNat else p.off) }

/-- The bytes of a packet counted in the demand of a link of a port (R405): which of the links that are up carries it
is a value that the manual does not give.
DESIGN CHOICE (assumption 64). -/
def State.countDemand (s : State) (site : Nat) (p : Packet) : State :=
  let up := (List.range 4).filter fun k => linkUp ((s.site site).link k)
  let (f, s) := s.drawFree
  let k := up.getD (f % max 1 up.length) 0
  s.modSite site fun st => { st with demand := st.demand.set k (AMap.getD st.demand k 0 + 32 + p.len) }

/-- A packet out of the reticle's endpoint: to another module, with the version last learned of it (R398), or back in
at its destination (R400), where it enters the mesh on VC 0 with no hop taken (R395). A port that is lost carries
nothing: the transport tries again (R400).
DEDUCED (assumption 65). -/
def State.leaveByEndpoint (s : State) (id : Nat) (p : Packet) : State :=
  let x := p.at_
  if !(s.site x).portLive then s.due (.packetHop (.known id)) tenMicros
  else if p.dstMod.toNat ≠ s.moduleId then
    let p := { p with ver := .ofNat 16 (AMap.getD (s.site x).learned p.dstMod.toNat 0) }
    { (s.countDemand x p).dropPacket id with outbox := s.outbox ++ [onWire p] }
  else
    let y := s.landing p.dstSite
    if !(s.site y).portLive then s.due (.packetHop (.known id)) tenMicros
    else
      let p := { p with at_ := y, landed := true, came := none, hops := 0, vc := 0 }
      { s.countDemand x p with packets := s.packets.set id p }.due (.packetHop (.known id)) hopTicks

/-- The most packets a reticle holds for a newer version (R398). -/
def holdLimit : Nat := 64

/-- A packet at a reticle (R313, R398): refused if its version is older; stamped with the reticle's own where it
has come in by the endpoint; held if it is newer, else taken in or sent on. -/
def State.hop (s : State) (id : Nat) (p : Packet) : State :=
  let x := p.at_
  let st := s.site x
  let v := p.ver.toNat
  let e := meshEntry st.activeBank (s.goalOf p)
  if p.plane = .reticle then (if s.delivers p then s.arrive id p else s.refuse id p x 0x03)
  else if s.stalePacket p then s.refuse id p x 0x01
  else if p.landed && p.came.isNone && v != st.active then
    { s with packets := s.packets.set id { p with ver := .ofNat 16 st.active } }.due (.packetHop (.known id)) 0
  else if v != 0 && older st.active v then
    (if holdLimit ≤ st.held.length then s.refuse id p x 0x02
    else
      (s.modSite x fun st => { st with held := st.held ++ [id] }).due (.versionHoldTimeout id) tenMicros)
  else if x = s.goalOf p then
    (if !bitOf e 15 || bitsOf e 13 3 != 0 || !s.delivers p then s.refuse id p x 0x03
    else if outbound p then s.leaveByEndpoint id p
    else s.arrive id p)
  else s.meshStep id p (s.goalOf p)

/-- The version that an endpoint learns of another module, which the module's answers name (R398).
DEDUCED (assumption 41). -/
def State.learn (s : State) (x : Nat) (p : Packet) : State :=
  if p.srcMod.toNat = s.moduleId ∨ !isAnswer p then s
  else s.modSite x fun st => { st with learned := st.learned.set p.srcMod.toNat p.named.toNat }

/-- PACKET_HOP (R313, R390, R392, R395, R398): a packet at a reticle, or one that comes in from another
module, which its endpoint checks and stamps with its own version. A packet of a code R390 does not list, or of
more bytes than a packet carries (R389), is dropped and logged; nothing comes in by a lost port (R400).
DESIGN CHOICE (assumption 1). DESIGN CHOICE (assumption 109). -/
def execPacketHop (p : PacketRef) (s : State) : Out :=
  match p with
  | .known id =>
    (match AMap.find? id s.packets with
      | some p => .next (s.hop id p)
      | none => .next s)
  | .fromOutside p =>
    let x := s.landing p.dstSite
    if p.dstMod.toNat ≠ s.moduleId ∨ siteCount ≤ p.dstSite ∨ !(s.site x).portLive then .next s
    else
      if !knownPacket p || decide (packetBytes < p.len) || decide (packetBytes < p.payload.length) then
        .next (s.logError x ⟨0, 5, false, 0, noCore, endpointRouter (s.site x).rdead, 0⟩)
      else
        let (id, s) := (s.learn x p).fresh
        let a := (s.site x).active
        let q := { p with at_ := x, came := none, landed := true, plane := .external, hops := 0, vc := 0 }
        if p.ver ≠ 0 ∧ older p.ver.toNat a then .next (s.refuse id q x 0x01)
        else
          let q := { q with ver := .ofNat 16 a }
          .next ({ s with packets := s.packets.set id q }.due (.packetHop (.known id)) 0)

/-- VERSION_HOLD_TIMEOUT (R398): a packet held for 10 µs without the broadcast of its version. -/
def execVersionHoldTimeout (p : Nat) (s : State) : Out :=
  match AMap.find? p s.packets with
  | some q => .next (if (s.site q.at_).held.contains p then s.refuse p q q.at_ 0x02 else s)
  | none => .next s

/-- REPLAY_FULL_RETRY (R390): 2 µs after a full replay filter, the packet is sent again. -/
def execReplayFullRetry (p : Nat) (s : State) : Out :=
  match AMap.find? p s.sent with
  | some q => .next (s.retransmit q.cmd p)
  | none => .next s

/-- ACK_TIMEOUT (R408): a reducing packet not acknowledged within 500 µs fails its command. The manual
names no cause: it is one of the codes a completion may record (R319), which one being a free value.
DESIGN CHOICE (assumption 38). -/
def execAckTimeout (p : Nat) (s : State) : Out :=
  match AMap.find? p s.sent with
  | some q =>
    let (v, s) := s.drawFree
    .next (s.failCommand q.cmd (Cause.pick Cause.completions v))
  | none => .next s

/-- PUT_ACK (R128): an acknowledgement returns, with the error state of its part.
DEDUCED (assumption 37). -/
def execPutAck (p : Nat) (s : State) : Out :=
  match AMap.find? p s.packets with
  | some q =>
    .next (if s.stalePacket q then s.refuse p q q.dstSite 0x01
      else (s.dropPacket p).partDone q.cmd q.part q.cause)
  | none => .next s

/-- NAK_RECEIVE (R283, R390): a refusal returns, with its record where its command still waits.
DEDUCED (assumption 37). -/
def execNakReceive (p : Nat) (s : State) : Out :=
  match AMap.find? p s.packets with
  | some q =>
    if s.stalePacket q then .next (s.refuse p q q.dstSite 0x01)
    else
      let s := s.dropPacket p
      let s := match AMap.find? q.cmd s.commands with
        | none => s
        | some c => s.report q.dstSite 0x2201 3 c.core (s.tenantOf c.lid) (q.srcSite * 2 ^ 18 + q.reason.toNat)
      .next (s.nakAt q.cmd q.part q.reason.toNat)
  | none => .next s

end Sys2Proof.Machine
end

