-- ==== Sys2Proof/Machine/Optics.lean ====
section
/-! DEFINITION. Fibre links, their bundles of wavelengths and steering conditions (R403-R407), and the time
tree over the mesh (R386, R387). -/

namespace Sys2Proof.Machine

/-! ## Bundles (R403) -/

/-- The lanes of a bundle. -/
def laneCount (v : Nat) : Nat := ((List.range 24).filter (bitOf (linkLanes v))).length

/-- The fewest and the most lanes of a link that is up.
DESIGN CHOICE (assumption 66). -/
def bundleMin : Nat := 2
def bundleMax : Nat := 18

/-- A link with UP as its bundle has it. -/
def settleLink (v : Nat) : Nat := setBits v 63 63 (bit01 (decide (bundleMin ≤ laneCount v)))

def Site.setLink (st : Site) (k v : Nat) : Site :=
  { st with optlinks := st.optlinks.set k (.ofNat 64 (settleLink v)) }

/-- The link that a wavelength is in. -/
def Site.linkOf (st : Site) (w : Nat) : Option Nat :=
  (List.range 4).find? fun k => bitOf (linkLanes (st.link k)) w

/-- The link on which a wavelength's carrier is received, or else the one whose bundle it is in. -/
def Site.carrierOf (st : Site) (w : Nat) : Option Nat :=
  ((List.range 4).find? fun k => bitOf (linkCarrier (st.link k)) w).or (st.linkOf w)

/-- A wavelength into or out of a link's bundle. -/
def Site.putLane (st : Site) (k w : Nat) (inside : Bool) : Site :=
  st.setLink k (setBits (st.link k) w w (bit01 inside))

/-- A wavelength's carrier on a link present or gone. -/
def Site.putCarrier (st : Site) (k w : Nat) (there : Bool) : Site :=
  st.setLink k (setBits (st.link k) (24 + w) (24 + w) (bit01 there))

/-- A wavelength marked in OUT. -/
def Site.skewed (st : Site) (w : Nat) : Bool := st.optskew.getLsbD w

def Site.markSkew (st : Site) (w : Nat) (out : Bool) : Site :=
  { st with optskew := .ofNat 64 (setBits st.optskew.toNat w w (bit01 out)) }

/-- The bundles of a port that has come up (R403): each live wavelength joins one link that is not dead and
has room, which one is a value that the manual does not give.
DESIGN CHOICE (assumption 66). -/
def Site.lightLanes (st : Site) (choice : Nat) : Site :=
  (List.range 24).foldl (fun st w =>
    if bitOf st.wdead w then st
    else
      let ks := (List.range 4).filter fun k => !bitOf st.fdead k && decide (laneCount (st.link k) < bundleMax)
      match ks[choice / 4 ^ w % max 1 ks.length]? with
      | some k => (st.putLane k w true).putCarrier k w true
      | none => st) { st with optlinks := [] }

/-- A measurement of a lane's skew to come, its result the world's.
DESIGN CHOICE (assumption 67). -/
def State.measureLater (s : State) (site w after : Nat) : State :=
  let (f, s) := s.drawFree
  { s with
    agenda := s.agenda.filter fun d =>
      match d.ev with
      | .laneSkewMeasure n v _ => !(n == site && v == w)
      | _ => true }.due (.laneSkewMeasure site w (f % 2 == 1)) after

/-- The skew of every lane of a port that has come up is to be measured (R407).
DESIGN CHOICE (assumption 67). -/
def State.measureAll (s : State) (site : Nat) : State :=
  ((List.range 24).filter fun w => ((s.site site).linkOf w).isSome).foldl
    (fun s w => s.measureLater site w coreTicks) s

/-! ## Steering (R405, R406) -/

/-- STEERCFG's fields: EN, THR in bytes, and the interval in eighths of a nanosecond. -/
def Site.steers (st : Site) : Bool := st.steercfg.getLsbD 63
def Site.steerThr (st : Site) : Nat := bitsOf st.steercfg.toNat 31 16 * 4096
def Site.steerTicks (st : Site) : Nat := max 1000 (bitsOf st.steercfg.toNat 15 0) * 8000

/-- The up link with the greatest, or the least, demand: the lowest of equals.
DESIGN CHOICE (assumption 64). -/
def pickLink (better : Nat → Nat → Bool) (demand : List Nat) : List Nat → Option Nat
  | [] => none
  | k :: ks =>
    match pickLink better demand ks with
    | none => some k
    | some j => if better (demand.getD j 0) (demand.getD k 0) then some j else some k

/-- The lanes of a link less those that a move is to take from it, and with those that one is to bring it. -/
def Site.lanesLeft (st : Site) (k : Nat) : Nat :=
  laneCount (st.link k) - (st.moves.filter fun m => m.src == k).length
def Site.lanesDue (st : Site) (k : Nat) : Nat :=
  laneCount (st.link k) + (st.moves.filter fun m => m.dst == k).length

/-- The bytes queued for a link in the interval (R405). -/
def Site.demandOf (st : Site) (k : Nat) : Nat := AMap.getD st.demand k 0

/-- The move that an interval calls for: the wavelength, L and H (R406).
DESIGN CHOICE (assumption 64). -/
def Site.steerMove (st : Site) : Option (Nat × Nat × Nat) :=
  let up := (List.range 4).filter fun k => linkUp (st.link k)
  let demand := (List.range 4).map st.demandOf
  match pickLink (fun a b => decide (b < a)) demand up, pickLink (fun a b => decide (a < b)) demand up with
  | some h, some l =>
    if st.steerThr < st.demandOf h - st.demandOf l ∧ bundleMin < st.lanesLeft l ∧ st.lanesDue h < bundleMax then
      (((List.range 24).reverse.find? fun w => bitOf (linkLanes (st.link l)) w && !st.skewed w)).map
        fun w => (w, l, h)
    else none
  | _, _ => none

/-- Whether a wavelength may join a link: it lives, is in no bundle, and the link is up with room for it (R403, R404). -/
def Site.joins (st : Site) (w dst : Nat) : Bool :=
  !bitOf st.wdead w && (st.linkOf w).isNone && linkUp (st.link dst) && decide (laneCount (st.link dst) < bundleMax)

/-- Whether a peer agrees to a move (R406): no move of the wavelength is under way; it is in the link it leaves,
which keeps two lanes, or where that is one of another reticle (link 4) it lives and is in no bundle here; and the
link it joins has room, the moves under way counted.
DESIGN CHOICE (assumption 64). -/
def Site.agrees (st : Site) (w src dst : Nat) : Bool :=
  !st.skewed w && (st.moves.all fun m => m.wave != w) &&
    (if src == 4 then !bitOf st.wdead w && (st.linkOf w).isNone
      else linkUp (st.link src) && bitOf (linkLanes (st.link src)) w && decide (bundleMin < st.lanesLeft src)) &&
    (dst == 4 || (linkUp (st.link dst) && decide (st.lanesDue dst < bundleMax)))

/-- Every link of a port down: no lane, no carrier (R400). -/
def Site.dropLinks (st : Site) : Site := { st with optlinks := [] }

/-! ## The time tree (R386, R387) -/

/-- The site that wafer time enters by. -/
def timeRoot : Nat := 26

/-- A reticle's parent: the next hop of the R7 route toward site 26, unless Nib has given it another. -/
def State.parentOf (s : State) (n : Nat) : Option Nat :=
  match (s.site n).timeParent with
  | some p => some p
  | none => (bootEdge n timeRoot).bind (neighbour n)

/-- Whether the link over an edge of a site survives. -/
def State.linkAlive (s : State) (n e : Nat) : Bool :=
  match neighbour n e with
  | none => false
  | some m => !bitOf (s.site n).edead e && !bitOf (s.site m).edead ((e + 2) % 4)

/-- The neighbours of a site over surviving links. -/
def State.aliveNeighbours (s : State) (n : Nat) : List Nat :=
  (List.range 4).filterMap fun e => if s.linkAlive n e then neighbour n e else none

/-- One round of distances from site 26. -/
def State.spread (s : State) (d : List Nat) : List Nat :=
  (List.range siteCount).map fun n =>
    if n = timeRoot then 0
    else (s.aliveNeighbours n).foldl (fun b m => min b (d.getD m siteCount + 1)) siteCount

/-- The distances of all sites from site 26 over surviving links; `siteCount` where there is no way.
DEDUCED (assumption 68). -/
def State.distances (s : State) : (rounds : Nat) → List Nat
  | 0 => (List.range siteCount).map fun n => if n = timeRoot then 0 else siteCount
  | k + 1 => s.spread (s.distances k)

/-- Whether a site's time comes by way of another. -/
def State.below (s : State) (top : Nat) : (fuel n : Nat) → Bool
  | 0, _ => false
  | fuel + 1, n =>
    n == top || (match s.parentOf n with
      | some p => s.below top fuel p
      | none => false)

/-- The neighbour nearest to site 26, the first of equals.
DEDUCED (assumption 68). -/
def nearestOf (d : List Nat) : List Nat → Option Nat
  | [] => none
  | m :: ms =>
    match nearestOf d ms with
    | none => some m
    | some k => if d.getD k siteCount < d.getD m siteCount then some k else some m

/-- The twenty microseconds within which Nib gives new parents.
DEDUCED (assumption 68). -/
def reparentTicks : Nat := 160000

/-- New parents for the reticles below a failed link (R387).
DEDUCED (assumption 68). -/
def State.reparent (s : State) (n m : Nat) : State :=
  let top := if s.parentOf n = some m then some n else if s.parentOf m = some n then some m else none
  match top with
  | none => s
  | some t =>
    let d := s.distances siteCount
    ((List.range siteCount).filter fun k => k != timeRoot && s.below t siteCount k).foldl
      (fun s k =>
        match nearestOf d (s.aliveNeighbours k) with
        | some p => s.due (.timeTreeReparent k p) reparentTicks
        | none => s) s

end Sys2Proof.Machine
end

