-- ==== Sys2Proof/Machine/Network.lean ====
section
/-! DEFINITION. The topology version (R391, R396-R398), dead links (R399), lost ports (R400), occupancy
reports (R393) and bandwidth steering (R403-R407). -/

namespace Sys2Proof.Machine

/-! ## NETVER and NETCOMMIT (R391, R397) -/

/-- REFUSED set. -/
def Site.refused (st : Site) : Site := { st with netver := .ofNat 64 (setBits st.netver.toNat 33 33 1) }

/-- NETVER after a write (R391, R397 step 1): REFUSED is cleared by a 1; a PREP write whose SHADOW is not
the version after ACTIVE is ignored and sets REFUSED. -/
def Site.writeNetver (st : Site) (v : Nat) : Site :=
  let old := st.netver.toNat
  let kept := if bitOf v 33 then setBits old 33 33 0 else old
  if bitsOf v 63 34 ≠ 0 then st
  else if bitOf v 32 ∧ bitsOf v 31 16 ≠ nextVersion st.active then { st with netver := .ofNat 64 kept }.refused
  else { st with netver := .ofNat 64 (setBits (setBits kept 32 32 (bit01 (bitOf v 32))) 31 16 (bitsOf v 31 16)) }

/-- NETVER_WRITE. -/
def execNetverWrite (site : Nat) (v : DWord) (s : State) : Out :=
  .next (s.modSite site fun st => st.writeNetver v.toNat)

/-- NETCOMMIT_WRITE (R397 step 2). -/
def execNetcommitWrite (site : Nat) (v : Word) (s : State) : Out :=
  .next (if bitsOf v.toNat 30 16 = 0 ∧ v.getLsbD 31 then s.requestCommit site (some (v.toNat % 2 ^ 16)) else s)

/-! ## Broadcasts (R397 steps 3 and 4, R398, R399) -/

/-- ACTIVE replaced. -/
def Site.setActive (st : Site) (v : Nat) : Site :=
  { st with netver := .ofNat 64 (setBits st.netver.toNat 15 0 v) }

/-- PREP cleared. -/
def Site.unprep (st : Site) : Site := { st with netver := .ofNat 64 (setBits st.netver.toNat 32 32 0) }

/-- R397 step 4 for the tables of one reticle. -/
def Site.takeVersion (st : Site) (b : Broadcast) : Site :=
  let n := st.setActive b.ver
  if !st.prep then n
  else if b.swap ∧ st.shadow = b.ver then
    { n.unprep with activeBank := st.shadowBank, shadowBank := st.activeBank }
  else n.unprep.refused

/-- Whether a packet carries a version that its reticle has still not taken. -/
def State.newerThan (s : State) (site id : Nat) : Bool :=
  match AMap.find? id s.packets with
  | some p => older (s.site site).active p.ver.toNat
  | none => false

/-- The packets held at a reticle for a version that has come are looked at again (R398). -/
def State.rehop (s : State) (site : Nat) : State :=
  let ids := (s.site site).held.filter fun id => !s.newerThan site id
  let s := s.modSite site fun st => { st with held := st.held.filter fun id => !ids.contains id }
  let s := { s with agenda := s.agenda.filter fun d =>
    match d.ev with
    | .versionHoldTimeout p => !ids.contains p
    | _ => true }
  ids.foldl (fun s id => s.due (.packetHop (.known id)) 0) s

/-- A packet queued at a dead port refused, with a reason.
DEDUCED (assumption 40). -/
def State.refuseQueued (s : State) (site reason id : Nat) : State :=
  match AMap.find? id s.packets with
  | none => s
  | some p => s.refuse id p site reason

/-- Every packet queued at a reticle's dead ports refused, since it takes a newer version (R313, R399). -/
def State.refuseStale (s : State) (site : Nat) : State :=
  ((s.site site).queued).foldl (fun s id => s.refuseQueued site 0x01 id) s

/-- A commit broadcast at a reticle: ignored if its version is not newer. -/
def State.takeBroadcast (s : State) (site : Nat) (b : Broadcast) : State :=
  let st := s.site site
  if b.ver = 0 ∨ !older st.active b.ver then s
  else
    let s := s.modSite site fun st => { st.takeVersion b with deadWait := [], deadRefuse := [] }
    let s := (s.refuseStale site).rehop site
    if st.moves.any fun m => m.ver == some b.ver then s.due (.laneMove site) 0 else s

/-- A commit broadcast from the commit reticle to every live reticle, itself at once. -/
def State.broadcast (s : State) (b : Broadcast) : State :=
  let root := s.netroot
  let others := (List.range siteCount).filter fun n => n != root && !(s.site n).off
  let s := others.foldl (fun s n =>
    (s.modSite n fun st => { st with broadcasts := st.broadcasts ++ [b] }).due (.commitBroadcast n)
      (meshHops root n * hopTicks)) s
  s.takeBroadcast root b

/-- COMMIT_BROADCAST (R397 step 4): a reticle takes the next broadcast that has reached it.
DEDUCED (assumption 63). -/
def execCommitBroadcast (site : Nat) (s : State) : Out :=
  match (s.site site).broadcasts with
  | [] => .next s
  | b :: bs => .next ((s.modSite site fun st => { st with broadcasts := bs }).takeBroadcast site b)

/-- The earliest of the commit requests that have arrived.
DEDUCED (assumption 63). -/
def earliestRequest (now : Nat) : List CommitRequest → Option CommitRequest
  | [] => none
  | r :: rs =>
    match earliestRequest now rs with
    | none => if r.arrives ≤ now then some r else none
    | some q => if r.arrives ≤ now ∧ r.arrives ≤ q.arrives then some r else some q

/-- The list without the first element equal to one. -/
def dropOne {α : Type} [DecidableEq α] (a : α) : List α → List α
  | [] => []
  | b :: bs => if b = a then bs else b :: dropOne a bs

/-- The first of a site's moves that waits for its version gets one (R406). -/
def assignMove (v : Nat) : List LaneMove → List LaneMove
  | [] => []
  | m :: ms => if m.ver.isNone then { m with ver := some v } :: ms else m :: assignMove v ms

/-- COMMIT_REQUEST_SERVE (R397 step 3, R406): the commit reticle serves the next request.
DEDUCED (assumption 63). -/
def execCommitRequestServe (s : State) : Out :=
  match earliestRequest s.tick s.commits with
  | none => .next s
  | some r =>
    let s := { s with commits := dropOne r s.commits }
    let v := nextVersion (s.site s.netroot).active
    match r.ver with
    | some w =>
      if w = v then .next (s.broadcast { ver := v, swap := true })
      else .next (s.modSite r.site Site.refused)
    | none =>
      .next ((s.modSite r.site fun st => { st with moves := assignMove v st.moves }).broadcast
        { ver := v, swap := false })

/-! ## Dead links (R399) -/

/-- The packets on their way over an edge of a site, in the order sent. -/
def State.onEdge (s : State) (site edge : Nat) : List Nat :=
  match neighbour site edge with
  | none => []
  | some y =>
    s.agenda.filterMap fun d =>
      match d.ev with
      | .packetHop (.known id) =>
        (match AMap.find? id s.packets with
          | some p => if p.at_ = y ∧ p.came = some ((edge + 2) % 4) then some id else none
          | none => none)
      | _ => none

/-- A packet back at the port it was sent from, as if never sent. -/
def State.unsend (s : State) (site edge id : Nat) : State :=
  match AMap.find? id s.packets with
  | none => s
  | some p =>
    let e := meshEntry (s.site site).activeBank (s.goalOf p)
    let vc := if e % 4 = edge ∧ bitOf e 2 then p.vc - 1 else p.vc
    { s with packets := s.packets.set id { p with at_ := site, hops := p.hops - 1, vc, came := none } }

/-- Link-level retry begins to fail at an edge port (R399): what is on the link, and what is sent onto it from now
on, is held by it.
DEDUCED (assumption 40). -/
def State.beginRetry (s : State) (site edge : Nat) : State :=
  let ids := s.onEdge site edge
  let s := { s with agenda := s.agenda.filter fun d =>
    match d.ev with
    | .packetHop (.known id) => !ids.contains id
    | _ => true }
  let s := ids.foldl (fun s id => s.unsend site edge id) s
  (s.modSite site fun st => { st with retry := st.retry.set edge ids }).due (.linkDead site edge) oneMicro

/-- An edge port declares its link dead (R399): what retry held is back in its queue, ahead of the others; what has
become stale meanwhile is refused (R313).
DEDUCED (assumption 40). DEDUCED (assumption 62). -/
def State.declareDead (s : State) (site edge y : Nat) (ids : List Nat) : State :=
  let (c, s) := s.drawFree
  let s := s.logError site ⟨Cause.pick Cause.reports c, 6, true, 0, noCore, edge, 0⟩
  let s := (s.modSite site fun st =>
    { st with
      queued := ids ++ st.queued
      retry := st.retry.erase edge
      edead := setBits st.edead edge edge 1
      deadWait := st.deadWait ++ [edge] }).journalise (.edge site edge)
  let stale := fun id => match AMap.find? id s.packets with
    | some p => s.stalePacket p
    | none => false
  let s := (ids.filter stale).foldl (fun s id => s.refuseQueued site 0x01 id) s
  (s.reparent site y).due (.linkDeadTimeout site edge) oneMilli

/-- LINK_DEAD (R399, R387): link-level retry at an edge port begins to fail, and 1 µs later the port declares its link
dead.
DEDUCED (assumption 40). -/
def execLinkDead (site edge : Nat) (s : State) : Out :=
  match neighbour site edge with
  | none => .next s
  | some y =>
    if bitOf (s.site site).edead edge then .next s
    else
      match AMap.find? edge (s.site site).retry with
      | none => .next (s.beginRetry site edge)
      | some ids => .next (s.declareDead site edge y ids)

/-- Whether a packet's route at a site leaves by an edge. -/
def State.leavesBy (s : State) (site edge id : Nat) : Bool :=
  match AMap.find? id s.packets with
  | none => false
  | some p => meshEntry (s.site site).activeBank (s.goalOf p) % 4 == edge

/-- LINK_DEAD_TIMEOUT (R399): 1 ms after the declaration no newer version has come.
DEDUCED (assumption 40). -/
def execLinkDeadTimeout (site edge : Nat) (s : State) : Out :=
  if !(s.site site).deadWait.contains edge then .next s
  else
    let ids := (s.site site).queued.filter (s.leavesBy site edge)
    let s := s.modSite site fun st =>
      { st with deadWait := st.deadWait.filter (· != edge), deadRefuse := st.deadRefuse ++ [edge] }
    .next (ids.foldl (fun s id => s.refuseQueued site 0x08 id) s)

/-! ## Occupancy reports (R393) -/

/-- The 1,024 mesh clocks between reports. -/
def reportTicks : Nat := 4096

/-- The next report of an endpoint, its occupancy the world's. -/
def State.occupancyLater (s : State) (site : Nat) : State :=
  let (a, s) := s.drawFree
  s.due (.occupancyReport site (a % 65536)) reportTicks

/-- OCCUPANCY_REPORT: the endpoint of a reticle that is on broadcasts its occupancy, and every reticle keeps
it.
DESIGN CHOICE (assumption 9). -/
def execOccupancyReport (site occ : Nat) (s : State) : Out :=
  .next (if (s.site site).off then s else ((List.range siteCount).foldl (fun s n =>
    s.modSite n fun st => { st with occupancy := st.occupancy.set site occ }) s).occupancyLater site)

/-! ## Steering and lanes (R404-R407) -/

/-- A reticle's next interval of steering, its demand counted anew (R405). -/
def State.nextInterval (s : State) (site : Nat) : State :=
  (s.modSite site fun st => { st with demand := [] }).due (.steerInterval site [] false) (s.site site).steerTicks

/-- The peers of two links of a reticle. -/
def peersOf (site l h : Nat) : List Nat :=
  let a := Config.peerOf site l
  let b := Config.peerOf site h
  if a = b then [a] else [a, b]

/-- The peers of L and H asked about a move (R406 step 1), which they have 10 µs to answer.
DESIGN CHOICE (assumption 64). -/
def State.askPeers (s : State) (site w l h : Nat) : State :=
  let ps := peersOf site l h
  let s := s.modSite site fun st =>
    { st with asks := [{ wave := w, src := l, dst := h, waits := ps, until_ := s.tick + tenMicros }] }
  ps.foldl (fun s p => s.tellPeer site p
    (.steering (p % 64) w (if p = Config.peerOf site l then l else 4) (if p = Config.peerOf site h then h else 4))) s

/-- STEER_INTERVAL (R405, R406): the end of an interval. The demand of each link is what it has counted, and the peers
answer by packets of their own, so that nothing is told to the step but its site.
DESIGN CHOICE (assumption 64). -/
def execSteerInterval (site : Nat) (_demand : List Nat) (_agree : Bool) (s : State) : Out :=
  let st := s.site site
  if !st.steers then .next s
  else
    let s := s.nextInterval site
    match st.steerMove with
    | some (w, l, h) => .next (if !st.prep && st.agrees w l h then s.askPeers site w l h else s)
    | none => .next s

/-- STEERING_REQUEST (R406 steps 1 and 2): a peer asks this reticle to release a wavelength from one link, or to
take it into another, and is answered; a reticle that agrees asks for a commit of its own.
DESIGN CHOICE (assumption 64). -/
def execSteeringRequest (site w src dst : Nat) (s : State) : Out :=
  let ok := decide (w < 24 ∧ src ≤ 4 ∧ dst ≤ 4) && (s.site site).agrees w src dst
  let peer := Config.peerOf site (if src < 4 then src else dst)
  let s := s.tellPeer site peer (.answer (peer % 64) w ok)
  .next (if ok then s.steer site w src dst else s)

/-- One lane moved (R406 step 3): it leaves its link, and joins the other where it still may. -/
def State.moveLane (s : State) (site : Nat) (m : LaneMove) : State :=
  let s := s.modSite site fun st =>
    if m.src < 4 then (st.putLane m.src m.wave false).putCarrier m.src m.wave false else st
  if m.dst < 4 && (s.site site).joins m.wave m.dst then
    (s.modSite site fun st => (st.putLane m.dst m.wave true).putCarrier m.dst m.wave true).measureLater site m.wave
      coreTicks
  else s

/-- LANE_MOVE (R406 step 3): the moves whose commits have taken effect.
DESIGN CHOICE (assumption 64). -/
def execLaneMove (site : Nat) (s : State) : Out :=
  let a := (s.site site).active
  let ready := fun (m : LaneMove) => match m.ver with
    | some v => !older a v
    | none => false
  let ms := (s.site site).moves.filter ready
  let s := s.modSite site fun st => { st with moves := st.moves.filter fun m => !ready m }
  .next (ms.foldl (fun s m => s.moveLane site m) s)

/-- One second. -/
def oneSecond : Nat := 8000000000

/-- A neighbour of a site with a live port, to serve it (R400): which of them is Barrel's choice.
DEDUCED (assumption 65). -/
def State.serveLost (s : State) (site : Nat) : State :=
  let ns := (List.range 4).filterMap fun e => neighbour site e
  let live := ns.filter fun n => (s.site n).portLive && !(s.site n).off
  let (f, s) := s.drawFree
  match live[f % max 1 live.length]? with
  | some n => s.due (.portLoss site n) coreTicks
  | none => s

/-- A port whose last link has just gone down is served by a neighbour (R400), and so is each site that it served. -/
def State.serveIfLost (s : State) (site : Nat) (was : Bool) : State :=
  if was && !(s.site site).portLive then
    (site :: (List.range siteCount).filter fun n => (s.site n).servedBy == some site).foldl State.serveLost s
  else s

/-- LANE_SKEW_MEASURE (R407): a lane beyond the deskew buffer leaves its bundle and is marked; a mark clears when a
measurement passes; and a lane of a bundle, and a marked one, is measured every second.
DEDUCED (assumption 62). DESIGN CHOICE (assumption 67). -/
def execLaneSkewMeasure (site w : Nat) (inBound : Bool) (s : State) : Out :=
  let st := s.site site
  if inBound then
    let s := s.modSite site fun st => st.markSkew w false
    .next (if (st.linkOf w).isSome || st.skewed w then s.measureLater site w oneSecond else s)
  else
    match st.linkOf w with
    | some k =>
      let (c, s) := s.drawFree
      let s := s.logError site ⟨Cause.pick Cause.reports c, 9, false, 0, noCore, w, 0⟩
      .next (((s.modSite site fun st => (st.putLane k w false).markSkew w true).measureLater site w oneSecond).serveIfLost
        site st.portLive)
    | none => .next (if st.skewed w then s.measureLater site w oneSecond else s)

/-- CARRIER_LOSS (R404): a wavelength without its carrier leaves its bundle, if it is in one, as a dead wavelength.
DEDUCED (assumption 65). -/
def execCarrierLoss (site w : Nat) (s : State) : Out :=
  match (s.site site).carrierOf w with
  | none => .next s
  | some k =>
    let was := (s.site site).portLive
    let s := (s.modSite site fun st =>
      { (st.putLane k w false).putCarrier k w false with wdead := setBits st.wdead w w 1 }).journalise (.wavelength site w)
    .next (s.serveIfLost site was)

/-- PORT_LOSS (R400): all links of a port are down, or its endpoint has failed. Barrel sets EXTSITE of the
reticle to a neighbour with a live port and commits the change; that endpoint answers for the lost one.
DEDUCED (assumption 65). -/
def execPortLoss (site serving : Nat) (s : State) : Out :=
  let ok := (List.range 4).any fun e => neighbour site e == some serving
  let s := s.modSite site Site.dropLinks
  if !ok || !(s.site serving).portLive || (s.site serving).off then .next s
  else if (s.site site).prep then .next (s.due (.portLoss site serving) tenMicros)
  else
    let v := nextVersion (s.site site).active
    let s := s.modSite site fun st =>
      { st with servedBy := some serving, shadowBank := st.activeBank.writeNat 0x208 8 serving }
    let s := s.modSite site fun st => st.writeNetver (2 ^ 32 + v * 2 ^ 16)
    .next (s.requestCommit site (some v))

end Sys2Proof.Machine
end

