-- ==== Sys2Proof/Machine/Repair.lean ====
section
/-! DEFINITION. The L2's modes and slices (R98, R383), DRAM channel redirection (R384), bias flips (R351-R353),
host accesses (R349, R354), and soft errors (R337, R338). -/

namespace Sys2Proof.Machine

/-! ## The end of a hold (R98, R352, R355) -/

/-- A thread whose access has been held: its wait count goes on from where it stood. -/
def Thread.unhold (th : Thread) (clock : Nat) : Thread :=
  match th.heldSince with
  | some h => { th with since := th.since + (clock - h), heldSince := none }
  | none => th

/-- What a flip or a flush has held goes on: wait counts, completion signals, and the ready queues. -/
def State.resumeAccesses (s : State) : State :=
  { s with threads := s.threads.map fun (p : Tid × Thread) => (p.1, p.2.unhold s.clock) }.releaseSignals.retryTasks

/-! ## L2CFG and L2LIVE (R98, R383) -/

/-- The bytes of DRAM of a reticle. -/
def dramBytes : Nat := 96 * 2 ^ 30

/-- R98: the conditions on an L2CFG value. -/
def l2cfgOk (v : Nat) : Bool :=
  let b1 := bitsOf v 16 8
  let b2 := bitsOf v 25 17
  bitsOf v 63 32 == 0 && bitsOf v 30 26 == 0 && bitsOf v 7 2 == 0 &&
    (match v % 4 with
      | 0 => true
      | 1 => decide (0 < b1 ∧ b1 < 384)
      | 2 => decide (0 < b1 ∧ b1 < b2 ∧ b2 ≤ 384)
      | _ => false)

/-- Whether every partition of a mode has a live slice (R383). -/
def Site.partitionsLive (st : Site) : Bool := st.partitions.all fun l => !l.isEmpty

/-- The time an L2 flush takes.
DESIGN CHOICE (assumption 79). -/
def flushTicks : Nat := 80000

/-- L2CFG_WRITE (R98): an applied write that changes a field sets BUSY and flushes the L2; a flush that runs goes
on.
DESIGN CHOICE (assumption 79). -/
def execL2cfgWrite (site : Nat) (v : DWord) (s : State) : Out :=
  let st := s.site site
  let n := setBits v.toNat 31 31 0
  let new := { st with l2cfg := .ofNat 64 n }
  if !l2cfgOk v.toNat || !new.partitionsLive then .next s
  else if n = setBits st.l2cfg.toNat 31 31 0 then .next s
  else
    .next ((s.setSite site { st with l2cfg := .ofNat 64 (setBits n 31 31 1) }).due (.l2FlushDone site) flushTicks)

/-- L2LIVE_WRITE (R383): applied only where it clears bits, sets none, and leaves every partition a slice; a flush
that runs goes on.
DESIGN CHOICE (assumption 79). -/
def execL2liveWrite (site : Nat) (v : DWord) (s : State) : Out :=
  let st := s.site site
  let old := st.l2live.toNat % 64
  let live := v.toNat % 64
  let new := { st with l2live := .ofNat 32 live }
  if bitsOf v.toNat 63 32 ≠ 0 ∨ bitsOf v.toNat 30 6 ≠ 0 then .next s
  else if live = old ∨ bitsOf (live ||| old) 5 0 ≠ old ∨ !new.partitionsLive then .next s
  else
    let s := s.setSite site { st with l2live := .ofNat 32 (2 ^ 31 + live) }
    .next ((s.journalise (.slices site (.ofNat 32 live))).due (.l2FlushDone site) flushTicks)

/-- Dirty lines that could not be read are lost, and reported (R383). -/
def State.loseDirty (s : State) (site : Nat) (line : Nat) : State :=
  if !(s.badDram.any fun g => g / 4 == line) then s
  else
    { s.logError site ⟨Cause.dataUncorrectable, 3, true, 0, noCore, s.sliceOf (line * 128), line * 128⟩ with
      badDram := s.badDram.filter fun g => g / 4 != line }

/-- L2_FLUSH_DONE (R98, R383): every dirty line is written back, every line invalidated, BUSY clears. Where a
later write has begun another flush, the L2 waits for that.
DESIGN CHOICE (assumption 79). -/
def execL2FlushDone (site : Nat) (s : State) : Out :=
  if s.agenda.any fun d => d.ev == .l2FlushDone site then .next s
  else
    let lines := ((s.site site).l2.flatMap fun p => p.2).filter (·.dirty)
    let s := lines.foldl (fun s l => s.loseDirty site l.line) s
    .next (s.modSite site fun st =>
      { st with
        l2 := []
        l2Time := max st.l2Time (latestLease (st.l2.flatMap fun p => p.2))
        l2cfg := .ofNat 64 (setBits st.l2cfg.toNat 31 31 0)
        l2live := .ofNat 32 (setBits st.l2live.toNat 31 31 0) }).resumeAccesses

/-! ## CHREMAP (R384) -/

/-- The bytes a region spans. -/
def regionBytes : Nat := 33466 * 65536

/-- CHREMAP_WRITE (R384): ignored while EN is 1; a write that sets EN begins the copying.
DEDUCED (assumption 78). -/
def execChremapWrite (site : Nat) (v : DWord) (s : State) : Out :=
  let st := s.site site
  let n := setBits v.toNat 62 62 0
  if st.chremap.getLsbD 63 ∨ bitsOf n 61 54 ≠ 0 ∨ bitsOf n 47 19 ≠ 0 ∨ 48 ≤ chanOf n then .next s
  else if !bitOf n 63 then .next (s.setSite site { st with chremap := .ofNat 64 n })
  else if dramBytes < regionOf n + regionBytes then .next s
  else
    let s := s.setSite site { st with chremap := .ofNat 64 (setBits n 62 62 1) }
    .next ((s.journalise (.channel site (.ofNat 64 n))).due (.chremapCopyDone site) (40 * oneMilli))

/-- An offset of a reticle lies in the redirected channel.
DEDUCED (assumption 78). -/
def redirected (v a : Nat) : Bool := a / 256 % 48 == chanOf v

/-- An offset lies in the region's granules that take redirected ones. -/
def inRegion (v a : Nat) : Bool :=
  decide (regionOf v ≤ a ∧ a < regionOf v + regionBytes) && !redirected v a

/-- The granules of the channel that cannot be read, by the addresses of their 256 bytes.
DEDUCED (assumption 78). -/
def State.badGranules (s : State) (site v : Nat) : List Nat :=
  if bitOf (s.site site).chdead (chanOf v) then
    (List.range 8388608).map fun j => site * 2 ^ 42 + j * 12288 + chanOf v * 256
  else ((s.badDram.filter fun g => siteOfPa (g * 32) == site && redirected v (offsetOfPa (g * 32))).map
    fun g => g * 32 / 256 * 256).dedup

/-- A granule that cannot be read is written as zeros, and reported. -/
def State.zeroGranule (s : State) (site v pa : Nat) : State :=
  (s.logError site ⟨Cause.dataUncorrectable, 4, true, 0, noCore, chanOf v, pa⟩).putLoc 0 (.glob pa) 256 0

/-- The region's bytes replaced by those of the redirected granules.
DEDUCED (assumption 78). -/
def copyRegion (m : Memory) (site v : Nat) : Memory :=
  let base := site * 2 ^ 42
  let mine := fun a => siteOfPa a == site
  let kept := m.filter fun c => !(mine c.1 && inRegion v (offsetOfPa c.1))
  m.foldl (fun k c =>
    let o := offsetOfPa c.1
    if mine c.1 && decide (o < dramBytes) && redirected v o then
      k.put (base + remapTarget v (o / 256 * 256) + o % 256) c.2
    else k) kept

/-- CHREMAP_COPY_DONE (R384): every granule of the channel has been copied to its target, from which it is
served. Memory is kept by the address software uses, so that a redirected granule is found where it was.
DEDUCED (assumption 78). -/
def execChremapCopyDone (site : Nat) (s : State) : Out :=
  let v := (s.site site).chremap.toNat
  if !bitOf v 62 then .next s
  else
    let s := (s.badGranules site v).foldl (fun s pa => s.zeroGranule site v pa) s
    let s := { s with mem := copyRegion s.mem site v }
    .next (s.modSite site fun st =>
      { st with chremap := .ofNat 64 (setBits v 62 62 0), chdead := setBits st.chdead (chanOf v) (chanOf v) 0 })

/-! ## Bias (R351-R353) -/

/-- The page that BIASCMD names. -/
def biasPage (v : Nat) : Nat := bitsOf v 41 16

/-- The physical address of the byte that holds a page's bias bit. -/
def State.biasByte (s : State) (site p : Nat) : Nat :=
  site * 2 ^ 42 + bitsOf (s.site site).biasbase.toNat 41 16 * 65536 + p / 8

/-- A page's bias: 1 for the host.
DEDUCED (assumption 80). -/
def State.hostBias (s : State) (site p : Nat) : Bool := bitOf (s.mem.readNat (s.biasByte site p) 1) (p % 8)

def State.setBias (s : State) (site p : Nat) (host : Bool) : State :=
  let a := s.biasByte site p
  { s with mem := s.mem.writeNat a 1 (setBits (s.mem.readNat a 1) (p % 8) (p % 8) (bit01 host)) }

/-- BIASCMD with BUSY clear and a status. -/
def biasDone (v status : Nat) : DWord := .ofNat 64 (setBits (setBits v 63 63 0) 61 58 status)

/-- The nominal time of a flip.
DESIGN CHOICE (assumption 79). -/
def flipTicks : Nat := 80000

/-- A write of BIASCMD (R351): ignored while BUSY; rejected where the page is in that bias already or not in
DRAM; else the flip begins, and accesses to the page are held. -/
def State.startFlip (s : State) (site : Nat) (v : Nat) (toHost : Bool) (later : State → State) : State :=
  let st := s.site site
  let n := setBits (setBits (setBits v 63 63 0) 61 58 0) 62 62 (bit01 toHost)
  if st.biascmd.getLsbD 63 ∨ bitsOf v 57 42 ≠ 0 ∨ bitsOf v 15 0 ≠ 0 then s
  else if dramBytes ≤ biasPage n * 65536 ∨ s.hostBias site (biasPage n) = toHost then
    s.setSite site { st with biascmd := biasDone n 1 }
  else later (s.setSite site { st with biascmd := .ofNat 64 (setBits n 63 63 1) })

/-- BIAS_TO_HOST (R351, R352). -/
def execBiasToHost (site : Nat) (v : DWord) (s : State) : Out :=
  .next (s.startFlip site v.toNat true fun s => s.due (.biasToHostDone site) flipTicks)

/-- BIAS_TO_DEVICE (R351, R353): whether the host serves every request is the world's. -/
def execBiasToDevice (site : Nat) (v : DWord) (s : State) : Out :=
  .next (s.startFlip site v.toNat false fun s =>
    let (f, s) := s.drawFree
    s.due (.biasToDeviceDone site (f % 2 == 0)) flipTicks)

/-- The lines of a page of a site. -/
def lineInPage (site p line : Nat) : Bool :=
  siteOfPa (line * 128) == site && offsetOfPa (line * 128) / 65536 == p

/-- Every L1 and the home L2 without a page's lines (R352 step 2). -/
def State.dropPage (s : State) (site p : Nat) : State :=
  let keep := fun (m : AMap Nat (List CacheLine)) =>
    m.map fun q => (q.1, q.2.filter fun l => !lineInPage site p l.line)
  let s := { s with cores := s.cores.map fun (c : Nat × Core) => (c.1, { c.2 with l1 := keep c.2.l1 }) }
  (s.settle 0 (.glob (site * 2 ^ 42 + p * 65536)) 65536).modSite site fun st =>
    st.mapL2 fun _ ls => ls.filter fun l => !lineInPage site p l.line

/-- BIAS_TO_HOST_DONE (R352 step 3).
DESIGN CHOICE (assumption 79). -/
def execBiasToHostDone (site : Nat) (s : State) : Out :=
  let v := (s.site site).biascmd.toNat
  if !bitOf v 63 then .next s
  else
    let s := (s.dropPage site (biasPage v)).setBias site (biasPage v) true
    .next (s.modSite site fun st => { st with biascmd := biasDone v 0 }).resumeAccesses

/-- BIAS_TO_DEVICE_DONE (R353 step 3): every reader sees what the host has written; where the host fails a request, the
page stays host-biased.
DESIGN CHOICE (assumption 79). -/
def execBiasToDeviceDone (site : Nat) (ok : Bool) (s : State) : Out :=
  let v := (s.site site).biascmd.toNat
  if !bitOf v 63 then .next s
  else
    let s := if ok then
        (s.settle 0 (.glob (site * 2 ^ 42 + biasPage v * 65536)) 65536).setBias site (biasPage v) false
      else s
    .next (s.modSite site fun st => { st with biascmd := biasDone v (if ok then 0 else 2) }).resumeAccesses

/-! ## The host's accesses (R349, R354) -/

/-- The physical address of an offset in the HDM range, and the bytes left on its site. -/
def hdmAddr (o : Nat) : Nat := o / dramBytes * 2 ^ 42 + o % dramBytes
def hdmRoom (o : Nat) : Nat := dramBytes - o % dramBytes

/-- The bytes of the HDM range. -/
def hdmBytes : Nat := siteCount * dramBytes

/-- Host bytes written, site by site.
DEDUCED (assumption 80). -/
def State.hostWrite : (fuel : Nat) → State → (o : Nat) → List Byte → State
  | 0, s, _, _ => s
  | fuel + 1, s, o, bs =>
    if bs.isEmpty then s
    else
      let k := hdmRoom o
      let now := bs.take k
      State.hostWrite fuel ((s.writeAs .host .host .nothing none 0 (.glob (hdmAddr o)) now.length (natOfBytes now)).touchL2
        (hdmAddr o) .normal true) (o + k) (bs.drop k)

/-- The bytes the host reads, site by site (R131). -/
def State.hostRead : (fuel : Nat) → State → (o n : Nat) → List Byte × State
  | 0, s, _, _ => ([], s)
  | fuel + 1, s, o, n =>
    if n = 0 then ([], s)
    else
      let k := min n (hdmRoom o)
      let r := s.seen .host .host 0 (.glob (hdmAddr o)) k
      let q := State.hostRead fuel r.2 (o + k) (n - k)
      (bytesOfNat k r.1 ++ q.1, q.2)

/-- Whether an access of the host waits for a flip of its page, or a flush (R354). -/
def State.hostHeld (s : State) (o n : Nat) : Bool :=
  (o :: ((List.range' (o / 65536 + 1) ((o + n - 1) / 65536 - o / 65536)).map (· * 65536))).any fun a =>
    s.accessHeld (hdmAddr a)

/-- A byte of BAR0 as the host reads it (R350): the module's identity and the link's status, the mirrors of LQHEADn,
and zero elsewhere. The manual gives the first word no layout.
DESIGN CHOICE (assumption 113). -/
def State.bar0Byte (s : State) (off : Nat) : Byte :=
  let k := (off - 0x1080) / 8
  let w := if off < 8 then (Config.bar0Status s.moduleId s.hostLink).toNat
    else if 0x1080 ≤ off ∧ k < 16 then s.devRead (.lqhead k)
    else 0
  .ofNat 8 (w / 2 ^ (8 * (off % 8)))

/-- HOST_MEM_ACCESS (R349, R350, R354): in device bias the home L2 serves it, in host bias the host's own copy,
which is memory's.
DEDUCED (assumption 80). DESIGN CHOICE (assumption 91). -/
def execHostMemAccess (off : Nat) (a : HostAccess) (s : State) : Out :=
  match a with
  | .read n =>
    if hdmBytes < off + n then .next s
    else if s.hostHeld off n then .next (s.due (.hostMemAccess off (.read n)) coreTicks)
    else
      let (bs, s) := State.hostRead (siteCount + 1) s off n
      .next { s with hostOut := s.hostOut ++ [bs] }
  | .bar0 n => .next { s with hostOut := s.hostOut ++ [(List.range n).map fun i => s.bar0Byte (off + i)] }
  | .write bs =>
    if hdmBytes < off + bs.length then .next s
    else if s.hostHeld off bs.length then .next (s.due (.hostMemAccess off (.write bs)) coreTicks)
    else .next (State.hostWrite (siteCount + 1) s off bs)

/-! ## Soft errors (R337, R338) -/

/-- The block generation of a core. -/
def State.genOf (s : State) (c : Nat) : Nat := ((s.site (siteOf c)).block (blockOf c)).gen

/-- The linear physical index of a core. -/
def State.physicalOf (s : State) (c : Nat) : Nat :=
  siteOf c * 108 + blockOf c * 9 + (((s.site (siteOf c)).block (blockOf c)).names.getD (c % 8) 0)

/-- The site of a struck place, and the error report of its error (R339): cause 0 where that was corrected. -/
def State.strikeReport (s : State) (t : SoftTarget) (unc : Bool) : Nat × ErrorReport :=
  let cause := if unc then Cause.dataUncorrectable else 0
  let onCore := fun (c unit : Nat) => (siteOf c, ErrorReport.mk cause unit unc (s.genOf c) c (s.physicalOf c) 0)
  match t with
  | .dram pa => (siteOfPa pa, ⟨cause, 4, unc, 0, noCore, offsetOfPa pa / 256 % 48, pa⟩)
  | .channel n c => (n, ⟨cause, 4, unc, 0, noCore, c, 0⟩)
  | .l1Line c _ => onCore c 2
  | .l2Line n pa => (n, ⟨cause, 3, unc, 0, noCore, s.sliceOf pa, pa⟩)
  | .scratch n h _ => onCore ((s.team n).core + h) 0
  | .accu n h _ => onCore ((s.team n).core + h) 0
  | .opBuf c _ => onCore c 1
  | .register t _ => onCore (s.coreOf t.sid) 0

/-- An uncorrectable error reported (R339). -/
def State.logStrike (s : State) (t : SoftTarget) (unc : Bool) : State :=
  let r := s.strikeReport t unc
  s.logError r.1 r.2

/-- Two reports are of one unit (R339). -/
def sameUnit (a b : ErrorReport) : Bool := a.unit == b.unit && a.phys == b.phys && a.logical == b.logical

/-- A corrected error counted (R337, R339): in the run of its unit, or the first of a new one, which is closed
after 1 ms.
DEDUCED (assumption 62). -/
def State.countCorrected (s : State) (e : SoftError) : State :=
  let (n, r) := s.strikeReport e.target false
  let runs := (s.site n).runs
  if runs.any fun q => sameUnit q.first r then
    s.modSite n fun st =>
      { st with runs := runs.map fun q => if sameUnit q.first r then { q with count := q.count + 1 } else q }
  else
    (s.modSite n fun st =>
      { st with runs := runs ++ [{ first := r, time := s.waferNs, opened := s.tick, count := 1 }] }).due
      (.softError { e with bits := 0 }) oneMilli

/-- The runs of corrected errors that began 1 ms ago or more closed: of each the one report is written (R339).
DEDUCED (assumption 62). -/
def State.closeRuns (s : State) : State :=
  let closed := fun (q : ErrorRun) => decide (q.opened + oneMilli ≤ s.tick)
  ((List.range siteCount).filter fun n => (s.site n).runs.any closed).foldl (fun s n =>
    s.modSite n fun st =>
      { st with
        runs := st.runs.filter fun q => !closed q
        errorLog := st.errorLog ++ (st.runs.filter closed).map fun q => q.first.bytes q.time q.count }) s

/-- Whether what an error strikes is there: a team's storage with its team, a register with its thread. -/
def State.strikes (s : State) : SoftTarget → Bool
  | .scratch n _ _ | .accu n _ _ => (AMap.find? n s.teams).isSome
  | .register t _ => (AMap.find? t s.threads).isSome
  | .dram _ | .channel _ _ | .l1Line _ _ | .l2Line _ _ | .opBuf _ _ => true

/-- Bytes of DRAM that cannot be read: what they hold is a free value.
DESIGN CHOICE (assumption 75). -/
def State.scramble (s : State) (pa n : Nat) : State :=
  let (f, s) := s.drawFree
  { s with
    mem := s.mem.writeNat pa n f
    badDram := s.badDram ++ ((List.range' (pa / 32) (n / 32)).filter fun g => !s.badDram.contains g) }

/-- Whether the L2 of a site holds a line dirty. -/
def State.l2Dirty (s : State) (site line : Nat) : Bool :=
  (s.site site).l2.any fun p => p.2.any fun l => l.line == line && l.dirty

/-- A line out of a site's L2. -/
def State.dropL2 (s : State) (site line : Nat) : State :=
  s.modSite site fun st => st.mapL2 fun _ ls => ls.filter fun l => l.line != line

/-- The address under which memory keeps a place of DRAM: of a target that holds a redirected granule, that granule's own
(R384).
DEDUCED (assumption 78). -/
def State.keptAt (s : State) (pa : Nat) : Nat :=
  let v := (s.site (siteOfPa pa)).chremap.toNat
  let o := offsetOfPa pa
  if bitOf v 63 && !bitOf v 62 && inRegion v o then
    let k := (o - regionOf v) / 256
    let j := 47 * (k / 48) + (if k % 48 < chanOf v then k % 48 else k % 48 - 1)
    if j < 8388608 then siteOfPa pa * 2 ^ 42 + j * 12288 + chanOf v * 256 + o % 256 else pa
  else pa

/-- An uncorrectable error in one protected unit (R337, R338).
DESIGN CHOICE (assumption 75). -/
def State.strike (s : State) (t : SoftTarget) : State :=
  match t with
  | .dram pa => if isDramPa pa then s.scramble (s.keptAt pa / 32 * 32) 32 else s
  | .l1Line c pa => s.dropL1 c (pa / 128)
  | .l2Line n pa =>
    if s.l2Dirty n (pa / 128) then s.scramble (pa / 128 * 128) 128 else s.dropL2 n (pa / 128)
  | .scratch n h o =>
    let (f, s) := s.drawFree
    s.modTeam n fun t =>
      { t.setScratch h ((t.scratch h).writeNat (o / 4 * 4) 4 f) with
        badScratch := (h, o / 4 * 4) :: t.badScratch }
  | .accu n h o =>
    let (f, s) := s.drawFree
    s.modTeam n fun t =>
      { t.setAcc h ((t.acc h).writeNat (o / 4 * 4) 4 f) with badAcc := (h, o / 4 * 4) :: t.badAcc }
  | .opBuf c o =>
    let (f, s) := s.drawFree
    s.modCore c fun co =>
      { co with opBuf := co.opBuf.writeNat (o / 4 * 4) 4 f, badOpBuf := (o / 4 * 4) :: co.badOpBuf }
  | .register t r =>
    let (f, s) := s.drawFree
    if (AMap.find? t s.threads).isNone then s
    else s.modThread t fun th => { th.setX r (.ofNat 32 f) with badRegs := r :: th.badRegs }
  | .channel n c =>
    let st := s.site n
    let second := st.chdead != 0 || (st.chremap.getLsbD 63 && chanOf st.chremap.toNat != c)
    let s := s.modSite n fun st => { st with chdead := setBits st.chdead c c 1 }
    if second then s.due (.reticleOut n) 0 else s

/-- The core whose slot an error lies in (R377), if it lies in one. -/
def State.struckCore (s : State) : SoftTarget → Option Nat
  | .l1Line c _ | .opBuf c _ => some c
  | .scratch n h _ | .accu n h _ => some ((s.team n).core + h)
  | .register t _ => some (s.coreOf t.sid)
  | .dram _ | .l2Line _ _ | .channel _ _ => none

/-- R377: of two uncorrectable errors of a slot within 1 s, the second retires it.
DEDUCED (assumption 74). -/
def State.countSlot (s : State) (c : Nat) : State :=
  let n := siteOf c
  let k := s.physicalOf c % 108
  let again := match AMap.find? k (s.site n).lastError with
    | some t => decide (s.tick < t + oneSecond)
    | none => false
  let s := s.modSite n fun st => { st with lastError := st.lastError.set k s.tick }
  if again then s.retireLater c else s

/-- An uncorrectable error that is detected.
DESIGN CHOICE (assumption 75). -/
def State.detected (s : State) (t : SoftTarget) : State :=
  let s := (s.logStrike t true).strike t
  match s.struckCore t with
  | some c => s.countSlot c
  | none => s

/-- More bits than the code is made for, taken for good data: the marks stay as they were.
DESIGN CHOICE (assumption 75). -/
def State.unnoticed (s : State) (t : SoftTarget) : State :=
  let n := s.strike t
  match t with
  | .dram _ | .l2Line _ _ => { n with badDram := s.badDram }
  | .l1Line _ _ => s
  | .scratch k _ _ => n.modTeam k fun v => { v with badScratch := (s.team k).badScratch }
  | .accu k _ _ => n.modTeam k fun v => { v with badAcc := (s.team k).badAcc }
  | .opBuf c _ => n.modCore c fun v => { v with badOpBuf := (s.core c).badOpBuf }
  | .channel _ _ => s
  | .register t _ =>
    if (AMap.find? t s.threads).isNone then n
    else n.modThread t fun v => { v with badRegs := (s.thread t).badRegs }

/-- SOFT_ERROR (R337): one bit is corrected and two are detected; of more, the manual promises nothing. With no
bits it closes the runs of corrected errors that are due (R339).
DESIGN CHOICE (assumption 75). DESIGN CHOICE (assumption 91). -/
def execSoftError (e : SoftError) (s : State) : Out :=
  if e.bits = 0 then .next s.closeRuns
  else if !s.strikes e.target then .next s
  else if e.bits = 1 then .next (s.countCorrected e)
  else if e.bits = 2 then .next (s.detected e.target)
  else
    let (f, s) := s.drawFree
    .next (if f % 2 = 0 then s.detected e.target else s.unnoticed e.target)

end Sys2Proof.Machine
end

