-- ==== Sys2Proof/Machine/Blotter.lean ====
section
/-! DEFINITION. The Blotter's registers (R409), and the ends of its stalls (R417, R418). -/

namespace Sys2Proof.Machine

/-- The cores whose pickers stand still on a stream. -/
def Stream.stalledCores (t : Stream) : List Nat := (t.stalls.keys.filter fun k => decide (k < 8192))

/-- The pickers of some cores that stand still on no stream any more go on. -/
def State.releasePickers (s : State) (cores : List Nat) : State :=
  cores.foldl (fun s c => s.startPicker c fun co => { co with bltStall := false }) s

/-- The stalls of a stream ended, each with its record (R417). -/
def State.endStalls (s : State) (site n : Nat) : State :=
  let cs := ((s.site site).stream n).stalledCores
  (s.logStalls site n).releasePickers cs

/-- The stalls of a stream ended without a record (R418). -/
def State.dropStalls (s : State) (site n : Nat) : State :=
  let cs := ((s.site site).stream n).stalledCores
  (s.modStream site n fun t => { t with stalls := [], stat := t.stat &&& ~~~(1#64 <<< 30) }).releasePickers cs

/-- R409: a write of BLTCFG that is ignored. -/
def State.bltcfgBad (s : State) (site n v : Nat) : Bool :=
  let t : Stream := { (s.site site).stream n with cfg := .ofNat 64 v }
  bitsOf v 60 56 != 0 || bitsOf v 34 32 != 0 || bitsOf v 27 24 != 0 || bitsOf v 15 5 != 0 ||
    decide (16 < v % 32) || (t.hwm == 0 && t.lossless) ||
    (t.isOpen && (List.range 8).any fun k =>
      k != n && ((s.site site).stream k).isOpen && ((s.site site).stream k).tenant == t.tenant) ||
    decide (dramBytes < bitsOf t.base.toNat 41 12 * 4096 + 16 * t.size)

/-- A stream whose BLTCFG is written (R409, R418): opening it starts its ring anew.
DEDUCED (assumption 82). -/
def Stream.configure (t : Stream) (v : DWord) : Stream :=
  let t' := { t with cfg := v, fell := false, fallback := false }
  if v.getLsbD 63 ∧ !t.isOpen then
    { t' with tail := 0, head := 0, lost := 0, owed := [], stat := .ofNat 64 (setBits t.stat.toNat 63 32 0) }
  else t'

/-- BLTCFG_WRITE (R409, R418). Clearing EN releases every stalled emitter at once; so does leaving lossless
operation, with its stall records. -/
def execBltcfgWrite (site strm : Nat) (v : DWord) (s : State) : Out :=
  if 8 ≤ strm || s.bltcfgBad site strm v.toNat then .next s
  else
    let s := if v.getLsbD 63 then s else s.dropStalls site strm
    let s := s.modStream site strm fun t => t.configure v
    let t := (s.site site).stream strm
    .next (if t.isOpen && !(t.lossless && t.atMark) then s.endStalls site strm
      else s.due (.blotterStallTimeout site strm) 0)

/-- BLTHEAD_WRITE (R409, R417): the reader has consumed slots, and the record of earlier losses takes the first
room. Below the watermark the stalls end. -/
def execBltheadWrite (site strm : Nat) (v : DWord) (s : State) : Out :=
  let t := (s.site site).stream strm
  if 8 ≤ strm ∨ v.toNat < t.head.toNat ∨ t.tail.toNat < v.toNat then .next s
  else
    let s := (s.modStream site strm fun t => { t with head := v }).putOwed site strm
    .next (if ((s.site site).stream strm).atMark then s else s.endStalls site strm)

/-- Whether a stall of a stream has reached its limit (R418). -/
def State.stallOver (s : State) (t : Stream) : Bool :=
  t.stalls.any fun p => p.2 != 0 && decide ((p.2 - 1) * 8 + t.stallTicks ≤ s.tick + s.timeBase + 8)

/-- The ticks until the first stall of a stream reaches its limit, none where it has no stall. -/
def State.stallWait (s : State) (t : Stream) : Option Nat :=
  ((t.stalls.filter fun p => p.2 != 0).map fun p =>
    max 1 ((p.2 - 1) * 8 + t.stallTicks - (s.tick + s.timeBase))).min?

/-- BLOTTER_STALL_TIMEOUT (R418): the stream falls back to lossy operation, and every emitter goes on. Where STALLMAX
has been raised meanwhile, the stall lasts on. -/
def execBlotterStallTimeout (site strm : Nat) (s : State) : Out :=
  let t := (s.site site).stream strm
  if !s.stallOver t then
    .next (match s.stallWait t with
      | some n => s.due (.blotterStallTimeout site strm) n
      | none => s)
  else
    let s := s.modStream site strm fun t =>
      { t with fell := true, fallback := true, stat := t.stat ||| (1#64 <<< 31) }
    .next ((s.putFallback site strm).endStalls site strm)

end Sys2Proof.Machine
end

