-- ==== Sys2Proof/Machine/Windows.lean ====
section
/-! DEFINITION. PUT, GET and MSG at the initiator (R278-R281), registrations and arrivals at the target
(R127-R130, R316, R346, R347, R408), receive rings (R103, R370), NMCMD's packets (R284) and the
completion of commands (R115). -/

namespace Sys2Proof.Machine

/-! ## The window table (R127, R278) -/

/-- An entry of a window table from its 64 bytes. -/
def winEntryOf (v : Nat) : WinEntry :=
  let w := fun i => bitsOf v (64 * i + 63) (64 * i)
  { valid := bitOf (w 0) 63, radd := bitOf (w 0) 58, rget := bitOf (w 0) 57, rput := bitOf (w 0) 56
    modId := .ofNat 16 (bitsOf (w 0) 47 32), site := w 0 % 64, base := .ofNat 64 (bitsOf (w 1) 51 0)
    len := bitsOf (w 2) 39 0, arrived := .ofNat 64 (w 3), tag := .ofNat 32 (w 4)
    rsv := bitsOf (w 0) 62 59 != 0 || bitsOf (w 0) 55 48 != 0 || bitsOf (w 0) 31 6 != 0 ||
      bitsOf (w 1) 63 52 != 0 || bitsOf (w 2) 63 40 != 0 || bitsOf (w 4) 63 32 != 0 || w 5 != 0 ||
      w 6 != 0 || w 7 != 0 }

/-- What the issue checks come to: the entry, or the cause and address of the trap, or a held access. -/
inductive WinRead where
  | ok (e : WinEntry) (s : State)
  | trap (cause : Nat) (addr : DWord)
  | hold

/-- Entry WIN of a launch's window table read by the command lane. -/
def readWindow (core team : Nat) (l : Launch) (win : Nat) (s : State) : WinRead :=
  let a := l.wptr + BitVec.ofNat 64 (64 * win)
  if l.wcnt ≤ win then .trap Cause.windowRights 0
  else
    match s.checkAddr core team l.space a 64 64 .read with
    | .trap c => .trap c a
    | .absent => .trap Cause.nonresident a
    | .held => .hold
    | .ok loc s =>
      if s.badLoc team loc 64 then .trap Cause.dataUncorrectable a
      else .ok (winEntryOf (s.readLoc team loc 64)) s

/-- The right an instruction needs. -/
def winRight (i : Issue) (e : WinEntry) : Bool :=
  match i.op with
  | .get => e.rget
  | .put => if i.x.sub = 1 then e.radd else e.rput
  | _ => e.rput

/-- R278: the WINDOW_RIGHTS conditions on an entry and an op pair. -/
def winRefused (i : Issue) (e : WinEntry) (w : Nat) : Bool :=
  !e.valid || (i.op != .msg && decide (60 ≤ e.site)) || e.rsv || bitsOf w 47 40 != 0 ||
    (i.op == .msg && bitsOf w 39 27 != 0) || !winRight i e

/-- R278: the WINDOW_BOUNDS conditions.
DEDUCED (assumption 36). -/
def winBounds (i : Issue) (e : WinEntry) (off n : Nat) : Bool :=
  if i.op = .msg then decide (n < 8) || decide (64 < n) || n % 8 != 0
  else decide (n < 4) || decide (65536 < n) || decide (e.len < off + n)

/-- R278: the ALIGNMENT conditions. -/
def winAlign (i : Issue) (a : DWord) (off n : Nat) : Bool :=
  let u := if i.op = .put ∧ i.x.sub = 1 then i.x.type.size else 4
  if i.op = .msg then a.toNat % 8 != 0 || n % 4 != 0
  else a.toNat % u != 0 || n % u != 0 || off % u != 0

/-- The form of the local address: scratchpad for PUT and MSG, either for GET (R279-R281). -/
def winForm (i : Issue) (t : Team) (a : DWord) : Bool :=
  formOk t.paired a && (i.op == .get || isScratch a)

/-- The checks behind the entry's read, in the order of R278: the cause and address of the first that
fails. -/
def winCheck (i : Issue) (t : Team) (e : WinEntry) (w off n : Nat) (a : DWord) : Option (Nat × DWord) :=
  if winRefused i e w then some (Cause.windowRights, a)
  else if winBounds i e off n then some (Cause.windowBounds, a)
  else if !winForm i t a then some (Cause.addressForm, a)
  else if winAlign i a off n then some (Cause.alignment, a)
  else if isScratch a && !scratchFits t a n then some (Cause.scratchBounds, a)
  else none

/-! ## Packets of a command -/

/-- A range cut at the target's multiples of 4,096, so that no part crosses a page, and none divides a line of
256 bytes (R126) or an aligned word (R129): each part's offset in the range and its length.
DEDUCED (assumption 35). -/
def cutParts (va : Nat) : (fuel off left : Nat) → List (Nat × Nat)
  | 0, _, _ => []
  | fuel + 1, off, left =>
    if left = 0 then []
    else
      let k := min left (packetBytes - (va + off) % packetBytes)
      (off, k) :: cutParts va fuel (off + k) (left - k)

/-- The next SEQ of a source reticle for a destination and TAG (R408). -/
def State.nextSequence (s : State) (p : Packet) : DWord × State :=
  let k := (p.dstMod.toNat, p.dstSite, p.tag.toNat)
  let n := match AMap.find? k (s.site p.srcSite).seqs with
    | some v => v + 1
    | none => s.flash.bootCount % 2 ^ 16 * 2 ^ 48
  (.ofNat 64 n, s.modSite p.srcSite fun st => { st with seqs := st.seqs.set k n })

/-- The bytes in scratchpad that a command of path p sends, as it reads them (R120). -/
def State.sourceBytes (s : State) (c : Command) : Nat × State :=
  s.seen .p c.agent c.team (.scr (scratchHalf (.ofNat 64 c.addr)) (scratchOff (.ofNat 64 c.addr))) c.len

/-- A packet of a command with its SEQ, sent. -/
def State.sendPart (s : State) (c : Nat) (p : Packet) : State :=
  let (q, s) := if isReducing p then s.nextSequence p else (0, s)
  let (n, s) := s.transmit c { p with seq := q }
  s.modCommand c fun v => { v with parts := v.parts ++ [n] }

/-- The code of a type (R180). -/
def tyCode (ty : Ty) : Nat := ((List.range 32).find? fun n => Ty.ofCode n == some ty).getD 0

/-- The packet of one part of a PUT or GET, whose source bytes are those of a number: it carries the error of a
source that cannot be read (R128, R338).
DEDUCED (assumption 35). -/
def partPacket (s : State) (c : Command) (e : WinEntry) (off total src : Nat) (o : Nat × Nat) : Packet :=
  let at_ : Loc := .scr (scratchHalf (.ofNat 64 c.addr)) (scratchOff (.ofNat 64 c.addr) + o.1)
  let get := c.op == .get
  { blankPacket with
    ptype := if get then 0x03 else if c.sub = 1 then 0x02 else 0x01
    srcMod := .ofNat 16 s.moduleId, dstMod := e.modId, srcSite := siteOf c.core, dstSite := e.site
    srcCore := c.core, tag := e.tag, off := off + o.1, len := o.2
    payload := if get then [] else bytesOfNat o.2 (src / 2 ^ (8 * o.1))
    total, win := e, ety := .ofNat 5 (tyCode c.ty), plane := c.plane
    cause := if !get && s.badLoc c.team at_ o.2 then Cause.dataUncorrectable else 0
    head := if get then 0 else src % 2 ^ 32 }

/-- The packets of an accepted PUT or GET, sent in order.
DEDUCED (assumption 35). -/
def sendParts (e : WinEntry) (off : Nat) (id : Nat) (s : State) : State :=
  match AMap.find? id s.commands with
  | none => s
  | some c =>
    let parts := cutParts (e.base.toNat + off) 64 0 c.len
    let (v, s) := if c.op = .get then (0, s) else s.sourceBytes c
    parts.foldl (fun s o => s.sendPart id (partPacket s c e off parts.length v o)) s

/-- A PUT or GET whose checks have passed. -/
def windowCommand (i : Issue) (q : Sid) (ts : List Tid) (done : DWord) (e : WinEntry) (off n : Nat)
    (a : DWord) (s : State) : SquadOut :=
  let pages := if i.op = .get then pageStarts a.toNat n else []
  match s.translatePages i.core (s.teamLaunch q.team).space .write n pages [] with
  | .error (c, a) => .fail s ts c (.ofNat 64 a)
  | .ok (m, s) =>
    let (plane, s) := s.choosePlane (siteOf i.core) e.modId.toNat e.site
    let c := { commandOf i q ts s done with
      pages := m, win := some e, addr := a.toNat, len := n, plane, word := .ofNat 64 off }
    { s := s.issueCommand i c (sendParts e off) }

/-! ## MSG (R281) -/

/-- The site a MSG goes to: that of its team on this module; on another module, whose teams are not to be seen here,
and where there is no such team, the issuing site's number.
DEDUCED (assumption 36). -/
def State.msgSite (s : State) (own : Nat) (e : WinEntry) (team : Nat) : Nat :=
  if e.modId.toNat ≠ s.moduleId then own
  else
    match s.regOnModule e.tag with
    | none => own
    | some pa =>
      match s.teamNumbered (regLid s pa) team with
      | some n => siteOf (s.team n).core
      | none => own

/-- A MSG whose checks have passed: one packet.
DEDUCED (assumption 36). -/
def msgCommand (i : Issue) (q : Sid) (ts : List Tid) (done : DWord) (e : WinEntry) (w n : Nat)
    (a : DWord) (s : State) : SquadOut :=
  let site := s.msgSite (siteOf i.core) e (w % 2 ^ 24)
  let (plane, s) := s.choosePlane (siteOf i.core) e.modId.toNat site
  let e := { e with site }
  let c := { commandOf i q ts s done with win := some e, addr := a.toNat, len := n, plane }
  let send := fun id (s : State) =>
    let (v, s) := s.sourceBytes c
    s.sendPart id { blankPacket with
      ptype := 0x05, srcMod := .ofNat 16 s.moduleId, dstMod := e.modId, srcSite := siteOf i.core
      dstSite := site, srcCore := i.core, tag := e.tag, off := w % 2 ^ 27, len := n
      payload := bytesOfNat n v, win := e, plane }
  { s := s.issueCommand i c send }

/-- PUT, GET and MSG at issue (R278-R281). -/
def squadWindow (i : Issue) (q : Sid) (ts : List Tid) (s : State) : SquadOut :=
  withDone i q ts s fun t done s =>
    let w := (opWord s i.x t).toNat
    let n := ((s.thread t).x i.x.c.toNat).toNat
    let a := (s.thread t).xp i.x.a.toNat
    match readWindow i.core q.team (s.teamLaunch q.team) (bitsOf w 63 48) s with
    | .trap c b => .trapAll s ts c (if c = Cause.windowRights then a else b)
    | .hold => { s, held := true }
    | .ok e s =>
      match winCheck i (s.team q.team) e w (w % 2 ^ 40) n a with
      | some (c, a) => .trapAll s ts c a
      | none =>
        if i.op = .msg then msgCommand i q ts done e w n a s
        else windowCommand i q ts done e (w % 2 ^ 40) n a s

/-! ## At the target (R347) -/

/-- The right a packet needs in its registration. -/
def regRight (p : Packet) (w0 : Nat) : Bool :=
  if p.ptype = 0x03 then bitOf w0 57 else if p.ptype = 0x02 then bitOf w0 58 else bitOf w0 56

/-- R127: an ARRIVED operand that the target takes: none, a counter, or a task counter; never in the
scratchpad form. -/
def arrivedOk (op : DWord) : Bool :=
  sigAddr op == 0 || ((sigKind op == 1 || sigKind op == 3) && isGlobal (sigAddr op))

/-- The checks of R347 on a PUT or GET: the registration's entry, none where it is refused. -/
def State.regCheck (s : State) (site : Nat) (p : Packet) : Option (Nat × State) :=
  match s.regFor site p.tag with
  | none => none
  | some pa =>
    let w0 := regWord s pa 0
    let base := bitsOf (regWord s pa 1) 51 0
    let len := bitsOf (regWord s pa 2) 39 0
    if !regRight p w0 || decide (p.win.base.toNat < base) ||
        decide (base + len < p.win.base.toNat + p.win.len) ||
        regWord s pa 3 != p.win.arrived.toNat || !arrivedOk p.win.arrived ||
        (AMap.find? (regLid s pa) s.launches).isNone then none
    else
      match s.checkCompletion 0 none (s.launch (regLid s pa)).space p.win.arrived with
      | .ok s => some (pa, s)
      | .error _ => none

/-- The agent of a packet (R110): the thread that issued its command. -/
def State.packetAgent (s : State) (p : Packet) : Party :=
  if p.srcMod.toNat ≠ s.moduleId then .foreign
  else
    match AMap.find? p.cmd s.commands with
    | some c => c.agent
    | none => .thread ⟨0, 0, 0⟩ p.srcSite

/-- A write of an arriving packet (R110, R128), complete with its command's signal; `update` is the indivisible
update that it is a part of (R126). -/
def State.packetWrite (s : State) (p : Packet) (update : Option Nat) (l : Loc) (n v : Nat) : State :=
  s.writeAs .p (s.packetAgent p) (.command p.srcMod.toNat p.cmd) update 0 l n v

/-- What an arriving part's admission comes to. -/
inductive Admit where
  | go (a : Arrival) (s : State)
  | refuse (reason : Nat) (s : State)

/-- The key of a command being received. -/
def arrivalKey (p : Packet) : Nat × Nat := (p.srcMod.toNat, p.cmd)

/-- An arrival with one packet more dealt with; one that has been dealt with before changes nothing. -/
def Arrival.deal (a : Arrival) (p : Packet) : Arrival :=
  if a.parts.contains p.off then a
  else { a with left := a.left - 1, parts := p.off :: a.parts, bytes := a.bytes + p.len }

/-- An arrival kept, until its last packet has been dealt with. -/
def State.keepArrival (s : State) (p : Packet) (a : Arrival) : State :=
  { s with arrivals := if a.left = 0 then s.arrivals.erase (arrivalKey p) else s.arrivals.set (arrivalKey p) a }

/-- The first packet of a command accepted under a registration. -/
def State.accepted (s : State) (p : Packet) (pa : Nat) : Arrival :=
  { left := p.total, cause := 0, entry := pa, parts := [], bytes := 0, lid := regLid s pa
    space := (s.launch (regLid s pa)).space, refused := none }

/-- A packet of a command that is refused, and with it the command (R347). -/
def State.turnAway (s : State) (p : Packet) (a : Arrival) (reason : Nat) : Admit :=
  .refuse reason (s.keepArrival p ({ a with refused := some reason }.deal p))

/-- R347, R316: a command is checked when its first packet arrives, and runs on under what it found. -/
def State.admission (s : State) (site : Nat) (p : Packet) : Admit :=
  match AMap.find? (arrivalKey p) s.arrivals with
  | some a =>
    (match a.refused with
      | some r => s.turnAway p a r
      | none => .go a s)
  | none =>
    match s.regCheck site p with
    | none => s.turnAway p (s.accepted p 0) 0x05
    | some (pa, s) =>
      let w0 := regWord s pa 0
      let er := regWord s pa 5
      let stale := p.ptype != 0x03 && bitOf w0 62 &&
        (match s.lupOf (regLid s pa) with
          | some l => !s.tokenOk site l (bitsOf er 11 0) (bitsOf er 14 12) p.head
          | none => true)
      if stale then
        (s.report site 0x2601 7 noCore (s.tenantOf (regLid s pa)) (bitsOf er 11 0)).turnAway p (s.accepted p pa) 0x06
      else .go (s.accepted p pa) ((s.inflight pa true).keepArrival p (s.accepted p pa))

/-- The version a site holds committed for the launch of a TAG's registration (R316). -/
def State.lupVersionFor (s : State) (site : Nat) (tag : Word) : Nat :=
  match s.regFor site tag with
  | some pa =>
    (match s.lupOf (regLid s pa) with
      | some l => ((s.site site).lupSite l).version
      | none => 0)
  | none => 0

/-- A command of which one part more has been dealt with: when none is left, the writes of a put are complete and
ARRIVED is signalled (R128), and the registration counts the command no longer. -/
def State.partArrived (s : State) (p : Packet) (a : Arrival) (cause : Nat) (signals : Bool) : State :=
  let a := { a with cause := firstCause a.cause cause }.deal p
  let s := s.keepArrival p a
  if a.left ≠ 0 then s
  else
    let s := if signals then
        (s.completeWrites (.command p.srcMod.toNat p.cmd)).signal
          { core := 0, team := none, sp := a.space, op := p.win.arrived, n := 1, failed := a.cause != 0
            cause := a.cause, agent := s.packetAgent p }
      else s
    s.inflight a.entry false

/-- A packet of a GET of this module is home, or its command has failed: the window's registration counts it no
longer when the last is (R346, R347). -/
def State.getHome (s : State) (p : Packet) : State :=
  match AMap.find? (arrivalKey p) s.arrivals with
  | some a => s.partArrived p a 0 false
  | none => s

/-- Whether the registration that a TAG selects on a site lies where a flip or a flush holds the accesses to it
(R98, R352). -/
def State.regHeld (s : State) (site : Nat) (tag : Word) : Bool := (s.regEntry site tag).any s.accessHeld

/-! ## The replay filter (R408) -/

inductive Replay where
  | apply (s : State)
  | seen (s : State)
  | full

/-- The entries of a replay filter. -/
def replayLimit : Nat := 8192

/-- A reducing packet at a target reticle's replay filter. -/
def State.replayCheck (s : State) (site : Nat) (p : Packet) : Replay :=
  let st := s.site site
  let k : ReplayKey := { modId := p.srcMod, site := p.srcSite, tag := p.tag }
  let q := p.seq.toNat
  let put := fun e : ReplayEntry =>
    (s.modSite site fun st => { st with replay := st.replay.set k e }).due (.replayEntryExpire site k)
      oneMilli
  match AMap.find? k st.replay with
  | none =>
    if replayLimit ≤ st.replay.length then .full else .apply (put { high := q, seen := 1, last := s.tick })
  | some e =>
    if e.high / 2 ^ 48 < q / 2 ^ 48 then .apply (put { high := q, seen := 1, last := s.tick })
    else if e.high < q then
      .apply (put { high := q, seen := (e.seen * 2 ^ (q - e.high) + 1) % 2 ^ 1024, last := s.tick })
    else if e.high < q + 1024 && !bitOf e.seen (e.high - q) then
      .apply (put { e with seen := e.seen + 2 ^ (e.high - q), last := s.tick })
    else .seen (put { e with last := s.tick })

/-- REPLAY_ENTRY_EXPIRE (R408): an entry with no traffic for 1 ms is freed. -/
def execReplayEntryExpire (site : Nat) (key : ReplayKey) (s : State) : Out :=
  match AMap.find? key (s.site site).replay with
  | some e =>
    .next (if e.last + oneMilli ≤ s.tick then
        s.modSite site fun st => { st with replay := st.replay.erase key }
      else s)
  | none => .next s

/-! ## PUT_ARRIVE (R128, R279) -/

/-- The elements of an add-on-store put added one by one (R147, R148), those of one line as one update (R126). -/
def State.putAdd (s : State) (p : Packet) (update : Nat) (ty : Ty) (pa : Nat) : List Nat → State
  | [] => s
  | v :: vs =>
    let n := ty.size
    let r := addAt ty (s.readLoc 0 (.glob pa) n) v
    State.putAdd ((s.packetWrite p (some update) (.glob pa) n r.bits).addFlags 0 (.glob pa) r.flags) p update ty
      (pa + n) vs

/-- A payload as numbers of n bytes. -/
def chunks (n : Nat) : (fuel : Nat) → List Byte → List Nat
  | 0, _ => []
  | fuel + 1, bs => if bs.isEmpty then [] else natOfBytes (bs.take n) :: chunks n fuel (bs.drop n)

/-- The bytes of a put written at the target (R128, R338, R347): the cause of an error. -/
def State.putBytes (s : State) (p : Packet) (sp : Space) : State × Nat :=
  let va := p.win.base.toNat + p.off
  let ty := (Ty.ofCode p.ety.toNat).getD .b32
  match s.translateWalk sp va (if p.ptype = 0x02 then .atomic else .write) with
  | .error c => (s, c)
  | .ok (pa, s) =>
    if isRegisterPa pa && !(p.len == 4 || p.len == 8) then (s, Cause.alignment)
    else
      let adds := p.ptype == 0x02
      let bad := if adds then s.badLoc 0 (.glob pa) p.len else s.badStore (.glob pa) p.len
      let s := s.touchL2 pa .normal true
      (if adds then s.putAdd p s.writes ty pa (chunks ty.size p.len p.payload)
        else s.packetWrite p none (.glob pa) p.len (natOfBytes p.payload),
        if bad then Cause.dataUncorrectable else 0)

/-- Whether a packet is the last of its command to be dealt with. -/
def Arrival.lastIs (a : Arrival) (p : Packet) : Bool := a.left == 1 && !a.parts.contains p.off

/-- A put's part that has been admitted, and is not a repetition, takes effect and is acknowledged with the
error it brought or met (R128). -/
def State.applyPut (s : State) (site : Nat) (p : Packet) (a : Arrival) : State :=
  let (s, met) := s.putBytes p a.space
  let cause := firstCause p.cause met
  let s := if a.lastIs p then
      s.report site 0x2202 3 noCore (s.tenantOf a.lid) (p.srcSite * 2 ^ 18 + (a.bytes + p.len) / 4 % 2 ^ 17)
    else s
  (s.partArrived p a cause true).acknowledge p site cause

/-- Whether the page a put writes or a GET reads is held by a flip or a flush (R98, R352). -/
def State.targetHeld (s : State) (p : Packet) (a : Arrival) : Bool :=
  let kind := if p.ptype = 0x03 then AccessKind.read else if p.ptype = 0x02 then .atomic else .write
  match s.translateWalk a.space (p.win.base.toNat + p.off) kind with
  | .ok (pa, _) => s.accessHeld pa
  | .error c => c == heldCause

/-- A reducing packet that takes effect, in its target's replay filter (R408). -/
def State.replayed (s : State) (p : Packet) : State :=
  if isReducing p then
    match s.replayCheck p.dstSite p with
    | .apply s => s
    | .seen _ | .full => s
  else s

/-- A put's packet that is no repetition, at its target: it is refused, or takes effect, or waits. -/
def State.putPacket (s : State) (id : Nat) (p : Packet) : State :=
  let site := p.dstSite
  match s.admission site p with
  | .refuse r s => (s.dropPacket id).nak p site r (s.lupVersionFor site p.tag)
  | .go a s =>
    if s.targetHeld p a then s.due (.putArrive id) coreTicks
    else ((s.dropPacket id).replayed p).applyPut site p a

/-- PUT_ARRIVE (R128, R313, R347, R408): a put's packet at its target. -/
def execPutArrive (p : Nat) (s : State) : Out :=
  match AMap.find? p s.packets with
  | none => .next s
  | some q =>
    let site := q.dstSite
    if s.stalePacket q then .next (s.refuse p q site 0x01)
    else if s.regHeld site q.tag then .next (s.due (.putArrive p) coreTicks)
    else if isReducing q then
      match s.replayCheck site q with
      | .full => .next ((s.dropPacket p).nak q site 0x09 0)
      | .seen s => .next ((s.dropPacket p).acknowledge q site 0)
      | .apply _ => .next (s.putPacket p q)
    else .next (s.putPacket p q)

/-! ## GET (R280) -/

/-- The answer to a GET's packet, which ends it at the target where its initiator is on another module. -/
def State.getAnswer (s : State) (site : Nat) (p : Packet) (a : Arrival) (payload : List Byte) (cause : Nat) : State :=
  let s := if p.srcMod.toNat = s.moduleId then s.keepArrival p { a with cause := firstCause a.cause cause }
    else s.partArrived p a cause false
  (s.launchPacket { answerTo p s.moduleId site 0x04 with len := payload.length, payload, cause } 0).2

/-- GET_REQUEST_ARRIVE (R21, R130, R280, R313): the window's bytes read, and sent back. -/
def execGetRequestArrive (p : Nat) (s : State) : Out :=
  match AMap.find? p s.packets with
  | none => .next s
  | some q =>
    let site := q.dstSite
    if s.stalePacket q then .next (s.refuse p q site 0x01)
    else if s.regHeld site q.tag then .next (s.due (.getRequestArrive p) coreTicks)
    else
      match s.admission site q with
      | .refuse r s1 => .next ((s1.dropPacket p).nak q site r 0)
      | .go a s1 =>
        if s1.targetHeld q a then .next (s1.due (.getRequestArrive p) coreTicks)
        else
          let s1 := s1.dropPacket p
          match s1.translateWalk a.space (q.win.base.toNat + q.off) .read with
          | .error c => .next (s1.getAnswer site q a [] c)
          | .ok (pa, s1) =>
            if isRegisterPa pa && !(q.len == 4 || q.len == 8) then .next (s1.getAnswer site q a [] Cause.alignment)
            else
              let bad := s1.badLoc 0 (.glob pa) q.len
              let (v, s1) := if bad then s1.drawFree else s1.seen .p (s1.packetAgent q) 0 (.glob pa) q.len
              .next ((s1.touchL2 pa .normal false).getAnswer site q a (bytesOfNat q.len v)
                (if bad then Cause.dataUncorrectable else 0))

/-- GET_REPLY_ARRIVE (R280): the bytes are written at the initiator. -/
def execGetReplyArrive (p : Nat) (s : State) : Out :=
  match AMap.find? p s.packets with
  | none => .next s
  | some q =>
    match AMap.find? q.cmd s.commands with
    | none => .next (s.dropPacket p)
    | some c =>
      if s.stalePacket q then .next (s.refuse p q q.dstSite 0x01)
      else if s.commandHeld c then .next (s.due (.getReplyArrive p) coreTicks)
      else
        let s := (s.dropPacket p).getHome { q with srcMod := q.dstMod }
        if q.payload.isEmpty then .next ((s.leavePart q.part c).partDone q.cmd q.part q.cause)
        else
          let r := s.replyBytes q.cmd c (bytePieces c.addr c.len 0) (c.addr + (q.off - c.word.toNat))
            q.payload.length (natOfBytes q.payload)
          .next (r.1.partDone q.cmd q.part (firstCause q.cause r.2))

/-! ## Receive rings (R102, R103) -/

/-- The slots of ring n. -/
def Team.ringSlots (t : Team) (n : Nat) : Nat := 2 ^ bitsOf (AMap.getD t.ringCfg n 0).toNat 39 36

/-- A message appended (R103): its slot, its metadata word, then TAIL. -/
def State.append (s : State) (team n : Nat) (p : Packet) : State :=
  let t := s.team team
  let tail := (AMap.getD t.ringTail n 0).toNat
  let k := t.ringSlots n
  let h := t.ringHalf n
  let b := t.ringBase n
  let put := fun (s : State) l n v => s.writeAs .p (s.packetAgent p) .nothing none team l n v
  let s := put s (.scr h (b + 64 + 64 * (tail % k))) 64 (natOfBytes p.payload)
  let s := put s (.scr h (b + 64 + 64 * k + 8 * (tail % k))) 8
    (p.srcMod.toNat * 2 ^ 48 + p.srcCore % 2 ^ 13 * 2 ^ 32 + p.len)
  let s := s.modTeam team fun t => { t with ringTail := t.ringTail.set n (.ofNat 32 (tail + 1)) }
  put s (.scr h (b + 4)) 4 ((tail + 1) % 2 ^ 32)

/-- DROPS of a ring one higher. -/
def State.dropMessage (s : State) (team n : Nat) (p : Packet) : State :=
  let t := s.team team
  let l : Loc := .scr (t.ringHalf n) (t.ringBase n + 8)
  s.writeAs .p (s.packetAgent p) .nothing (some s.writes) team l 4 (s.readLoc team l 4 + 1)

/-- A message for a ring of a team (R103, R335, R370).
DEDUCED (assumption 37). -/
def State.message (s : State) (site : Nat) (p : Packet) (team : Option Nat) (n : Nat) : State :=
  match team with
  | none => s.acknowledge p site Cause.ringInvalid
  | some k =>
    let t := s.team k
    if t.frozen || !t.ringOn n then s.acknowledge p site Cause.ringInvalid
    else if ((AMap.getD t.ringTail n 0).toNat + 2 ^ 32 - t.ringHead n) % 2 ^ 32 < t.ringSlots n then
      (s.append k n p).acknowledge p site 0
    else
      let s := s.dropMessage k n p
      if (s.core (t.core + t.ringHalf n)).halted then s.nak p site 0x07 0
      else s.acknowledge p site Cause.ringInvalid

/-- RING_APPEND (R103, R281, R347): a message at its target. -/
def execRingAppend (p : Nat) (s : State) : Out :=
  match AMap.find? p s.packets with
  | none => .next s
  | some q =>
    let site := q.dstSite
    if s.stalePacket q then .next (s.refuse p q site 0x01)
    else
      match s.regOnModule q.tag with
      | none => .next ((s.dropPacket p).nak q site 0x05 0)
      | some pa =>
        if s.accessHeld pa then .next (s.due (.ringAppend p) coreTicks)
        else if !bitOf (regWord s pa 0) 56 || regWord s pa 3 != q.win.arrived.toNat ||
            (AMap.find? (regLid s pa) s.launches).isNone then
          .next ((s.dropPacket p).nak q site 0x05 0)
        else
          .next ((s.dropPacket p).message site q (s.teamNumbered (regLid s pa) (q.off % 2 ^ 24))
            (q.off / 2 ^ 24 % 8))

/-! ## NMCMD's packets (R284) -/

/-- A command's packet to one command unit: through the network of the issuing reticle, or over the mesh to another.
DEDUCED (assumption 42). -/
def State.sendUnit (s : State) (id : Nat) (c : Command) (unit : Nat) : State :=
  let site := siteOf c.core
  s.sendPart id { blankPacket with
    ptype := 0x06, srcMod := .ofNat 16 s.moduleId, dstMod := .ofNat 16 s.moduleId
    srcSite := site, dstSite := unit / 4, srcCore := c.core, plane := if unit / 4 = site then .reticle else .mesh
    off := (((c.unitParts unit).head?.map (·.pa)).getD 0) % 2 ^ 40 }

/-- The packets of an accepted NMCMD; one with no row to act on completes at once. -/
def sendUnits (id : Nat) (s : State) : State :=
  match AMap.find? id s.commands with
  | none => s
  | some c =>
    if c.units.isEmpty then s.due (.commandComplete id) coreTicks
    else c.units.foldl (fun s u => s.sendUnit id c u) s

/-- NMCMD (R284). -/
def squadNmcmd (i : Issue) (q : Sid) (ts : List Tid) (s : State) : SquadOut :=
  withDone i q ts s fun _ done s =>
    if i.x.imm = 0 ∨ 64 < i.x.imm.toNat then .trapAll s ts Cause.nmcmdInvalid 0
    else
      let o := ts.foldl (nmLane i q) ⟨s, [], [], [], []⟩
      if o.held then { s, held := true }
      else if o.lanes.isEmpty then { s := o.s, traps := o.traps }
      else
        let c := { commandOf i q o.lanes o.s done with pages := o.pages, rows := o.work, len := nmRow i }
        let c := { c with cause := if c.rows.any c.rowFails then Cause.nonresident else 0 }
        { s := o.s.issueCommand i c sendUnits, traps := o.traps }

/-- The rows of a command that a unit handles a part of. -/
def Command.unitRows (c : Command) (unit : Nat) : Nat :=
  (c.rowsLeft.filter fun r => (rowParts c.len).any fun o => (c.phys (r.1 + o)).any fun pa => unitOf pa == unit).length

/-- A command unit's part of a command done. -/
def State.unitPart (s : State) (c : Nat) (cmd : Command) (site stack : Nat) : State :=
  let s := s.report site 0x2300 4 noCore (s.tenantOf cmd.lid)
    (stack * 2 ^ 22 + cmd.unitRows (site * 4 + stack) % 128)
  let r := s.unitWork c cmd (site * 4 + stack)
  r.1.setCommand c r.2

/-- A packet of an NMCMD at its command unit's reticle: applied once (R408), and acknowledged.
DEDUCED (assumption 42). -/
def State.unitPacket (s : State) (id : Nat) (p : Packet) (cmd : Command) : State :=
  match s.replayCheck p.dstSite p with
  | .full => (s.dropPacket id).nak p p.dstSite 0x09 0
  | .seen s => (s.dropPacket id).acknowledge p p.dstSite 0
  | .apply s => ((s.unitPart p.cmd cmd p.dstSite (stackOf p.off)).dropPacket id).acknowledge p p.dstSite 0

/-- NMCMD_PACKET_ARRIVE (R284, R285): a command unit does its part of a command, and acknowledges the packet.
DEDUCED (assumption 42). -/
def execNmcmdPacketArrive (p site stack : Nat) (s : State) : Out :=
  match AMap.find? p s.packets with
  | none => .next s
  | some q =>
    match AMap.find? q.cmd s.commands with
    | none => .next (s.dropPacket p)
    | some cmd =>
      if s.stalePacket q then .next (s.refuse p q site 0x01)
      else if cmd.op ≠ .nmcmd ∨ !cmd.units.contains (site * 4 + stack) then .next (s.dropPacket p)
      else if s.commandHeld cmd then .next (s.due (.nmcmdPacketArrive p site stack) coreTicks)
      else .next (s.unitPacket p q cmd)

/-! ## Completion -/

/-- What the Blotter is told of the end of a command of a copy queue (R413). -/
def State.reportDone (s : State) (c : Command) : State :=
  if engineQueue c.op = .copy then
    s.report (siteOf c.core) 0x2101 2 c.core (s.tenantOf c.lid)
      (c.op.code + c.cause * 2 ^ 8 + bit01 (c.cause != 0) * 2 ^ 16)
  else s

/-- COMMAND_COMPLETE (R115): what a command has still to move is moved, and it ends. A command that has
lines to deliver, packets underway, or a tile to be read is not yet complete. -/
def execCommandComplete (c : Nat) (s : State) : Out :=
  match AMap.find? c s.commands with
  | none => .next s
  | some cmd =>
    if !cmd.parts.isEmpty then .next s
    else if !cmd.ready || !cmd.lines.isEmpty || s.commandHeld cmd then
      .next (s.due (.commandComplete c) coreTicks)
    else
      let s := s.moveSome c cmd fun _ => true
      let cmd := (AMap.find? c s.commands).getD .blank
      let s := if cmd.op = .nmcmd ∧ cmd.sub = 0 then s.gatherTotals c cmd else s
      .next ((s.reportDone cmd).finishCommand c cmd)

/-! ## The meanings -/

/-- CPY (R273): a copy lane by lane. -/
def execCpy (x : Ext) (s : State) : Out := simtSquad .cpy x x.len squadCpy s

/-- TCOPY (R277): a box of a tensor copied. -/
def execTcopy (x : Ext) (s : State) : Out := simtSquad .tcopy x x.len squadTcopy s

/-- UNSEAL (R287): leaves of a sealed tree copied. -/
def execUnseal (x : Ext) (s : State) : Out := simtSquad .unseal x x.len squadUnseal s

/-- NMCMD (R284): a near-memory command. -/
def execNmcmd (x : Ext) (s : State) : Out := simtSquad .nmcmd x x.len squadNmcmd s

/-- PUT (R279): bytes to a window. -/
def execPut (x : Ext) (s : State) : Out := simtSquad .put x x.len squadWindow s

/-- GET (R280): bytes of a window. -/
def execGet (x : Ext) (s : State) : Out := simtSquad .get x x.len squadWindow s

/-- MSG (R281): a message to a ring. -/
def execMsg (x : Ext) (s : State) : Out := simtSquad .msg x x.len squadWindow s

end Sys2Proof.Machine
end

