-- ==== Sys2Proof/Machine/Lineup.lean ====
section
/-! DEFINITION. The Lineup controller (R419-R429): the slots' registers, reviews, copies, prepared and
committed tables, and the standby. -/

namespace Sys2Proof.Machine

/-! ## Fields (R419, R421) -/

def LupSlot.en (v : LupSlot) : Bool := v.cfg.getLsbD 63
def LupSlot.auto (v : LupSlot) : Bool := v.cfg.getLsbD 62
def LupSlot.csite (v : LupSlot) : Nat := bitsOf v.cfg.toNat 55 50
def LupSlot.ssite (v : LupSlot) : Nat := bitsOf v.cfg.toNat 49 44
def LupSlot.lid (v : LupSlot) : Nat := v.cfg.toNat % 2 ^ 32
def LupSlot.maxChanges (v : LupSlot) : Nat := max 1 (bitsOf v.cfg.toNat 43 40)
def LupSlot.maxReplicas (v : LupSlot) : Nat :=
  let n := bitsOf v.cfg.toNat 39 36
  if 1 ≤ n ∧ n ≤ 8 then n else 8
def LupSlot.hot (v : LupSlot) : Nat := 16 * bitsOf v.pol.toNat 31 16
def LupSlot.cold (v : LupSlot) : Nat := 16 * bitsOf v.pol.toNat 15 0
def LupSlot.graceTicks (v : LupSlot) : Nat := max 1 (bitsOf v.pol.toNat 63 48) * 800
def LupSlot.reviewTicks (v : LupSlot) : Nat := max 1 (bitsOf v.pol.toNat 47 32) * 80000

/-- An entry of the table as its sixteen words. -/
abbrev LupEntry := List DWord

def entWord (e : LupEntry) (i : Nat) : Nat := (e.getD i 0).toNat
def entValid (e : LupEntry) : Bool := bitOf (entWord e 0) 63
def entLive (e : LupEntry) : Nat := entWord e 0 % 256
def entOwner (e : LupEntry) : Nat := bitsOf (entWord e 0) 10 8
def entReplica (e : LupEntry) (r : Nat) : Nat := entWord e (8 + r)

/-- SITE and SPARE of a replica word. -/
def repSite (w : Nat) : Nat := w % 64
def repSpare (w : Nat) : Nat := bitsOf w 13 8

/-- The replicas in service of an entry. -/
def liveReps (e : LupEntry) : List Nat := (List.range 8).filter (bitOf (entLive e))
def entCount (e : LupEntry) : Nat := (liveReps e).length

/-- The entry with one word replaced. -/
def setEntWord (e : LupEntry) (i v : Nat) : LupEntry :=
  (List.range 16).map fun k => if k = i then .ofNat 64 v else e.getD k 0

/-- An entry of the committed table of a slot as a reticle holds it; none where VER is 0 (R420). -/
def State.committedAt (s : State) (site l e : Nat) : LupEntry :=
  let t := (s.site site).lupSite l
  if t.version = 0 then []
  else (List.range 16).map fun i => .ofNat 64 (s.lupWord site l t.sel e i)

/-- An entry of the committed table as the slot's controller holds it. -/
def State.committed (s : State) (l e : Nat) : LupEntry := s.committedAt (s.lupSlot l).csite l e

/-- The live reticles. -/
def State.liveSites (s : State) : List Nat := (List.range siteCount).filter fun n => !(s.site n).off

/-- Whether the reticle that runs a slot's review, or would run one, is live: a step of a controller that is lost is not
made (R429). -/
def State.lupRuns (s : State) (l : Nat) : Bool :=
  !(s.site (match (s.lupSlot l).review with | some r => r.site | none => (s.lupSlot l).csite)).off

/-! ## Memory of the bound launch -/

/-- Whether a flip or a flush is under way on the module. Lineup's steps, which reach the memory of a launch and the
tables of every reticle, wait for its end (R98, R352).
DESIGN CHOICE (assumption 79). -/
def State.maintained (s : State) : Bool :=
  s.sites.any fun p => p.2.biascmd.getLsbD 63 || p.2.l2cfg.getLsbD 31 || p.2.l2live.getLsbD 31

/-- A step of Lineup, or its wait. -/
def State.unheld (s : State) (ev : Ev) (f : State → Out) : Out :=
  if s.maintained then .next (s.due ev coreTicks) else f s

/-- A virtual address of a launch, where it may be read or written. -/
def State.lupAddr (s : State) (lid va : Nat) (kind : AccessKind) : Option (Nat × State) :=
  match AMap.find? lid s.launches with
  | none => none
  | some l =>
    match s.translateWalk l.space va kind with
    | .ok r => some r
    | .error _ => none

/-- A 64-bit word of the launch's memory; zero where it cannot be read. -/
def State.lupRead (s : State) (lid va n : Nat) : Nat :=
  match s.lupAddr lid va .read with
  | some (pa, s) => s.readLoc 0 (.glob pa) n
  | none => 0

/-- The gate word (R427): a compare and swap by the controller, and whether it was made.
DEDUCED (assumption 81). -/
def State.gateCas (s : State) (l expect v : Nat) : Bool × State :=
  match s.lupAddr (s.lupSlot l).lid ((s.lupSlot l).gate.toNat % 2 ^ 52) .atomic with
  | none => (false, s)
  | some (pa, s) =>
    if s.readLoc 0 (.glob pa) 4 = expect then (true, s.updateLoc .module 0 (.glob pa) 4 v) else (false, s)

/-- G := 0. -/
def State.openGate (s : State) (l lid : Nat) : State :=
  match s.lupAddr lid ((s.lupSlot l).gate.toNat % 2 ^ 52) .write with
  | none => s
  | some (pa, s) => s.writeAs .t .module .nothing none 0 (.glob pa) 4 0

/-- The registration of a window of the launch at a site. -/
def State.windowReg (s : State) (lid win site : Nat) : Option Nat :=
  s.regFor site (.ofNat 32 (s.lupRead lid ((s.launch lid).wptr.toNat + 64 * win + 32) 4))

/-! ## LUPCFG (R419) -/

/-- PREPVER := 0 on every reticle. -/
def State.unprepare (s : State) (l : Nat) : State :=
  (List.range siteCount).foldl (fun s n =>
    s.modLupSite n l fun t => { t with ver := .ofNat 64 t.version }) s

/-- A failed review's mark on LUPSTAT (R423). -/
def LupSite.failed (t : LupSite) (e : Option Nat) : LupSite :=
  let v := setBits t.stat.toNat 63 48 (min (bitsOf t.stat.toNat 63 48 + 1) 0xFFFF)
  { t with stat := .ofNat 64 (match e with | some e => setBits v 35 24 e | none => v) }

/-- Bytes of a launch's memory that take free values, page by page. -/
def State.lupLeave (lid : Nat) : (fuel : Nat) → State → (dst n : Nat) → State
  | 0, s, _, _ => s
  | fuel + 1, s, dst, n =>
    if n = 0 then s
    else
      let k := min n (pageSize - dst % pageSize)
      match s.lupAddr lid dst .write with
      | none => State.lupLeave lid fuel s (dst + k) (n - k)
      | some (b, s) =>
        let (v, s) := s.drawFree
        State.lupLeave lid fuel (s.writeAs .c .module .nothing none 0 (.glob b) k v) (dst + k) (n - k)

/-- A review that fails (R423): nothing of it is made, and the weight buffers of its spares hold free
values.
DEDUCED (assumption 81). -/
def State.failReview (s : State) (l : Nat) (experts : List Nat) : State :=
  match (s.lupSlot l).review with
  | none => s
  | some r =>
    let c := (s.lupSlot l).csite
    let s := r.copies.foldl (fun s a => State.lupLeave r.lid (a.2.2.2.2 + 1) s a.2.2.1 a.2.2.2.2) s
    let s := s.unprepare l
    let s := s.modLupSite c l fun t => t.failed experts.getLast?
    let s := experts.foldl (fun s e => s.report c 0x2602 7 noCore (s.tenantOf r.lid) e) s
    (s.modLupSlot l fun v => { v with review := none }).openGate l r.lid

/-- Whether another enabled slot names a launch. -/
def State.lidBound (s : State) (l lid : Nat) : Bool :=
  (List.range 4).any fun k => k != l && (s.lupSlot k).en && (s.lupSlot k).lid == lid

/-- The interval between heartbeats (R428). -/
def beatTicks : Nat := 800000

/-- No review or heartbeat of a slot due. -/
def State.quietLup (s : State) (l : Nat) : State :=
  { s with agenda := s.agenda.filter fun d =>
      match d.ev with
      | .lineupReview k => k != l
      | .lineupHeartbeat k _ => k != l
      | _ => true }

/-- The 10 µs that a review's preparation may take, in place of an earlier review's (R424). -/
def State.watchPrepare (s : State) (l after : Nat) : State :=
  { s with agenda := s.agenda.filter fun d => d.ev != Ev.lineupPrepareTimeout l }.due (.lineupPrepareTimeout l) after

/-- A review in progress ended as failed (R419); what it does to memory waits for the end of a flip or a flush. -/
def State.stopReview (s : State) (l : Nat) : State :=
  if s.maintained then
    (s.modLupSlot l fun t =>
      { t with review := t.review.map fun r => { r with stage := .failing } }).watchPrepare l coreTicks
  else s.failReview l []

/-- The events that an enabled slot brings about (R422, R428). -/
def State.startLup (s : State) (l : Nat) : State :=
  let slot := s.lupSlot l
  let s := s.quietLup l
  let s := if slot.en && slot.auto then s.due (.lineupReview l) slot.reviewTicks else s
  if slot.en && slot.csite != slot.ssite then s.due (.lineupHeartbeat l true) beatTicks else s

/-- LUPCFG_WRITE (R419): ignored with an RSV bit, and while EN is 1 but to clear it; clearing EN ends a review
in progress as failed.
DEDUCED (assumption 81). -/
def execLupcfgWrite (l : Nat) (v : DWord) (s : State) : Out :=
  let n := v.toNat
  if 4 ≤ l ∨ bitsOf n 61 56 ≠ 0 ∨ bitsOf n 35 32 ≠ 0 then .next s
  else if (s.lupSlot l).en then
    (if bitOf n 63 then .next s
    else .next ((s.stopReview l).modLupSlot l fun t => { t with cfg := v, missed := 0 }))
  else if bitOf n 63 ∧ s.lidBound l (n % 2 ^ 32) then .next s
  else .next ((s.modLupSlot l fun t => { t with cfg := v, missed := 0 }).startLup l)

/-! ## The review (R422) -/

/-- What a review works on: the table by expert, the experts that exist, and the loads L[e]. -/
structure ReviewWork where
  table : AMap Nat LupEntry
  experts : List Nat
  load : AMap Nat Nat
  n : Nat
  changed : List Nat
  copies : List (Nat × Nat × Nat × Nat × Nat)
  spares : List Nat
  adds : List (Nat × Nat × Nat × Nat × Nat)

def ReviewWork.entry (w : ReviewWork) (e : Nat) : LupEntry := AMap.getD w.table e []
def ReviewWork.l (w : ReviewWork) (e : Nat) : Nat := AMap.getD w.load e 0

/-- q(e) ≤ q(f), for the replica counts the review starts with. -/
def loadLe (load : AMap Nat Nat) (cnt : Nat → Nat) (e f : Nat) : Bool :=
  decide (AMap.getD load e 0 * cnt f ≤ AMap.getD load f 0 * cnt e)

/-- An expert put into an order. -/
def insertExpert (before : Nat → Nat → Bool) (e : Nat) : List Nat → List Nat
  | [] => [e]
  | f :: fs => if before e f then e :: f :: fs else f :: insertExpert before e fs

/-- Experts in an order, of equals the lower first. -/
def sortExperts (before : Nat → Nat → Bool) (es : List Nat) : List Nat :=
  es.reverse.foldl (fun fs e => insertExpert before e fs) []

/-- The load of a site: the sum of q over the replicas on it, as a fraction. -/
def siteLoad (w : ReviewWork) (cnt : Nat → Nat) (site : Nat) : Nat × Nat :=
  w.experts.foldl (fun a e =>
    let k := ((liveReps (w.entry e)).filter fun r => repSite (entReplica (w.entry e) r) == site).length
    if k = 0 then a else (a.1 * cnt e + k * w.l e * a.2, a.2 * cnt e)) (0, 1)

/-- Words of a spare-list entry (R421). -/
def State.spareWord (s : State) (l k i : Nat) : Nat :=
  s.lupRead (s.lupSlot l).lid ((s.lupSlot l).spare.toNat % 2 ^ 52 + 32 * k + 8 * i) 8

/-- The team, site and window of a spare. -/
def spareSite (w0 : Nat) : Nat := w0 % 64
def spareTeam (w0 : Nat) : Nat := bitsOf w0 47 24

/-- Whether a spare that replicas were retired from has left their grace interval, with no command of its window in
flight (R426). -/
def State.spareRested (s : State) (l k : Nat) : Bool :=
  let site := spareSite (s.spareWord l k 0)
  let slot := s.lupSlot l
  match AMap.find? k ((s.site site).lupSite l).rests with
  | none => true
  | some start =>
    decide (start + slot.graceTicks ≤ s.tick) &&
      (match s.windowReg slot.lid (s.spareWord l k 3 % 2 ^ 16) site with
        | some pa => regWord s pa 4 % 2 ^ 32 == 0
        | none => true)

/-- The free spares (R421, R426). -/
def State.freeSpares (s : State) (l : Nat) (w : ReviewWork) : List Nat :=
  (List.range 63).filter fun k =>
    bitOf (s.spareWord l k 0) 63 &&
      !(w.experts.any fun e => (liveReps (w.entry e)).any fun r => repSpare (entReplica (w.entry e) r) == k) &&
      s.spareRested l k

/-- The spare of least site load, the lowest of equals. -/
def leastLoaded (load : Nat → Nat × Nat) : List Nat → Option Nat
  | [] => none
  | k :: ks =>
    match leastLoaded load ks with
    | none => some k
    | some j => if (load j).1 * (load k).2 < (load k).1 * (load j).2 then some j else some k

/-- One expert's turn among the adds. -/
def State.reviewAdd (s : State) (l : Nat) (cnt : Nat → Nat) (w : ReviewWork) (e : Nat) : ReviewWork :=
  let slot := s.lupSlot l
  let t := w.entry e
  if slot.maxChanges ≤ w.n ∨ w.l e ≤ slot.hot * cnt e ∨ slot.maxReplicas ≤ cnt e then w
  else
    let sites := (liveReps t).map fun r => repSite (entReplica t r)
    let ks := (s.freeSpares l w).filter fun k => !sites.contains (spareSite (s.spareWord l k 0))
    match leastLoaded (fun k => siteLoad w cnt (spareSite (s.spareWord l k 0))) ks with
    | none => w
    | some k =>
      let w0 := s.spareWord l k 0
      let win := s.spareWord l k 3 % 2 ^ 16
      let r := ((List.range 8).find? fun r => !bitOf (entLive t) r).getD 0
      let word := win * 2 ^ 48 + spareTeam w0 * 2 ^ 24 + k * 2 ^ 8 + spareSite w0
      let t := setEntWord (setEntWord t (8 + r) word) 0 (setBits (entWord t 0) r r 1)
      { w with
        table := w.table.set e t
        n := w.n + 1
        changed := e :: w.changed
        copies := w.copies ++
          [(e, entWord t 1 % 2 ^ 52, s.spareWord l k 1, spareSite w0, entWord t 2 % 2 ^ 40)]
        spares := k :: w.spares
        adds := w.adds ++ [(e, r, spareSite w0, spareTeam w0, win)] }

/-- One expert's turn among the retirements. -/
def reviewRetire (slot : LupSlot) (cnt : Nat → Nat) (w : ReviewWork) (e : Nat) : ReviewWork :=
  let t := w.entry e
  if slot.maxChanges ≤ w.n ∨ w.changed.contains e ∨ slot.cold * cnt e ≤ w.l e ∨ cnt e ≤ 1 then w
  else
    match ((liveReps t).filter fun r => r != entOwner t).getLast? with
    | none => w
    | some r =>
      { w with
        table := w.table.set e (setEntWord t 0 (setBits (entWord t 0) r r 0))
        n := w.n + 1
        changed := e :: w.changed }

/-- The review's plan (R422).
DEDUCED (assumption 81). -/
def State.planReview (s : State) (l : Nat) (load : AMap Nat Nat) : ReviewWork :=
  let es := ((List.range 4096).map fun e => (e, s.committed l e)).filter fun p =>
    entValid p.2 && decide (0 < entCount p.2)
  let cnt := fun e => entCount (AMap.getD es e [])
  let ids := es.map Prod.fst
  let down := sortExperts (fun e f => loadLe load cnt f e) ids
  let up := sortExperts (fun e f => loadLe load cnt e f) ids
  let w : ReviewWork :=
    { table := es, experts := ids, load, n := 0, changed := [], copies := [], spares := [], adds := [] }
  up.foldl (reviewRetire (s.lupSlot l) cnt) (down.foldl (s.reviewAdd l cnt) w)

/-- The load counters of all live reticles summed, by expert. -/
def State.sumCounters (s : State) (l : Nat) : AMap Nat Nat :=
  s.liveSites.foldl (fun m n =>
    ((s.site n).lupSite l).cnt.foldl (fun (m : AMap Nat Nat) p => m.set p.1 (AMap.getD m p.1 0 + p.2)) m) []

/-- The load counters of all live reticles cleared. -/
def State.clearCounters (s : State) (l : Nat) : State :=
  s.liveSites.foldl (fun s n => s.modLupSite n l fun t => { t with cnt := [] }) s

/-- The FENCE tcn>c at wafer scope that the controller's CAS of G acts as (R422). -/
def lupFence : Fence := ⟨0b01011, 0b00010, 3⟩

/-- LINEUP_REVIEW (R422): the controller starts a review, unless a step is open.
DEDUCED (assumption 81). -/
def execLineupReview (l : Nat) (s : State) : Out :=
  s.unheld (.lineupReview l) fun s =>
    let slot := s.lupSlot l
    if !slot.en || !slot.auto then .next s
    else
      let s := s.due (.lineupReview l) slot.reviewTicks
      if slot.review.isSome || !s.lupRuns l then .next s
      else
        match s.gateCas l 0 0xFFFFFFFF with
        | (false, s) => .next s
        | (true, s) =>
          let s := s.fence lupFence .module
          let load := s.sumCounters l
          let s := s.clearCounters l
          let w := s.planReview l load
          if w.n = 0 then .next (s.openGate l slot.lid)
          else
            let r : Review :=
              { lid := slot.lid, table := w.table.filter fun p => w.changed.contains p.1, copies := w.copies
                spares := w.spares, adds := w.adds, acks := []
                version := nextLup ((s.site slot.csite).lupSite l).version, stage := .copying, site := slot.csite
                sent := 0 }
            .next ((s.modLupSlot l fun v => { v with review := some r }).due (.lineupCopiesDone l []) coreTicks)

/-! ## Copies (R423) -/

/-- Bytes copied on path c, by the controller, from one virtual address of a launch to another: none where some of them
cannot be read or written. -/
def State.lupCopy (lid : Nat) : (fuel : Nat) → State → (src dst n : Nat) → Option State
  | 0, _, _, _, _ => none
  | fuel + 1, s, src, dst, n =>
    if n = 0 then some s
    else
      let k := min n (min (pageSize - src % pageSize) (pageSize - dst % pageSize))
      match s.lupAddr lid src .read with
      | none => none
      | some (a, s) =>
        match s.lupAddr lid dst .write with
        | none => none
        | some (b, s) =>
          if s.badLoc 0 (.glob a) k then none
          else
            let (v, s) := s.seen .c .module 0 (.glob a) k
            State.lupCopy lid fuel (s.writeAs .c .module .nothing none 0 (.glob b) k v) (src + k) (dst + k) (n - k)

/-- The copies of a review made one after another: the experts whose copy failed. -/
def State.lupCopies (s : State) (lid : Nat) :
    List (Nat × Nat × Nat × Nat × Nat) → State × List Nat
  | [] => (s, [])
  | (e, src, dst, _, n) :: cs =>
    match State.lupCopy lid (n + 1) s src dst n with
    | none =>
      let r := s.lupCopies lid cs
      (r.1, e :: r.2)
    | some s => s.lupCopies lid cs

/-- LINEUP_COPIES_DONE (R423): the copies are made; any failure, of the copies or of the experts named, fails
the review. -/
def execLineupCopiesDone (l : Nat) (failed : List Nat) (s : State) : Out :=
  s.unheld (.lineupCopiesDone l failed) fun s =>
    match (s.lupSlot l).review with
    | none => .next s
    | some r =>
      if r.stage ≠ .copying ∨ !s.lupRuns l then .next s
      else
        let (s, bad) := s.lupCopies r.lid r.copies
        if bad.isEmpty ∧ failed.isEmpty then .next (s.due (.lineupPrepare l) 0)
        else .next (s.failReview l (bad ++ failed))

/-! ## Prepare (R424) -/

/-- EXPERT and REPLICA written into the registration of an added replica's window. -/
def State.registerReplica (s : State) (lid : Nat) (a : Nat × Nat × Nat × Nat × Nat) : State :=
  match s.windowReg lid a.2.2.2.2 a.2.2.1 with
  | some pa => s.writeAs .t .module .nothing none 0 (.glob (pa + 40)) 8 (setBits (setBits (regWord s pa 5) 11 0 a.1) 14 12 a.2.1)
  | none => s

/-- Memory with `n` bytes copied from one physical address to another. -/
def copyRange (m : Memory) (src dst n : Nat) : Memory :=
  let kept := m.filter fun c => !decide (dst ≤ c.1 ∧ c.1 < dst + n)
  m.foldl (fun k c => if src ≤ c.1 ∧ c.1 < src + n then k.put (c.1 - src + dst) c.2 else k) kept

/-- The bytes of a bank (R420). -/
def bankBytes : Nat := 2 ^ 19

/-- The review's table written into the other bank of one reticle, and PREPVER set there. -/
def State.prepareSite (s : State) (l : Nat) (r : Review) (n : Nat) : State :=
  let c := (s.lupSlot l).csite
  let from_ := s.lupEntryPa c l ((s.site c).lupSite l).sel 0
  let bank := 1 - ((s.site n).lupSite l).sel
  let s := { s with mem := copyRange s.mem from_ (s.lupEntryPa n l bank 0) bankBytes }
  let s := r.table.foldl (fun s p =>
    { s with
      mem := s.mem.write (s.lupEntryPa n l bank p.1) (p.2.flatMap fun w => bytesOfNat 8 w.toNat) }) s
  s.modLupSite n l fun t => { t with ver := .ofNat 64 (r.version * 2 ^ 32 + t.version) }

/-- A message from the reticle that runs a review to another, over the mesh. -/
def lupTrip (c n : Nat) : Nat := meshHops c n * hopTicks

/-- The commit broadcast to the live reticles, which are to acknowledge it (R425 step 1). -/
def State.broadcastLup (s : State) (l : Nat) (r : Review) (ns : List Nat) : State :=
  ns.foldl (fun s n => s.due (.lineupCommit l n) (lupTrip r.site n))
    (s.modLupSlot l fun v => { v with review := some { r with stage := .committing, acks := ns } })

/-- A preparation is out: the live reticles are to acknowledge it within 10 µs, each a round trip later (R424). -/
def State.awaitPrepared (s : State) (l : Nat) (r : Review) : State :=
  let ns := s.liveSites
  let s := s.modLupSlot l fun v => { v with review := some { r with stage := .prepared, acks := ns, sent := s.tick } }
  (ns.foldl (fun s n => s.due (.lineupPrepare l) (2 * lupTrip r.site n)) s).watchPrepare l tenMicros

/-- Barrel's first table (R420): where no table is committed, the controller is asked to commit version 1 from
the prepared banks; while a step of the launch is open, the commit waits (R427).
DEDUCED (assumption 81). -/
def State.firstTable (s : State) (l : Nat) : State :=
  let slot := s.lupSlot l
  match s.gateCas l 0 0xFFFFFFFF with
  | (false, s) => s.due (.lineupPrepare l) tenMicros
  | (true, s) =>
    (s.liveSites.foldl (fun s n => s.modLupSite n l fun t => { t with ver := .ofNat 64 (2 ^ 32 + t.version) })
      s).awaitPrepared l
      { lid := slot.lid, table := [], copies := [], spares := [], adds := [], acks := [], version := 1
        stage := .prepared, site := slot.csite, sent := 0 }

/-- The reticles whose acknowledgement of a preparation has not come: those it is not yet due from, and those that are
no longer live. -/
def State.unacked (s : State) (r : Review) : List Nat :=
  r.acks.filter fun n => (s.site n).off || decide (s.tick < r.sent + 2 * lupTrip r.site n)

/-- LINEUP_PREPARE (R424, R420): the table goes to the other bank of every live reticle; as acknowledgements come, the
last of them brings the commit.
DEDUCED (assumption 81). -/
def execLineupPrepare (l : Nat) (s : State) : Out :=
  s.unheld (.lineupPrepare l) fun s =>
    let slot := s.lupSlot l
    if !s.lupRuns l then .next s
    else
      match slot.review with
      | none => .next (if slot.en && ((s.site slot.csite).lupSite l).version == 0 then s.firstTable l else s)
      | some r =>
        match r.stage with
        | .copying =>
          let s := r.adds.foldl (fun s a => s.registerReplica r.lid a) s
          .next ((s.liveSites.foldl (fun s n => s.prepareSite l r n) s).awaitPrepared l r)
        | .prepared =>
          let acks := s.unacked r
          .next (if acks.isEmpty then s.broadcastLup l r s.liveSites
            else s.modLupSlot l fun v => { v with review := some { r with acks } })
        | .committing | .failing => .next s

/-- LINEUP_PREPARE_TIMEOUT (R424): a reticle has not acknowledged its preparation within 10 µs, or a review's end has
waited.
DEDUCED (assumption 81). -/
def execLineupPrepareTimeout (l : Nat) (s : State) : Out :=
  s.unheld (.lineupPrepareTimeout l) fun s =>
    match (s.lupSlot l).review with
    | some r =>
      .next (if r.stage = .failing ∨ (r.stage = .prepared ∧ s.lupRuns l) then s.failReview l [] else s)
    | none => .next s

/-! ## Commit (R425, R426) -/

/-- The replicas of a reticle that a commit retires, with the instant and the version: none where no table was
committed (R420). -/
def State.retired (s : State) (l site new : Nat) : AMap Nat (Nat × Nat) :=
  let t := (s.site site).lupSite l
  if t.version = 0 then []
  else (List.range 4096).flatMap fun e =>
    ((List.range 8).filter fun r => s.lupServes site l t.sel e r && !s.lupServes site l (1 - t.sel) e r).map
      fun r => (e * 8 + r, s.tick, new)

/-- The replicas of a reticle that are live after a commit. -/
def State.liveAfter (s : State) (l site k : Nat) : Bool :=
  s.lupServes site l (1 - ((s.site site).lupSite l).sel) (k / 8) (k % 8)

/-- The spare that each replica retired by a commit was on, with the instant (R426). -/
def State.resting (s : State) (l site : Nat) (gone : AMap Nat (Nat × Nat)) (m : AMap Nat Nat) : AMap Nat Nat :=
  let sel := ((s.site site).lupSite l).sel
  gone.foldl (fun (m : AMap Nat Nat) p => m.set (repSpare (s.lupWord site l sel (p.1 / 8) (8 + p.1 % 8))) s.tick) m

/-- One reticle takes the commit (R425 step 2). -/
def State.commitLup (s : State) (l site : Nat) (r : Review) : State :=
  let t := (s.site site).lupSite l
  if t.prepared ≠ r.version then s
  else
    let gone := s.retired l site r.version
    let grace := (t.grace.filter fun p => !s.liveAfter l site p.1) ++ gone
    let rests := s.resting l site gone t.rests
    let s := s.modLupSite site l fun t =>
      { t with bank := t.bank ^^^ 1, ver := .ofNat 64 r.version, grace, rests }
    s.report site 0x2600 7 noCore (s.tenantOf r.lid) (r.version % 2 ^ 24)

/-- LINEUP_COMMIT (R425): the broadcast reaches a reticle, which acknowledges it; one that is no longer live takes
nothing and is not waited for.
DEDUCED (assumption 81). -/
def execLineupCommit (l site : Nat) (s : State) : Out :=
  s.unheld (.lineupCommit l site) fun s =>
    match (s.lupSlot l).review with
    | none => .next s
    | some r =>
      if r.stage ≠ .committing ∨ !r.acks.contains site then .next s
      else
        let s := if (s.site site).off then s else s.commitLup l site r
        let acks := r.acks.filter (· != site)
        let s := s.modLupSlot l fun v => { v with review := some { r with acks } }
        .next (if acks.isEmpty then s.due (.lineupCommitAcked l) (lupTrip r.site site) else s)

/-- The counts of replicas stored (R425 step 3). -/
def State.storeCounts (s : State) (l site lid : Nat) : State :=
  (List.range 4096).foldl (fun s e =>
    match s.lupAddr lid ((s.lupSlot l).nrep.toNat % 2 ^ 52 + e) .write with
    | none => s
    | some (pa, s) =>
      let t := s.committedAt site l e
      s.writeAs .t .module .nothing none 0 (.glob pa) 1 (if entValid t then entCount t else 0)) s

/-- R429 step 3: the standby is the slot's controller from now on, with no standby of its own. -/
def State.takeOver (s : State) (l : Nat) : State :=
  let s := s.modLupSlot l fun v => { v with cfg := .ofNat 64 (setBits v.cfg.toNat 55 50 v.ssite), missed := 0 }
  (List.range siteCount).foldl (fun s k => s.modLupSite k l fun t => { t with stat := t.stat ||| 1 }) s

/-- LINEUP_COMMIT_ACKED (R425 steps 3 and 4); a standby that made them then takes over (R429). -/
def execLineupCommitAcked (l : Nat) (s : State) : Out :=
  s.unheld (.lineupCommitAcked l) fun s =>
    match (s.lupSlot l).review with
    | none => .next s
    | some r =>
      if r.stage ≠ .committing ∨ !r.acks.isEmpty ∨ !s.lupRuns l then .next s
      else
        let s := (s.storeCounts l r.site r.lid).openGate l r.lid
        let s := if r.site = (s.lupSlot l).csite then s else s.takeOver l
        .next (s.modLupSlot l fun v => { v with review := none })

/-! ## The standby (R428, R429) -/

/-- LINEUP_HEARTBEAT (R428, R429): a heartbeat is due; one that a lost controller does not send, or that does not arrive,
is missed, and after three the standby takes over. -/
def execLineupHeartbeat (l : Nat) (arrives : Bool) (s : State) : Out :=
  let slot := s.lupSlot l
  if !slot.en || slot.csite == slot.ssite then .next s
  else
    let missed := if arrives && !(s.site slot.csite).off then 0 else slot.missed + 1
    let s := s.modLupSlot l fun v => { v with missed }
    .next (if 3 ≤ missed then s.due (.lineupTakeover l) 0 else s.due (.lineupHeartbeat l true) beatTicks)

/-- The latest version that a live reticle has committed, and whether another has an older one. -/
def State.newestLup (s : State) (l : Nat) : Nat × Bool :=
  let vs := s.liveSites.map fun n => ((s.site n).lupSite l).version
  let m := vs.foldl (fun a b => if a = 0 ∨ (b ≠ 0 ∧ lupLater a b) then b else a) 0
  (m, vs.any fun v => v != m)

/-- R429 step 1: the standby broadcasts the newer version again, to the reticles without it; steps 3 and 4 of R425 follow
when all have acknowledged. -/
def State.rebroadcast (s : State) (l v : Nat) : State :=
  let slot := s.lupSlot l
  s.broadcastLup l
    { lid := slot.lid, table := [], copies := [], spares := [], adds := [], acks := [], version := v
      stage := .committing, site := slot.ssite, sent := 0 }
    (s.liveSites.filter fun n => ((s.site n).lupSite l).version != v)

/-- R429 step 2: an unfinished review undone. -/
def State.undoReview (s : State) (l : Nat) : State :=
  let s := (s.unprepare l).modLupSlot l fun t => { t with review := none }
  (s.gateCas l 0xFFFFFFFF 0).2

/-- LINEUP_TAKEOVER (R429): the standby, where it is live and has not begun to. -/
def execLineupTakeover (l : Nat) (s : State) : Out :=
  s.unheld (.lineupTakeover l) fun s =>
    let slot := s.lupSlot l
    if !slot.en || slot.csite == slot.ssite || (s.site slot.ssite).off || slot.review.any (·.site == slot.ssite) then
      .next s
    else
      let (v, apart) := s.newestLup l
      .next (if apart then s.rebroadcast l v else (s.undoReview l).takeOver l)

end Sys2Proof.Machine
end

