-- ==== Sys2Proof/Machine/TrapQueue.lean ====
section
/-! DEFINITION. Barrel's trap queue (R322): the reports written, and the actions of R323 on them; and the
steps that trap a whole gang at a fetch (R174, R185). -/

namespace Sys2Proof.Machine

/-- ILLEGAL_OPCODE and ZERO_WORD (R181 steps 2 and 3, R185): every thread of the gang traps.
DEDUCED (assumption 88). -/
def execIllegalOpcode (zero : Bool) (s : State) : Out :=
  fetchTrap (if zero then Cause.zeroWord else Cause.illegalOpcode) 0 s

/-- CODE_BOUNDS (R174): a byte of the instruction lies outside the code object.
DEDUCED (assumption 88). -/
def execCodeBounds (s : State) : Out := fetchTrap Cause.codeBounds 0 s

/-! ## Reports (R322) -/

/-- TRAPQCFG's fields. -/
def Site.trapEn (st : Site) : Bool := st.trapqcfg.getLsbD 31
def Site.trapSize (st : Site) : Nat := 2 ^ (st.trapqcfg.toNat % 16 + 6)

/-- The reports of the ring that Barrel has not read. -/
def Site.trapFilled (st : Site) : Nat :=
  (st.trapqtail.toNat + 2 ^ 32 - st.trapqhead.toNat) % 2 ^ 32

/-- R327: every long-latency instruction of the report's threads has completed or faulted.
DEDUCED (assumption 53). -/
def State.reportable (s : State) (r : Report) : Bool :=
  r.threads.all fun t => (s.thread t).windows.all (·.complete)

/-- The four words of a report. -/
def Report.words (r : Report) : List Nat :=
  [r.lid * 2 ^ 32 + r.cause * 2 ^ 24 + r.flags * 2 ^ 16 + r.core, r.lanes.toNat,
    r.tslot * 2 ^ 56 + r.issued * 2 ^ 52 + r.pc.toNat % 2 ^ 52, r.addr.toNat]

/-- The address space of Barrel's rings: the system launch's (R356).
DEDUCED (assumption 53). -/
def State.barrelSpace (s : State) : Option Space :=
  (List.find? (fun p : Nat × Launch => p.2.system) s.launches).map fun p => p.2.space

/-- The place of the next report.
DEDUCED (assumption 53). -/
def State.trapSlot (s : State) (site : Nat) : Except TransFault (Nat × State) :=
  let st := s.site site
  match s.barrelSpace with
  | none => .error Cause.protection
  | some sp =>
    s.translateAccess sp (bitsOf st.trapqbase.toNat 51 8 * 256 +
        32 * (st.trapqtail.toNat % st.trapSize)) .write

/-- 64-bit words written in order. -/
def State.putWords (s : State) : (pa : Nat) → List Nat → State
  | _, [] => s
  | pa, w :: ws => (s.writeLoc 0 (.glob pa) 8 w).putWords (pa + 8) ws

/-- R372: a BREAKPOINT report halts an in-scope core in the halt-capable state.
DEDUCED (assumption 55). -/
def State.breakpointHalt (s : State) (r : Report) : State :=
  if r.cause = Cause.breakpoint ∧ s.haltCapable ∧ s.inScope r.core then s.haltCore r.core 2 else s

/-- TRAP_REPORT (R322, R327): the next report whose threads' long-latency instructions are complete is
written, where the ring is enabled and has room.
DEDUCED (assumption 53). -/
def execTrapReport (site : Nat) (s : State) : Out :=
  let st := s.site site
  if !st.trapEn || decide (st.trapSize ≤ st.trapFilled) then .next s
  else
    match st.waiting.find? s.reportable with
    | none => .next (if st.waiting.isEmpty then s else s.due (.trapReport site) coreTicks)
    | some r =>
      match s.trapSlot site with
      | .error c => .next (if c = heldCause then s.due (.trapReport site) coreTicks else s)
      | .ok (pa, s) =>
        let s := (s.putWords pa r.words).modSite site fun st =>
          { st with
            waiting := withoutFirst s.reportable st.waiting
            reports := st.reports.set st.trapqtail.toNat r
            trapqtail := st.trapqtail + 1 }
        let s := s.breakpointHalt r
        .next (if (s.site site).waiting.isEmpty then s else s.due (.trapReport site) 0)

/-- TRAPQHEAD_WRITE (R322): Barrel has read reports, and those that wait for room are written. -/
def execTrapqheadWrite (site : Nat) (v : Word) (s : State) : Out :=
  .next ((s.modSite site fun st => { st with trapqhead := v }).due (.trapReport site) 0)

/-! ## Actions (R323) -/

/-- The report that an action names, with its threads still in trap delivery. -/
def State.reportAt (s : State) (site : Nat) (idx : Word) : Option Report :=
  (AMap.find? idx.toNat (s.site site).reports).map fun r =>
    { r with threads := r.threads.filter fun t => (s.thread t).status == .trapped }

/-- An action on a report with threads in trap delivery; none on any other.
DEDUCED (assumption 54). -/
def State.act (s : State) (site action : Nat) (idx : Word) (f : Report → State → State) : Out :=
  let s := s.modSite site fun st => { st with trapact := .ofNat 64 (action * 2 ^ 61 + idx.toNat) }
  match s.reportAt site idx with
  | none => .next s
  | some r => .next (if r.threads.isEmpty then s else f r s)

/-- A thread that resumes at its resume PC (R326), its lookahead state as it was kept (R183, R327). Its core settles the
lead of its squad (R40).
DEDUCED (assumption 54). -/
def State.resume (s : State) (t : Tid) : State := (s.goto t (s.thread t).resume).wake t

/-- TRAPACT, resume. -/
def execTrapactResume (site : Nat) (idx : Word) (s : State) : Out :=
  s.act site 0 idx fun r s => r.threads.foldl State.resume (s.leaveDelivery r.threads)

/-- Forwarding one thread (R324): none where its call stack has no room for the frame.
DEDUCED (assumption 54). -/
def State.forward (s : State) (t : Tid) : Option State :=
  (s.push t (s.thread t).resume).map fun s =>
    (s.modThread t fun th => th.enterHandler (s.launchOf t)).wake t

/-- Threads forwarded in order; where one has no room for its frame, the launch ends (R324). -/
def State.forwardAll (s : State) (lid : Nat) : List Tid → State
  | [] => s
  | t :: ts =>
    match s.forward t with
    | some s => s.forwardAll lid ts
    | none => s.endLaunch lid Cause.callStackOverflow

/-- TRAPACT, forward: end launch where the launch has no handler, or the threads are in it, or their state
is lost (R323). -/
def execTrapactForward (site : Nat) (idx : Word) (s : State) : Out :=
  s.act site 1 idx fun r s =>
    if !(s.launch r.lid).hv || r.threads.any fun t => (s.thread t).hnd || (s.thread t).trapCause.getLsbD 20 then
      s.endLaunch r.lid r.cause
    else (s.leaveDelivery r.threads).forwardAll r.lid r.threads

/-- TRAPACT, end threads. -/
def execTrapactEndThreads (site : Nat) (idx : Word) (s : State) : Out :=
  s.act site 2 idx fun r s => s.endThreads r.threads

/-- TRAPACT, end launch. -/
def execTrapactEndLaunch (site : Nat) (idx : Word) (s : State) : Out :=
  s.act site 3 idx fun r s => s.endLaunch r.lid r.cause

end Sys2Proof.Machine
end

