-- ==== Sys2Proof/Machine/Registers.lean ====
section
/-! DEFINITION. Writes of the device registers (R2): a write with a 1 in an RSV bit is ignored whole; RO fields
keep their values; registers with an effect of their own act through the step that has it. -/

namespace Sys2Proof.Machine

/-- A value has a 1 outside a mask (R2). -/
def rsvSet (v mask : Nat) : Bool := (BitVec.ofNat 64 v &&& ~~~BitVec.ofNat 64 mask) != 0

/-- A register that is written whole where no RSV bit is set. -/
def plainWrite (v mask : Nat) (s s' : State) : Out := .next (if rsvSet v mask then s else s')

/-- A change of a Lineup slot's registers, ignored while it is enabled (R419). -/
def lupWrite (l v : Nat) (mask : Nat) (f : LupSlot → LupSlot) (s : State) : Out :=
  if 4 ≤ l || (s.lupSlot l).en then .next s else plainWrite v mask s (s.modLupSlot l f)

/-- A write of TRAPACT (R322, R323). -/
def trapactWrite (site v : Nat) (s : State) : Out :=
  if bitsOf v 60 32 ≠ 0 then .next s
  else
    let idx := BitVec.ofNat 32 v
    match v / 2 ^ 61 with
    | 0 => execTrapactResume site idx s
    | 1 => execTrapactForward site idx s
    | 2 => execTrapactEndThreads site idx s
    | 3 => execTrapactEndLaunch site idx s
    | _ => .next s

/-- No steering interval of a site due. -/
def State.quietSteering (s : State) (site : Nat) : State :=
  { s with agenda := s.agenda.filter fun d =>
      match d.ev with
      | .steerInterval n _ _ => n != site
      | _ => true }

/-- A write of STEERCFG (R405): its intervals begin. -/
def steercfgWrite (site v : Nat) (s : State) : Out :=
  if bitsOf v 62 32 ≠ 0 then .next s
  else
    let s := (s.quietSteering site).modSite site fun st => { st with steercfg := .ofNat 64 v }
    .next (if bitOf v 63 then s.nextInterval site else s)

/-- A write of the shadow bank (R391): ignored while PREP is 1, and where a reserved bit of the external port word
would be set (R2, R392). -/
def shadowWrite (site off v : Nat) (s : State) : Out :=
  if (s.site site).prep || decide (0x240 < off + 8) || (off == 0x208 && bitsOf v 63 6 != 0) then .next s
  else .next (s.modSite site fun st => { st with shadowBank := st.shadowBank.writeNat off 8 v })

/-- The bits of `old` but those at which `v` has a 1 within a mask (W1C).
DEDUCED (assumption 82). -/
def clearOnes (old : DWord) (v mask : Nat) : DWord := old &&& ~~~(BitVec.ofNat 64 v &&& BitVec.ofNat 64 mask)

/-- The effect of a write on a device register itself (R2).
DESIGN CHOICE (assumption 22). DEDUCED (assumption 82). -/
def writeRegister (r : DevReg) (v : DWord) (s : State) : Out :=
  let n := v.toNat
  let w := BitVec.ofNat 32 n
  match r with
  | .lqbase q => plainWrite n 0x000FFFFFFFFFFF00 s (s.modQueue q fun lq => { lq with base := v })
  | .lqcfg q => execLqcfgWrite q w s
  | .lqtail q => execLqtailWrite q w s
  | .lqhead _ => .next s
  | .lqpt q => plainWrite n 0x0000FFFFFFFF8FFF s (s.modQueue q fun lq => { lq with pt := v })
  | .sealhome k => plainWrite n 0x8000003F s { s with sealHome := s.sealHome.set k v }
  | .sealpbase k => plainWrite n 0x000003FFFFFF0000 s (s.modSite k fun st => { st with sealpbase := v })
  | .sealpcfg k => plainWrite n 0x80000000FFFFFFFF s (s.modSite k fun st => { st with sealpcfg := v })
  | .sealpfree _ => .next s
  | .trapqbase k => plainWrite n 0x000FFFFFFFFFFF00 s (s.modSite k fun st => { st with trapqbase := v })
  | .trapqcfg k =>
    plainWrite (n % 2 ^ 32) 0x8000000F s ((s.modSite k fun st => { st with trapqcfg := w }).due (.trapReport k) 0)
  | .trapqtail _ => .next s
  | .trapqhead k => execTrapqheadWrite k w s
  | .trapact k => trapactWrite k n s
  | .wregbase k => plainWrite n 0x0000FFFFFFFFFFC0 s (s.modSite k fun st => { st with wregbase := v })
  | .wregcfg k => plainWrite (n % 2 ^ 32) 0x8000000F s (s.modSite k fun st => { st with wregcfg := w })
  | .biasbase k => plainWrite n 0x000003FFFFFF0000 s (s.modSite k fun st => { st with biasbase := v })
  | .biascmd k => if bitOf n 62 then execBiasToHost k v s else execBiasToDevice k v s
  | .l2cfg k => execL2cfgWrite k v s
  | .l2live k => execL2liveWrite k v s
  | .chremap k => execChremapWrite k v s
  | .ctxbase c k => .next (s.modSite (siteOf c) fun st => { st with ctxbase := st.ctxbase.set (c, k) v })
  | .obrec _ _ => .next s
  | .netver k => execNetverWrite k v s
  | .netcommit k => execNetcommitWrite k w s
  | .netroot => .next s
  | .shadowBank k off => shadowWrite k off n s
  | .activeBank _ _ => .next s
  | .optlink _ _ => .next s
  | .optskew _ => .next s
  | .steercfg k => steercfgWrite k n s
  | .linkdly _ _ => .next s
  | .wtstatus => .next s
  | .dbgstate => .next s
  | .pwrstat _ => .next s
  | .bltcfg k t => execBltcfgWrite k t v s
  | .bltbase k t =>
    if 8 ≤ t then .next s
    else plainWrite n 0x000003FFFFFFF000 s (s.modStream k t fun st => { st with base := v })
  | .blttail _ _ => .next s
  | .blthead k t => execBltheadWrite k t v s
  | .bltstat k t =>
    if 8 ≤ t ∨ bitsOf n 29 0 ≠ 0 then .next s
    else .next (s.modStream k t fun st => { st with stat := clearOnes st.stat n 0xFFFFFFFF80000000 })
  | .lupcfg l => execLupcfgWrite l v s
  | .luppol l => lupWrite l n 0xFFFFFFFFFFFFFFFF (fun t => { t with pol := v }) s
  | .lupgate l => lupWrite l n 0x000FFFFFFFFFFFFF (fun t => { t with gate := v }) s
  | .lupnrep l => lupWrite l n 0x000FFFFFFFFFFFFF (fun t => { t with nrep := v }) s
  | .lupspare l => lupWrite l n 0x000FFFFFFFFFFFFF (fun t => { t with spare := v }) s
  | .lupbank k l =>
    plainWrite n 0x000003FFFFF00001 s (s.modLupSite k l fun t =>
      { t with bank := .ofNat 64 (setBits n 0 0 (t.bank.toNat % 2)) })
  | .lupver _ _ => .next s
  | .lupstat k l =>
    plainWrite n 0xFFFF000FFF000001 s (s.modLupSite k l fun t =>
      { t with stat := clearOnes t.stat n 0xFFFF000000000001 })
  | .lupcnt _ _ _ => .next s
  | .sfault _ => .next s
  | .sfaddr _ => .next s
  | .defmap _ => .next s

/-- REGISTER_WRITE (R2): a device register written by Barrel, or by the debug port. A WAITW on a word of it
that now differs wakes (R227).
DESIGN CHOICE (assumption 22). DEDUCED (assumption 82). -/
def execRegisterWrite (r : DevReg) (v : DWord) (s : State) : Out :=
  match writeRegister r v s with
  | .next s => .next (s.notifyRegister r)
  | o => o

end Sys2Proof.Machine
end

