-- ==== Sys2Proof/Machine/Accesses.lean ====
section
/-! DEFINITION. Stores and atomics (R220-R226) as the instructions make them: an access to a word of register
space is one event at the register itself (R21), whose effect is made before the next lane's access (R82). -/

namespace Sys2Proof.Machine

/-- The register write that an agenda entry is, if it is one. -/
def Due.asked (d : Due) : Option (DevReg × DWord) :=
  match d.ev with
  | .registerWrite r v => some (r, v)
  | _ => none

/-- The register writes that have been asked for since the agenda had `n` entries. -/
def State.askedSince (s : State) (n : Nat) : List (DevReg × DWord) := (s.agenda.drop n).filterMap Due.asked

/-- The state with none of them asked for. -/
def State.withoutAsked (s : State) (n : Nat) : State :=
  { s with agenda := s.agenda.take n ++ (s.agenda.drop n).filter fun d => d.asked.isNone }

/-- Register writes that take effect, in order. -/
def State.writeRegisters (s : State) : List (DevReg × DWord) → State
  | [] => s
  | w :: ws =>
    (match execRegisterWrite w.1 w.2 s with
      | .next s' => s'
      | _ => s).writeRegisters ws

/-- A state `v` that came of `s`, with the register writes made that were asked for in between. -/
def State.registersWritten (s v : State) : State :=
  (v.withoutAsked s.agenda.length).writeRegisters (v.askedSince s.agenda.length)

/-- A lane's access of which a write to register space is part (R21, R82): the register has the value before
the next lane acts. A thread that the register's effect has ended goes no further.
DESIGN CHOICE (assumption 22). -/
def atRegister (lane : Issue → Tid → State → LaneOut) (i : Issue) (t : Tid) (s : State) : LaneOut :=
  match lane i t s with
  | .next s' =>
    if (s'.askedSince s.agenda.length).isEmpty then .next s'
    else
      let s' := s.registersWritten s'
      if (s'.thread t).status == .ready then .next s' else .stop s'
  | o => o

/-- ST (R220), base form: a 4-byte store. -/
def execSt (i : BitVec 8) (a d : BitVec 7) (s : State) : Out :=
  simt .st (.bi i a d) 4 true (atRegister laneSt) s

/-- ST (R220), extended form. -/
def execStExt (x : Ext) (s : State) : Out := simt .st x x.len true (atRegister laneSt) s

/-- ATOM (R222): a returning atomic. -/
def execAtom (x : Ext) (s : State) : Out := simt .atom x x.len true (atRegister laneAtom) s

/-- RED (R223): an atomic without return. -/
def execRed (x : Ext) (s : State) : Out := simt .red x x.len true (atRegister laneRed) s

/-- CAS (R224): compare and swap. -/
def execCas (x : Ext) (s : State) : Out := simt .cas x x.len true (atRegister laneCas) s

/-- FADDW (R226): an add that wakes. -/
def execFaddw (x : Ext) (s : State) : Out := simt .faddw x x.len true (atRegister laneFaddw) s

end Sys2Proof.Machine
end

