-- ==== Sys2Proof/Machine/Crypto.lean ====
section
/-! DEFINITION. The signatures that R358, R359 and R361 name: ECDSA on the curve P-384 (FIPS 186-5), and LMS with
LMS_SHA256_M32_H20 over LMOTS_SHA256_N32_W8. The manual names the schemes; their constants and their steps are
those of FIPS 186-5, FIPS 180-4 and RFC 8554. -/

namespace Sys2Proof.Machine

/-! ## SHA-256 -/

/-- The round constants and the initial value: the first 32 bits where SHA-384 takes 64.
PRESUMED (assumption 19). -/
def sha256K : List Word := (sha2K.take 64).map fun k => .ofNat 32 (k.toNat / 2 ^ 32)
def sha256Init : List Word := (sha2Primes.take 8).map fun p => .ofNat 32 (rootBits 2 p 70 0 / 2 ^ 32)

/-- The message schedule, the newest word first, `n` words still to add. -/
def sha256Schedule : (n : Nat) → List Word → List Word
  | 0, w => w
  | n + 1, w =>
    let w2 := w.getD 1 0
    let w15 := w.getD 14 0
    let s1 := w2.rotateRight 17 ^^^ w2.rotateRight 19 ^^^ (w2 >>> 10)
    let s0 := w15.rotateRight 7 ^^^ w15.rotateRight 18 ^^^ (w15 >>> 3)
    sha256Schedule n ((s1 + w.getD 6 0 + s0 + w.getD 15 0) :: w)

/-- One round on the eight working words. -/
def sha256Round (v : List Word) (kw : Word × Word) : List Word :=
  let g := fun i => v.getD i 0
  let e := g 4
  let a := g 0
  let t1 := g 7 + (e.rotateRight 6 ^^^ e.rotateRight 11 ^^^ e.rotateRight 25) +
    ((e &&& g 5) ^^^ (~~~e &&& g 6)) + kw.1 + kw.2
  let t2 := (a.rotateRight 2 ^^^ a.rotateRight 13 ^^^ a.rotateRight 22) +
    ((a &&& g 1) ^^^ (a &&& g 2) ^^^ (g 1 &&& g 2))
  [t1 + t2, a, g 1, g 2, g 3 + t1, e, g 5, g 6]

/-- One block of 64 bytes. -/
def sha256Block (h : List Word) (block : List Byte) : List Word :=
  let w := (List.range 16).map fun i => BitVec.ofNat 32 (natOfBytesBe ((block.drop (4 * i)).take 4))
  let v := (List.zip sha256K (sha256Schedule 48 w.reverse).reverse).foldl sha256Round h
  List.zipWith (· + ·) h v

/-- The message's blocks, `n` of them. -/
def sha256Blocks : (n : Nat) → List Word → List Byte → List Word
  | 0, h, _ => h
  | n + 1, h, m => sha256Blocks n (sha256Block h (m.take 64)) (m.drop 64)

/-- The message with its padding and length. -/
def sha256Pad (m : List Byte) : List Byte :=
  m ++ [0x80] ++ List.replicate ((119 - m.length % 64) % 64) 0 ++ bytesBe 8 (8 * m.length)

/-- SHA-256.
PRESUMED (assumption 19). -/
def sha256 (m : List Byte) : List Byte :=
  let p := sha256Pad m
  (sha256Blocks (p.length / 64) sha256Init p).flatMap fun w => bytesBe 4 w.toNat

/-! ## The curve P-384 -/

/-- The field, the order of the base point, the curve's second coefficient (the first is −3), and the base
point.
PRESUMED (assumption 19). -/
def curveP : Nat := 2 ^ 384 - 2 ^ 128 - 2 ^ 96 + 2 ^ 32 - 1
def curveN : Nat :=
  0xffffffffffffffffffffffffffffffffffffffffffffffffc7634d81f4372ddf581a0db248b0a77aecec196accc52973
def curveB : Nat :=
  0xb3312fa7e23ee7e4988e056be3f82d19181d9c6efe8141120314088f5013875ac656398d8a2ed19d2a85c8edd3ec2aef
def curveG : Nat × Nat :=
  (0xaa87ca22be8b05378eb1c71ef320ad746e1d3b628ba79b9859f741e082542a385502f25dbf55296c3a545e3872760ab7,
   0x3617de4a96262c6f5d9e98bf9292dc29f8f41dbd289a147ce9da3113b5f0b8c00a60b1ce1d7e819d7a431d7c90ea0e5f)

/-- A power of a number in the integers modulo m, of the low `bits` bits of the exponent. -/
def powMod (m : Nat) : (bits a e : Nat) → Nat
  | 0, _, _ => 1
  | bits + 1, a, e => (if e % 2 = 1 then a else 1) * powMod m bits (a * a % m) (e / 2) % m

/-- The inverse modulo a prime of at most 384 bits. -/
def invMod (m a : Nat) : Nat := powMod m 384 (a % m) (m - 2)

/-- A point of the curve; none is the point at infinity. -/
abbrev CurvePoint : Type := Option (Nat × Nat)

/-- The point on the line of a slope through two points of the curve, reflected. -/
def chord (slope x y x2 : Nat) : CurvePoint :=
  let x3 := (slope * slope + 2 * curveP - x - x2) % curveP
  some (x3, (slope * (x + curveP - x3) + curveP - y) % curveP)

/-- The sum of two points. -/
def CurvePoint.add : CurvePoint → CurvePoint → CurvePoint
  | none, q => q
  | p, none => p
  | some (x, y), some (u, v) =>
    if x = u then
      (if (y + v) % curveP = 0 then none
      else chord ((3 * x * x + curveP - 3) * invMod curveP (2 * y) % curveP) x y u)
    else chord ((v + curveP - y) * invMod curveP (u + curveP - x) % curveP) x y u

/-- A multiple of a point, of the low `bits` bits of the number. -/
def CurvePoint.mul : (bits k : Nat) → CurvePoint → CurvePoint
  | 0, _, _ => none
  | bits + 1, k, p => CurvePoint.add (if k % 2 = 1 then p else none) (CurvePoint.mul bits (k / 2) (CurvePoint.add p p))

/-- A pair of coordinates lies on the curve. -/
def onCurve (x y : Nat) : Bool :=
  decide (x < curveP) && decide (y < curveP) &&
    y * y % curveP == (x * x * x + (curveP - 3) * x + curveB) % curveP

/-! ## ECDSA (FIPS 186-5) -/

/-- A public key as bytes: its coordinates, 48 bytes each, the highest byte first.
PRESUMED (assumption 19). -/
def pointBytes : CurvePoint → List Byte
  | some (x, y) => bytesBe 48 x ++ bytesBe 48 y
  | none => []

/-- Whether an ECDSA signature r, s over a digest of 48 bytes is good under a public key.
PRESUMED (assumption 19). -/
def ecdsaGood (key digest sig : List Byte) : Bool :=
  let x := natOfBytesBe (key.take 48)
  let y := natOfBytesBe (key.drop 48)
  let r := natOfBytesBe (sig.take 48)
  let s := natOfBytesBe (sig.drop 48)
  let w := invMod curveN s
  key.length == 96 && sig.length == 96 && onCurve x y && decide (0 < r ∧ r < curveN ∧ 0 < s ∧ s < curveN) &&
    (match CurvePoint.add (CurvePoint.mul 384 (natOfBytesBe digest * w % curveN) (some curveG))
        (CurvePoint.mul 384 (r * w % curveN) (some (x, y))) with
      | some (u, _) => u % curveN == r
      | none => false)

/-- The ECDSA signature over a digest with a private key: with the first of a run of per-message numbers that
gives neither r nor s as 0.
PRESUMED (assumption 19). -/
def ecdsaSign (d : Nat) (digest : List Byte) : List Nat → List Byte
  | [] => []
  | k :: ks =>
    let r := match CurvePoint.mul 384 (k % curveN) (some curveG) with
      | some (x, _) => x % curveN
      | none => 0
    let s := invMod curveN k * (natOfBytesBe digest + r * d) % curveN
    if r = 0 ∨ s = 0 then ecdsaSign d digest ks else bytesBe 48 r ++ bytesBe 48 s

/-! ## LMS (RFC 8554) -/

/-- The typecodes of LMS_SHA256_M32_H20 and LMOTS_SHA256_N32_W8, the height of the tree, and the number of
chains of a one-time key.
PRESUMED (assumption 19). -/
def lmsType : Nat := 8
def lmotsType : Nat := 4
def lmsHeight : Nat := 20
def lmotsChains : Nat := 34

/-- The number of leaves. -/
def lmsLeaves : Nat := 2 ^ lmsHeight

/-- The hash of one node of the tree, or of a one-time key: the key's identifier, a number, a tag and a body. -/
def lmsHash (id : List Byte) (node tag : Nat) (body : List Byte) : List Byte :=
  sha256 (id ++ bytesBe 4 node ++ bytesBe 2 tag ++ body)

/-- The hash of a message under a leaf, with its checksum: a byte for each chain. -/
def lmotsDigits (id : List Byte) (q : Nat) (c msg : List Byte) : List Byte :=
  let h := lmsHash id q 0x8181 (c ++ msg)
  h ++ bytesBe 2 ((h.map fun b => 255 - b.toNat).sum)

/-- `n` steps of a chain from step j. -/
def lmotsChain (id : List Byte) (q i : Nat) : (n j : Nat) → List Byte → List Byte
  | 0, _, y => y
  | n + 1, j, y => lmotsChain id q i n (j + 1) (sha256 (id ++ bytesBe 4 q ++ bytesBe 2 i ++ bytesBe 1 j ++ y))

/-- The one-time public key from the ends of its chains. -/
def lmotsKey (id : List Byte) (q : Nat) (ends : List (List Byte)) : List Byte := lmsHash id q 0x8080 ends.flatten

/-- The root of the tree above a node, from the path, `n` levels of it. -/
def lmsClimb (id : List Byte) : (n node : Nat) → (value path : List Byte) → List Byte
  | 0, _, value, _ => value
  | n + 1, node, value, path =>
    let sib := path.take 32
    lmsClimb id n (node / 2)
      (lmsHash id (node / 2) 0x8383 (if node % 2 = 1 then sib ++ value else value ++ sib)) (path.drop 32)

/-- Whether an LMS signature of 1,772 bytes over a message is good under a public key: its typecodes, an
identifier of 16 bytes, and the root. The signature is q, the one-time signature, the type, and the path.
PRESUMED (assumption 19). -/
def lmsGood (key msg sig : List Byte) : Bool :=
  let id := (key.drop 8).take 16
  let q := natOfBytesBe (sig.take 4)
  let ots := sig.drop 4
  let digits := lmotsDigits id q ((ots.drop 4).take 32) msg
  let ends := (List.range lmotsChains).map fun i =>
    let a := (digits.getD i 0).toNat
    lmotsChain id q i (255 - a) a ((ots.drop (36 + 32 * i)).take 32)
  let leaf := lmsHash id (lmsLeaves + q) 0x8282 (lmotsKey id q ends)
  key.length == 56 && sig.length == 1772 && natOfBytesBe (key.take 4) == lmsType &&
    natOfBytesBe ((key.drop 4).take 4) == lmotsType && natOfBytesBe (ots.take 4) == lmotsType &&
    natOfBytesBe ((sig.drop 1128).take 4) == lmsType && decide (q < lmsLeaves) &&
    lmsClimb id lmsHeight (lmsLeaves + q) leaf (sig.drop 1132) == key.drop 24

/-- An LMS private key: its identifier, and the start of each chain of each leaf. -/
structure LmsSecret where
  id : List Byte
  start : (leaf chain : Nat) → List Byte

/-- The one-time public key of a leaf. -/
def LmsSecret.leafKey (k : LmsSecret) (q : Nat) : List Byte :=
  lmotsKey k.id q ((List.range lmotsChains).map fun i => lmotsChain k.id q i 255 0 (k.start q i))

/-- The value of a node whose subtree has `n` levels. -/
def LmsSecret.node (k : LmsSecret) : (n node : Nat) → List Byte
  | 0, r => lmsHash k.id r 0x8282 (k.leafKey (r - lmsLeaves))
  | n + 1, r => lmsHash k.id r 0x8383 (LmsSecret.node k n (2 * r) ++ LmsSecret.node k n (2 * r + 1))

/-- The public key.
PRESUMED (assumption 19). -/
def LmsSecret.public (k : LmsSecret) : List Byte :=
  bytesBe 4 lmsType ++ bytesBe 4 lmotsType ++ k.id ++ k.node lmsHeight 1

/-- The signature over a message with a leaf and a random string of 32 bytes.
PRESUMED (assumption 19). -/
def LmsSecret.sign (k : LmsSecret) (q : Nat) (c msg : List Byte) : List Byte :=
  let digits := lmotsDigits k.id q c msg
  let ys := (List.range lmotsChains).flatMap fun i => lmotsChain k.id q i (digits.getD i 0).toNat 0 (k.start q i)
  let path := (List.range lmsHeight).flatMap fun n =>
    let r := (lmsLeaves + q) / 2 ^ n
    k.node n (if r % 2 = 1 then r - 1 else r + 1)
  bytesBe 4 q ++ (bytesBe 4 lmotsType ++ c ++ ys) ++ bytesBe 4 lmsType ++ path

end Sys2Proof.Machine
end

