-- ==== Sys2Proof/Machine/Envelope.lean ====
section
/-! DEFINITION. Nib's keys (R361) and its envelopes: their layout (R358), their verification (R359), and what the
configuration flash says through them (R357). -/

namespace Sys2Proof.Machine

/-! ## Identity keys (R361) -/

/-- The seed that the PUF's response yields with the helper data in flash. -/
def Flash.seed (f : Flash) : List Byte := Config.seedOf Config.pufResponse f.helper

/-- The ECDSA private key: from 1 to one below the order of the base point. -/
def Flash.ecdsaSecret (f : Flash) : Nat := Config.ecdsaSecret f.seed % (curveN - 1) + 1

/-- The ECDSA public key, as bytes. -/
def Flash.ecdsaPublic (f : Flash) : List Byte := pointBytes (CurvePoint.mul 384 f.ecdsaSecret (some curveG))

/-- The LMS private key. -/
def Flash.lmsSecret (f : Flash) : LmsSecret :=
  { id := bytesBe 16 (Config.lmsIdentifier f.seed).toNat
    start := fun q i => bytesBe 32 (Config.lmsStart f.seed q i).toNat }

/-- The device's own value of BIND (R358): bytes 0 to 7 of the SHA-384 of its ECDSA identity public key. -/
def Flash.bind (f : Flash) : Nat := natOfBytes ((sha384 f.ecdsaPublic).take 8)

/-! ## Envelopes (R358) -/

/-- A 64-bit word of an envelope, and a run of its bytes. -/
def envWord (e : List Byte) (off : Nat) : Nat := natOfBytes ((e.drop off).take 8)
def envBytes (e : List Byte) (off n : Nat) : List Byte := (e.drop off).take n

def envKind (e : List Byte) : Nat := bitsOf (envWord e 0) 31 24
def envSvn (e : List Byte) : Nat := envWord e 0 % 2 ^ 16
def envTenant (e : List Byte) : Nat := bitsOf (envWord e 0x48) 47 40
def envBody (e : List Byte) : List Byte := envBytes e 0x900 (envWord e 8)

/-- A run of bytes is zero. -/
def allZero (bs : List Byte) : Bool := bs.all (· == 0)

def magic : Nat := 0x44524F45

/-- R359: every RSV byte is zero, and the fixed fields are as R358 has them for a KIND.
DEDUCED (assumption 83). -/
def envForm (kind : Nat) (e : List Byte) : Bool :=
  envWord e 0 / 2 ^ 32 == magic && envKind e == kind && bitsOf (envWord e 0) 23 16 == 0 &&
    decide (0x900 + envWord e 8 ≤ e.length) && bitsOf (envWord e 0x48) 63 48 == 0 &&
    envWord e 0x48 % 2 ^ 40 == 0 && (kind == 0x20 || envTenant e == 0) && allZero (envBytes e 0x50 0xB0) &&
    allZero (envBytes e 0x84C 0xB4)

/-- The keys that check a KIND (R359): the vendor's, or the owner's of a trusted configuration. -/
def keyOf (kind : Nat) (config : List Byte) : List Byte × List Byte :=
  if kind = 0x02 ∨ kind = 0x20 then (Config.ownerKey config, Config.ownerRoot config)
  else (Config.vendorKey, Config.vendorRoot)

/-- The minimum SVN of a KIND (R359). -/
def minimumSvn (f : Flash) (config : List Byte) (kind : Nat) : Nat :=
  if kind = 0x01 then f.svnNib else if kind = 0x10 then f.svnConfig else Config.minSvn config kind

/-- R359: an envelope of a KIND is accepted. -/
def envAccepted (f : Flash) (config : List Byte) (kind : Nat) (e : List Byte) : Bool :=
  let header := envBytes e 0 0x100
  let keys := keyOf kind config
  envForm kind e && ecdsaGood keys.1 (sha384 header) (envBytes e 0x100 96) &&
    lmsGood keys.2 header (envBytes e 0x160 1772) && envBytes e 0x10 48 == sha384 (envBody e) &&
    (envWord e 0x40 == 0 || envWord e 0x40 == f.bind) &&
    decide (minimumSvn f config kind ≤ envSvn e)

/-- The envelope of a KIND in the configuration flash. -/
def Flash.envelope (f : Flash) (kind : Nat) : List Byte := AMap.getD f.envelopes kind []

/-- The trusted configuration's body. -/
def Flash.config (f : Flash) : List Byte := envBody (f.envelope 0x10)

/-- Whether the envelope of a KIND in flash is accepted. -/
def Flash.accepts (f : Flash) (kind : Nat) : Bool := envAccepted f f.config kind (f.envelope kind)

/-- The anti-rollback counters raised to the SVNs accepted (R359). -/
def Flash.raiseNib (f : Flash) : Flash := { f with svnNib := max f.svnNib (envSvn (f.envelope 0x01)) }
def Flash.raiseConfig (f : Flash) : Flash := { f with svnConfig := max f.svnConfig (envSvn (f.envelope 0x10)) }

/-- The flash once boot has stopped at a KIND, 0 for the certificate: the counters of the KINDs accepted
before it have risen (R359, R360). -/
def Flash.raiseBefore (f : Flash) (kind : Nat) : Flash :=
  if kind = 0x01 then f else if kind = 0x10 then f.raiseNib else f.raiseNib.raiseConfig

/-- The ordering code of the module (R357, R4). -/
def Flash.ordering (f : Flash) : Nat := (Config.ordering f.config).val

end Sys2Proof.Machine
end

