-- ==== Sys2Proof/Machine/System.lean ====
section
/-! DEFINITION. TRAP, BKPT and RETT (R290, R325), CSRRD and CSRWR (R172, R291, R101, R102), TLBINV (R345)
and HALT (R371). -/

namespace Sys2Proof.Machine

/-! ## Traps and the handler's return -/

/-- TRAP (R290): the cause the immediate names, to resume at the next instruction. -/
def laneTrap (i : Issue) (_ : Tid) (s : State) : LaneOut :=
  .trapNext s (Cause.software i.x.imm.toNat) 0

/-- BKPT (R290). -/
def laneBkpt (_ : Issue) (_ : Tid) (s : State) : LaneOut := .trapNext s Cause.breakpoint 0

/-- RETT (R325): once every long-latency instruction of the handler has completed, the PC is popped and
the lookahead state restored. A pop that fails by R203 traps CALL_STACK_OVERFLOW.
DEDUCED (assumption 32). -/
def laneRett (_ : Issue) (t : Tid) (s : State) : LaneOut :=
  let th := s.thread t
  if !th.hnd then .trap Cause.privileged 0
  else if !th.windows.all (·.complete) then .wait
  else
    match s.pop t with
    | .ok pc s => .jump (s.modThread t fun th => th.leaveHandler pc) pc
    | .trap c =>
      if c = Cause.dataUncorrectable then .trap c (stackAddr s t) else .trap Cause.callStackOverflow 0
    | .line h l => .parkAgain (.line h l)

/-! ## CSRs -/

/-- RINGCFGn's bits that are not RSV (R101). -/
def ringMask : DWord := 0x800000F000FFFFC0

/-- What a CSRRD returns (R172, R291).
DESIGN CHOICE (assumption 6). -/
def State.csrRead (s : State) (core : Nat) (t : Tid) (n : Nat) : Nat :=
  let th := s.thread t
  let st := s.site (siteOf core)
  if 0x18 ≤ n ∧ n ≤ 0x1F then (AMap.getD (s.team t.team).ringCfg (n - 0x18) 0).toNat
  else if 0x20 ≤ n ∧ n ≤ 0x23 then (st.atomxf.getD (n - 0x20) 0).toNat
  else if 0x28 ≤ n ∧ n ≤ 0x2D then (st.l2aflags.getD (n - 0x28) 0).toNat
  else
    match n with
    | 0x01 => th.fflags.toNat
    | 0x02 => th.rng.toNat
    | 0x08 => (s.launchOf t).shot
    | 0x10 => th.trapCause.toNat
    | 0x11 => th.trapPc.toNat
    | 0x12 => th.trapAddr.toNat
    | 0x13 => th.trapLanes.toNat
    | 0x30 => (s.core core).spaFlags.toNat
    | 0x40 => (AMap.getD st.ctxbase (core, (s.team t.team).slot) 0).toNat
    | _ => 0

/-- CSRRD (R291). -/
def laneCsrrd (i : Issue) (t : Tid) (s : State) : LaneOut :=
  let n := i.x.imm.toNat
  .next (s.writeD i t (csrRegs n) (s.csrRead i.core t n))

/-- The bytes of a ring (R102). -/
def ringSize (v : Nat) : Nat := 64 + 72 * 2 ^ bitsOf v 39 36

/-- The half and the offset of a ring's header. -/
def ringPlace (v : Nat) : Nat × Nat := (bit01 (bitOf v 23), bitsOf v 22 6 * 64)

/-- Whether two rings overlap. -/
def ringsOverlap (v w : Nat) : Bool :=
  (ringPlace v).1 == (ringPlace w).1 && decide ((ringPlace v).2 < (ringPlace w).2 + ringSize w) &&
    decide ((ringPlace w).2 < (ringPlace v).2 + ringSize v)

/-- R102: the faults of a ring that is registered.
DEDUCED (assumption 46). -/
def badRingCfg (t : Team) (n v : Nat) : Bool :=
  let lsz := bitsOf v 39 36
  (BitVec.ofNat 64 v &&& ~~~ringMask) != 0 || decide (lsz < 1) || decide (14 < lsz) ||
    (bitOf v 23 && !t.paired) || decide (t.scratchBytes < (ringPlace v).2 + ringSize v) ||
    (t.ringCfg.any fun p => p.1 != n && p.2.getLsbD 63 && ringsOverlap v p.2.toNat)

/-- The threads of a team parked on ring n, with the register, the length and the fence of their RWAITs. -/
def State.ringWaiters (s : State) (team n : Nat) : List (Tid × Nat × Nat × Fence) :=
  s.threads.filterMap fun p =>
    match p.2.status with
    | .parked (.ring k _ d len f) => if p.1.team = team ∧ k = n then some (p.1, d, len, f) else none
    | _ => none

/-- CSRWR to RINGCFGn (R101, R102, R235). A write that clears EN is made without its RSV bits.
DESIGN CHOICE (assumption 125). -/
def State.writeRing (s : State) (t : Tid) (n : Nat) (v : DWord) : Option State :=
  let tm := s.team t.team
  if v.getLsbD 63 then
    (if badRingCfg tm n v.toNat then none
    else
      let s := s.modTeam t.team fun tm =>
        { tm with ringCfg := tm.ringCfg.set n v, ringTail := tm.ringTail.set n 0 }
      some (s.writeLoc t.team (.scr (ringPlace v.toNat).1 (ringPlace v.toNat).2) 12 0))
  else
    let s := s.modTeam t.team fun tm => { tm with ringCfg := tm.ringCfg.set n (v &&& ringMask) }
    some ((s.ringWaiters t.team n).foldl (fun s w =>
      (s.ringWake w.1 0 w.2.1 w.2.2.1).fence w.2.2.2 (s.party w.1)) s)

/-- The flags of a W1C register after a write (R291). -/
def clearFlags (f : BitVec 6) (v : Nat) : BitVec 6 := f &&& ~~~(BitVec.ofNat 6 v)

/-- CSRWR (R172, R291): a register that a thread may not write keeps its value.
DEDUCED (assumption 46). -/
def State.csrWrite (s : State) (core : Nat) (t : Tid) (n : Nat) (v : Nat) : Option State :=
  let site := siteOf core
  if 0x18 ≤ n ∧ n ≤ 0x1F then s.writeRing t (n - 0x18) (.ofNat 64 v)
  else if 0x20 ≤ n ∧ n ≤ 0x23 then
    some (s.modSite site fun st =>
      { st with atomxf := st.atomxf.set (n - 0x20) (clearFlags (st.atomxf.getD (n - 0x20) 0) v) })
  else if 0x28 ≤ n ∧ n ≤ 0x2D then
    some (s.modSite site fun st =>
      { st with l2aflags := st.l2aflags.set (n - 0x28) (clearFlags (st.l2aflags.getD (n - 0x28) 0) v) })
  else
    match n with
    | 0x01 => some (s.modThread t fun th => { th with fflags := .ofNat 6 v })
    | 0x02 => some (s.modThread t fun th => { th with rng := .ofNat 32 v })
    | 0x30 => some (s.modCore core fun co => { co with spaFlags := clearFlags co.spaFlags v })
    | 0x40 =>
      some (s.modSite site fun st =>
        { st with ctxbase := st.ctxbase.set (core, (s.team t.team).slot) (.ofNat 64 v) })
    | _ => some s

/-- CSRWR (R291). -/
def laneCsrwr (i : Issue) (t : Tid) (s : State) : LaneOut :=
  let n := i.x.imm.toNat
  match s.csrWrite i.core t n ((s.thread t).xs i.x.a.toNat (csrRegs n)) with
  | some s => .next s
  | none => .trap Cause.ringInvalid 0

/-! ## TLBINV (R345) -/

/-- A command's translations that TLBINV drops. -/
def Command.usesDropped (c : Command) (all : Bool) (va : Nat) : Bool :=
  all || c.pages.any fun p => p.1 == va / 2 ^ 16 || p.1 / 2 ^ 12 == va / 2 ^ 28

/-- The engine commands of some sites accepted with a translation that is dropped.
DEDUCED (assumption 33). -/
def State.boundCommands (s : State) (inScope : Nat → Bool) (all : Bool) (asn va : Nat) : List Nat :=
  (s.commands.filter fun p =>
    inScope (siteOf p.2.core) && ((all && asn == 4095) || (s.launch p.2.lid).asn == asn) &&
      p.2.usesDropped all va).map Prod.fst

/-- The translations dropped in every core TLB and Scribe TLB of some sites.
DEDUCED (assumption 33). -/
def State.dropTranslations (s : State) (inScope : Nat → Bool) (all : Bool) (asn va : Nat) : State :=
  { s with
    cores := s.cores.map fun p =>
      if inScope (siteOf p.1) then (p.1, { p.2 with tlb := p.2.tlb.filter fun e => !e.dropped all asn va })
      else p
    scribes := s.scribes.map fun p =>
      if inScope (p.1 / 64) then (p.1, { p.2 with tlb := p.2.tlb.filter fun e => !e.dropped all asn va })
      else p }

/-- TLBINV (R345): the translations are gone at once, the thread goes on when the commands accepted with
them are done.
DEDUCED (assumption 33). -/
def laneTlbinv (i : Issue) (t : Tid) (s : State) : LaneOut :=
  let v := (effAddr s i t).toNat
  let code := i.x.sel.toNat
  let all := i.x.sub == 1
  let inScope := fun n => code == 3 || n == siteOf i.core
  if code ≠ 2 ∧ code ≠ 3 then .trap Cause.reservedBits 0
  else
    let cmds := s.boundCommands inScope all (v / 2 ^ 52) (v % 2 ^ 52)
    let (id, s) := (s.dropTranslations inScope all (v / 2 ^ 52) (v % 2 ^ 52)).fresh
    let s := { s with invalidations := s.invalidations.set id { tid := t, len := i.len, cmds } }
    .stop ((s.modThread t fun th => { th with status := .invalidating id i.len }).due (.tlbinvComplete id)
      coreTicks)

/-- TLBINV_COMPLETE (R345): the thread goes on once every access through a dropped translation is made.
DEDUCED (assumption 33). -/
def execTlbinvComplete (id : Nat) (s : State) : Out :=
  match AMap.find? id s.invalidations with
  | none => .next s
  | some v =>
    if v.cmds.any fun c => (AMap.find? c s.commands).isSome then
      .next (s.due (.tlbinvComplete id) coreTicks)
    else
      let s := { s with invalidations := s.invalidations.erase id }
      .next (match (s.thread v.tid).status with
        | .invalidating n _ => if n = id then s.wakePast v.tid v.len else s
        | _ => s)

/-! ## HALT (R371) -/

def laneHalt (_ : Issue) (_ : Tid) (s : State) : LaneOut := .next s

/-- Whether a lane of the gang retires HALT: it is active, and takes no trap in its place (R182, R328,
R338). -/
def anyActive (i : Issue) (g : Gang) (s : State) : Bool :=
  g.members.any fun m =>
    laneActive i.x (s.thread m.2) && ((s.thread m.2).pendingTrap m.2).isNone &&
      !i.violates (s.thread m.2)

/-- HALT in either form: the gang retires it, and the core halts before its next issue.
DEDUCED (assumption 31). -/
def haltWith (x : Ext) (len : Nat) (s : State) : Out :=
  let o := simt .halt x len true laneHalt s
  match s.gang, o with
  | some g, .next s1 =>
    if (issueCheck .halt x (s.gangLaunch g)).isNone && anyActive ⟨.halt, x, len, g.core, g.pc⟩ g s && s.inScope g.core &&
        s.haltCapable && !(s1.core g.core).bltStall then .next (s1.haltCore g.core 1)
    else o
  | _, _ => o

/-! ## The meanings -/

/-- TRAP (R290), base form: a software trap. -/
def execTrap (i : BitVec 8) (s : State) : Out := simt .trap (.bi i 0 0) 4 true laneTrap s

/-- TRAP (R290), extended form. -/
def execTrapExt (x : Ext) (s : State) : Out := simt .trap x x.len true laneTrap s

/-- RETT (R325), base form: the return from the user handler. -/
def execRett (s : State) : Out := simt .rett .zero 4 true laneRett s

/-- RETT (R325), extended form. -/
def execRettExt (x : Ext) (s : State) : Out := simt .rett x x.len true laneRett s

/-- CSRRD (R291), base form: a CSR read. -/
def execCsrrd (i : BitVec 8) (d : BitVec 7) (s : State) : Out :=
  simt .csrrd (.bi i 0 d) 4 true laneCsrrd s

/-- CSRRD (R291), extended form. -/
def execCsrrdExt (x : Ext) (s : State) : Out := simt .csrrd x x.len true laneCsrrd s

/-- CSRWR (R291), base form: a CSR written. -/
def execCsrwr (i : BitVec 8) (a : BitVec 7) (s : State) : Out :=
  simt .csrwr (.bi i a 0) 4 true laneCsrwr s

/-- CSRWR (R291), extended form. -/
def execCsrwrExt (x : Ext) (s : State) : Out := simt .csrwr x x.len true laneCsrwr s

/-- TLBINV (R345): translations dropped. -/
def execTlbinv (x : Ext) (s : State) : Out := simt .tlbinv x x.len true laneTlbinv s

/-- BKPT (R290), base form: a breakpoint. -/
def execBkpt (s : State) : Out := simt .bkpt .zero 4 true laneBkpt s

/-- BKPT (R290), extended form. -/
def execBkptExt (x : Ext) (s : State) : Out := simt .bkpt x x.len true laneBkpt s

/-- HALT (R371), base form: the core stops. -/
def execHalt (s : State) : Out := haltWith .zero 4 s

/-- HALT (R371), extended form. -/
def execHaltExt (x : Ext) (s : State) : Out := haltWith x x.len s

end Sys2Proof.Machine
end

