-- ==== Sys2Proof/Machine/Context.lean ====
section
/-! DEFINITION. Pre-emption: CTXSAVE and CTXLOAD (R329-R335). The instruction takes the team off its
cores, or asks for the load; a step of the module's own goes on with it until it is done. -/

namespace Sys2Proof.Machine

/-! ## The instructions (R329) -/

/-- The squads of a team in pick order, core by core. -/
def State.pickOrderOf (s : State) (team : Nat) : List Sid :=
  (s.team team).cores.flatMap fun c => (s.core c).order.filter fun q => q.team == team

/-- A team stands still (R330 step 1): its squads leave the pick order, held threads stand ready at their
collective, and no convergence window is open (R330 step 4).
DEDUCED (assumption 56). -/
def State.freeze (s : State) (team : Nat) : State :=
  let qs := s.squadsOfTeam team
  let s := (s.team team).cores.foldl (fun s c =>
    s.modCore c fun co => { co with order := co.order.filter fun q => q.team != team }) s
  let s := qs.foldl (fun s q =>
    ((s.liveOf q).foldl (fun s t => s.modThread t fun th =>
      if th.status == .held then { th with status := .ready } else th) s).closeWindow q) s
  s.modTeam team fun t => { t with frozen := true }

/-- The team in a slot of a core that a CTXSAVE may save: none where the slot is empty, or its team is
being saved or loaded already. -/
def State.savable (s : State) (c slot : Nat) : Option Nat :=
  match AMap.find? slot (s.core c).slots with
  | some n => if (s.team n).frozen then none else some n
  | none => none

/-- CTXSAVE and CTXLOAD in one lane (R329).
DESIGN CHOICE (assumption 6). DEDUCED (assumption 56). -/
def laneContext (load : Bool) (i : Issue) (t : Tid) (s : State) : LaneOut :=
  let th := s.thread t
  let slot := (th.x i.x.c.toNat).toNat
  if 64 ≤ slot then .trap Cause.taskRecordInvalid 0
  else
    match s.checkCompletion i.core (some t.team) (s.launchOf t).space (th.xp i.x.e.toNat) with
    | .error (c, a) => failLane c a
    | .ok s =>
      let base := AMap.getD (s.site (siteOf i.core)).ctxbase (i.core, slot) 0
      let aligned := base.toNat % 256 == 0
      let team := if load || !aligned then none else s.savable i.core slot
      let (id, s) := s.fresh
      let op : CtxOp :=
        { load, core := i.core, issuer := t.team, lid := (s.team t.team).lid, agent := s.party t
          space := (s.launchOf t).space, slot, base, team
          squads := match team with | some n => s.pickOrderOf n | none => []
          lwait := match team with | some n => (s.team n).leaseWait | none => false
          records := [], done := th.xp i.x.e.toNat, cause := 0 }
      let s := match team with | some n => s.freeze n | none => s
      .next ({ s with contexts := s.contexts.set id op }.due (.ctxsaveCtxloadCompletion id) coreTicks)

/-- CTXSAVE (R330). -/
def execCtxsave (x : Ext) (s : State) : Out := simt .ctxsave x x.len true (laneContext false) s

/-- CTXLOAD (R331). -/
def execCtxload (x : Ext) (s : State) : Out := simt .ctxload x x.len true (laneContext true) s

/-! ## The end of either -/

/-- The completion signalled (R115), and the operation gone. A scratchpad operand of a team that is no
longer resident is not signalled. -/
def State.endContext (s : State) (id : Nat) (o : CtxOp) (cause : Nat) : State :=
  let s := { s with contexts := s.contexts.erase id }
  if isScratch (sigAddr o.done) && (AMap.find? o.issuer s.teams).isNone then s
  else
    s.signal
      { core := o.core, team := some o.issuer, sp := o.space, op := o.done, n := 1
        failed := cause != 0, cause, agent := o.agent }

/-- A squad back at the end of its core's pick order. -/
def State.rejoin (s : State) (q : Sid) : State :=
  (s.modCore (s.coreOf q) fun co => { co with order := co.order ++ [q] }).relead q false

/-- A team that goes on, its squads in an order; one with none may be released (R70). -/
def State.thaw (s : State) (team : Nat) (qs : List Sid) : State :=
  ((qs.filter fun q => (AMap.find? q s.squads).isSome).foldl State.rejoin
    (s.modTeam team fun t => { t with frozen := false })).due (.teamRelease team) 0

/-! ## Saving: what must have finished (R330 steps 1 to 3) -/

/-- The resident threads of a team. -/
def State.threadsOfTeam (s : State) (team : Nat) : List Tid := (s.squadsOfTeam team).flatMap s.liveOf

/-- R330 steps 1 and 2: no REALIGN stall, every long-latency instruction and every matrix instruction of
the team complete, no TLBINV of it in progress. -/
def State.quiet (s : State) (team : Nat) : Bool :=
  let t := s.team team
  (t.cores.all fun c => (s.core c).stall.isNone && !((s.core c).engine.any fun e => e.team == team)) &&
    (s.threadsOfTeam team).all fun u =>
      ((s.thread u).windows ++ (s.thread u).saved).all (·.complete) &&
        (match (s.thread u).status with | .invalidating _ _ => false | _ => true)

/-- Whether a command is one that CTXSAVE records: a TCOPY or UNSEAL whose transfer has not begun. -/
def Command.recordable (c : Command) : Bool := (c.op == .tcopy || c.op == .unseal) && !c.began

/-- R330 step 3: the commands of a team that are recorded leave their queue and the tracker. Their lines
stay absent. -/
def State.takeRecords (s : State) (team : Nat) : List Command × State :=
  let cs := s.commands.filter fun p => p.2.team == team && p.2.recordable
  (cs.map Prod.snd,
    cs.foldl (fun s p => { s with commands := s.commands.erase p.1 }.untrack p.2.core p.1) s)

/-- Every command, page request, CTXSAVE and CTXLOAD that the team has issued has completed, but for a CTXSAVE of the
team itself and one that waits for its own issuer to be saved; and its tracker entries have drained (R132). -/
def State.drained (s : State) (team : Nat) : Bool :=
  !(s.commands.any fun p => p.2.team == team) && !(s.pageReqs.any fun p => p.2.team == team) &&
    !(s.contexts.any fun p => p.2.issuer == team && p.2.team != some team &&
      !(s.contexts.any fun r => r.2.team == some team && p.2.team == some r.2.issuer)) &&
    (s.team team).cores.all fun c => !((s.core c).tracker.any fun e => e.team == team)

/-- Traps that pend for threads of the team are taken before it is saved, for the save area has no place
for them (R328, R338).
DEDUCED (assumption 56). -/
def State.takePending (s : State) (team : Nat) : State :=
  let rs := ((s.threadsOfTeam team).filter fun t => (s.thread t).status != .trapped).filterMap fun t =>
    (s.thread t).pendingTrap t
  (rs.foldl (fun s r => s.modThread r.tid Thread.dropFaulted) s).takeTrapsAside rs

/-! ## The save area (R332-R334) -/

/-- Bytes padded with zeros to a multiple of n. -/
def padBytes (n : Nat) (bs : List Byte) : List Byte := bs ++ List.replicate ((n - bs.length % n) % n) 0

/-- 64-bit words as bytes. -/
def wordBytes (ws : List Nat) : List Byte := ws.flatMap (bytesOfNat 8)

/-- A number at a bit. -/
def at_ (v lo : Nat) : Nat := v * 2 ^ lo

/-- The squad width code (R58). -/
def widthCode (w : Nat) : Nat := if w = 8 then 0 else if w = 16 then 1 else if w = 32 then 2 else 3

/-- The place of an element in a list. -/
def rankOf {α : Type} [DecidableEq α] (a : α) (as : List α) : Nat := as.findIdx (· = a)

/-- A squad record (R332). -/
def State.squadRecord (s : State) (o : CtxOp) (q : Sid) : List Byte :=
  let sq := s.squad q
  wordBytes ([at_ (rankOf q o.squads) 24 + at_ (sq.lead.getD 0) 16 + at_ sq.base 8 + q.squad,
    s.taskAddr sq.task % 2 ^ 52] ++ List.replicate 6 0)

/-- The first register and the number of registers of a pending set (R333): a set that lacks x0 of a quad
names the quad. -/
def pendingSpan (p : Pending) : Nat × Nat :=
  if p.regs.length = 3 then (p.regs.headD 0 - 1, 4) else (p.regs.headD 0, p.regs.length)

/-- A window as its WIN word (R333). -/
def Window.word (w : Window) : Nat :=
  at_ 1 63 + at_ w.left 59 + at_ (pendingSpan w.pend).1 52 + at_ (pendingSpan w.pend).2 49 +
    at_ ((w.pend.preds.map fun p => 2 ^ p).sum) 41 + at_ (bit01 w.pend.fflags) 40

/-- The tick up to which a core's timeouts have run: they stand still while its picker does (R369). -/
def State.tickOn (s : State) (c : Nat) : Nat :=
  if (s.core c).stopped then s.tick - (s.clock - (s.core c).stopClock) * coreTicks else s.tick

/-- ST, PKIND, RING, TLEFT and PADDR of a thread (R333); a WAITW that is still to make its first read again
keeps the time it has left. -/
def Thread.saveState (th : Thread) (team : Team) (tick : Nat) : Nat × Nat × Nat × Nat × Nat :=
  match th.status with
  | .parked p =>
    (1, p.kind,
      match p with
      | .line h l => (0, th.waitLeft.getD 0, 2 ^ 56 + h * 2 ^ 23 + l * 128)
      | .word w => (0, (match w.deadline with | some d => max 1 ((d - tick) / coreTicks) | none => 0),
          w.addr.toNat)
      | .ring n _ _ _ _ => (n, 0, 2 ^ 56 + team.ringHalf n * 2 ^ 23 + team.ringBase n)
      | _ => (0, 0, 0))
  | .trapped => (2, 0, 0, 0, 0)
  | .exited => (3, 0, 0, 0, 0)
  | _ => (0, 0, 0, th.waitLeft.getD 0, 0)

/-- The PC field: the next PC, or for a thread in trap delivery the trapping PC; after a long-latency
fault the instruction in whose place it trapped.
DEDUCED (assumption 56). -/
def Thread.savePc (th : Thread) : DWord :=
  if th.status == .trapped then (if th.trapCause.getLsbD 8 then th.resume else th.trapPc) else th.pc

/-- A register as its thread's record has it: a free value where the thread has exited. -/
def State.savedX (s : State) (t : Tid) (i : Nat) : Word :=
  if (s.thread t).status == .exited then .ofNat 32 (Config.freeBits (s.free + (t.squad * 64 + t.lane) * 128 + i))
  else (s.thread t).x i

/-- The sixteen WIN words of a thread (R183, R333): the kept windows from word 0 up; in the handler, its own
from word 15 down, behind at least one word without V.
DEDUCED (assumption 56). -/
def Thread.winWords (th : Thread) : List Nat :=
  let kept := ((if th.hnd then th.saved else th.windows).take 16).map Window.word
  let own := if th.hnd then (th.windows.take (15 - kept.length)).map Window.word else []
  kept ++ List.replicate (16 - kept.length - own.length) 0 ++ own.reverse

/-- A thread record (R333).
DEDUCED (assumption 56). -/
def State.threadRecord (s : State) (t : Tid) : List Byte :=
  let th := s.thread t
  let (st, pkind, ring, tleft, paddr) := th.saveState (s.team t.team) (s.tickOn (s.coreOf t.sid))
  wordBytes ([at_ st 60 + th.savePc.toNat % 2 ^ 52,
      at_ (bit01 th.hnd) 59 + at_ (s.position t % 64) 53 + at_ th.depth 46 + at_ th.preds.toNat 38 +
        at_ th.fflags.toNat 32 + th.rng.toNat,
      at_ pkind 60 + at_ ring 56 + tleft, paddr] ++ th.winWords ++
      [th.trapCause.toNat, th.trapPc.toNat, th.trapAddr.toNat, th.trapLanes.toNat]) ++
    (List.range (s.launchOf t).regs).flatMap fun i => bytesOfNat 4 (s.savedX t i).toNat

/-- A half's part of the pool section (R334). -/
def Team.poolBytes (t : Team) (h : Nat) : List Byte :=
  let lines := t.scratchBytes / 128
  (t.scratch h).read 0 t.scratchBytes ++
    padBytes 256 (bytesOfNat (lines / 8)
      (((List.range lines).filter fun i => AMap.getD t.pending (h, i) 0 == 0).map (2 ^ ·)).sum) ++
    (t.acc h).read 0 t.accBytes

/-- A core's part of the operand-buffer section (R334). -/
def State.bufferBytes (s : State) (c team : Nat) : List Byte :=
  (s.recordsOf c team).flatMap fun r =>
    wordBytes (setBits r.2.toNat 62 57 0 :: List.replicate 7 0) ++
      (s.core c).opBuf.read (recBase r.2 * 4096) (recSize r.2 * 4096)

/-- A recorded command (R334). -/
def Command.recordBytes (c : Command) : List Byte :=
  wordBytes ([c.op.code + at_ c.sub 8 + at_ c.hint 16, c.done.toNat, c.addr,
      if c.op == .unseal then c.word.toNat else 0, c.root % 2 ^ 64, c.root / 2 ^ 64, 0, 0]) ++
    bytesOfNat 64 c.tsr

/-- The whole save area of a team (R332).
DEDUCED (assumption 56). -/
def State.saveArea (s : State) (o : CtxOp) (n : Nat) : List Byte :=
  let t := s.team n
  let l := s.launch t.lid
  let qs := (List.range 32).filterMap fun i =>
    if (s.squadsOfTeam n).contains ⟨n, i⟩ then some (⟨n, i⟩ : Sid) else none
  let squads := padBytes 256 (qs.flatMap (s.squadRecord o))
  let threads := padBytes 256 ((qs.flatMap s.threadsOf).flatMap s.threadRecord)
  let pool := padBytes 256 ((List.range t.cores.length).flatMap t.poolBytes)
  let buffer := padBytes 256 (t.cores.flatMap fun c => s.bufferBytes c n)
  let thrOff := 256 + squads.length
  let poolOff := thrOff + threads.length
  let obOff := poolOff + pool.length
  let cmdOff := obOff + buffer.length
  let header := padBytes 256 (wordBytes ([at_ t.lid 32 + at_ 0xC1 24 + at_ (bit01 o.lwait) 9 +
        at_ (bit01 t.paired) 8 + 1,
      at_ t.part.toNat 32 + t.number % 2 ^ 24,
      at_ qs.length 56 + at_ l.regs 48 + at_ (widthCode l.width) 46 + qs.length * l.width,
      at_ o.records.length 32, thrOff, poolOff, obOff, cmdOff, cmdOff + 128 * o.records.length,
      t.stamps] ++ (List.range 8).map (fun i => (AMap.getD t.ringCfg i 0).toNat)) ++
    (List.range 8).flatMap fun i =>
      bytesOfNat 4 (if t.ringOn i then (AMap.getD t.ringTail i 0).toNat else 0))
  header ++ squads ++ threads ++ pool ++ buffer ++ o.records.flatMap Command.recordBytes

/-- The bytes of the next write of `n` bytes to a place: a whole granule of DRAM where it can be. -/
def storeBytes (pa n : Nat) : Nat := if !isRegisterPa pa && pa % 32 == 0 && 32 ≤ n then 32 else accessBytes pa n

/-- Bytes written by a party at a virtual address on path t, in at most `fuel` accesses, each translated for writing
(R21), or the cause of the first that cannot be made. -/
def State.writePieces (s : State) (core : Nat) (sp : Space) (a : Party) :
    (fuel va : Nat) → List Byte → Except Nat State
  | 0, _, _ => .ok s
  | _ + 1, _, [] => .ok s
  | fuel + 1, va, bs =>
    match s.translate core sp va .write with
    | .error c => .error c
    | .ok (pa, s) =>
      let k := storeBytes pa bs.length
      if isRegisterPa pa && k == 1 then .error Cause.alignment
      else if s.accessHeld pa then .error heldCause
      else if s.badStore (.glob pa) k then .error Cause.dataUncorrectable
      else
        (s.writeAs .t a .nothing none 0 (.glob pa) k (natOfBytes (bs.take k))).writePieces core sp a fuel (va + k)
          (bs.drop k)

/-- Bytes written by a party at a virtual address on path t. -/
def State.writeVa (s : State) (core : Nat) (sp : Space) (a : Party) (va : Nat) (bs : List Byte) : Except Nat State :=
  s.writePieces core sp a bs.length va bs

/-- A saved team off its cores (R330 step 5): its threads, squads, slot, records and units are free. -/
def State.removeTeam (s : State) (n : Nat) : State :=
  let t := s.team n
  let records := t.cores.map fun c => (s.recordsOf c n).map Prod.fst
  let s := s.leaveDelivery (s.threadsOfTeam n)
  let s := s.freeTeam n
  let s :=
    { s with
      threads := s.threads.filter fun p => p.1.team != n
      squads := s.squads.filter fun p => p.1.team != n }
  let s := t.cores.foldl State.blockQuiet s
  s.modLaunch t.lid fun l => { l with savedTeams := l.savedTeams ++ [{ number := t.number, records }] }

/-! ## Loading: reading the area -/

/-- Bits of a section's number at a byte offset of a 64-bit word. -/
def field (sec off hi lo : Nat) : Nat := bitsOf sec (8 * off + hi) (8 * off + lo)

/-- The sections of a save area as numbers. -/
structure Area where
  head : Nat
  squads : Nat
  threads : Nat
  pool : Nat
  buffer : Nat
  cmds : Nat

/-- The fields of the header (R332). -/
def areaLid (h : Nat) : Nat := field h 0 63 32
def areaLwait (h : Nat) : Bool := bitOf h 9
def areaPair (h : Nat) : Bool := bitOf h 8
def areaPart (h : Nat) : Word := .ofNat 32 (field h 8 63 32)
def areaTeam (h : Nat) : Nat := field h 8 23 0
def areaSquads (h : Nat) : Nat := field h 0x10 63 56
def areaRegs (h : Nat) : Nat := field h 0x10 55 48
def areaWidth (h : Nat) : Nat := 8 * 2 ^ field h 0x10 47 46
def areaThreads (h : Nat) : Nat := field h 0x10 12 0
def areaCmds (h : Nat) : Nat := field h 0x18 39 32
def areaOff (h i : Nat) : Nat := field h (0x20 + 8 * i) 63 0

/-- The bytes of one core's pool. -/
def poolSize (p : Word) : Nat := partSp p * 24576 + (partSp p * 24 + 255) / 256 * 256 + partAcc p * 24576

/-- Numbers read one after another. -/
def State.readAll (s : State) (core : Nat) (sp : Space) (a : Party) : List (Nat × Nat) → Except Nat (List Nat × State)
  | [] => .ok ([], s)
  | (va, n) :: rs =>
    match s.readVa core sp a va n with
    | .error c => .error c
    | .ok (v, s) =>
      match s.readAll core sp a rs with
      | .error c => .error c
      | .ok (vs, s) => .ok (v :: vs, s)

/-- The save area at an address. -/
def State.readArea (s : State) (core : Nat) (sp : Space) (a : Party) (base : Nat) : Except Nat (Area × State) :=
  match s.readVa core sp a base 256 with
  | .error c => .error c
  | .ok (h, s) =>
    let cores := if areaPair h then 2 else 1
    match s.readAll core sp a
        [(base + 256, 64 * areaSquads h),
          (base + areaOff h 0, areaThreads h * (192 + 4 * areaRegs h)),
          (base + areaOff h 1, cores * poolSize (areaPart h)),
          (base + areaOff h 2, areaOff h 3 - areaOff h 2),
          (base + areaOff h 3, 128 * areaCmds h)] with
    | .ok ([a, b, c, d, e], s) => .ok (⟨h, a, b, c, d, e⟩, s)
    | .ok _ => .error Cause.taskRecordInvalid
    | .error c => .error c

/-! ## Loading: placing the team (R331 steps 1 and 2) -/

/-- The cores a CTXLOAD places its team on. -/
def loadCores (h core : Nat) : List Nat := if areaPair h then [core, core + 1] else [core]

/-- The squad indices of an area, in its order. -/
def Area.squadIds (a : Area) : List Nat :=
  (List.range (areaSquads a.head)).map fun k => field a.squads (64 * k) 4 0

/-- R331, R36: a squad's issue positions are a run of its width that a core has. -/
def Area.basesFit (a : Area) : Bool :=
  (List.range (areaSquads a.head)).all fun k =>
    let b := field a.squads (64 * k) 13 8
    b % areaWidth a.head == 0 && decide (b + areaWidth a.head ≤ 64)

/-- R331: the launch is live, the slot is free, and the cores, which have names (R377), have the units, the
thread slots and the issue positions. -/
def State.loadable (s : State) (core slot : Nat) (a : Area) : Bool :=
  let h := a.head
  let cs := loadCores h core
  (match AMap.find? (areaLid h) s.launches with
    | some l => !l.ending
    | none => false) &&
    (!areaPair h || s.pairPublished core) && a.basesFit &&
    (cs.all fun c =>
      s.named c && (AMap.find? slot (s.core c).slots).isNone && decide (partUnits (areaPart h) ≤ s.freeUnits c) &&
        decide ((if areaPair h then (a.squadIds.filter fun q => core + q % 2 == c).length
          else a.squadIds.length) * areaWidth h ≤ s.freeThreads c))

/-- A reservation record of an area placed on a core (R331, R334): under its own number and at its own units
where they are free, else the lowest that are; none where there is no room.
DEDUCED (assumption 57). -/
def State.loadRecord (s : State) (c slot v : Nat) (number : Option Nat) (content : Nat) : Option State :=
  let co := s.core c
  let r : DWord := .ofNat 64 v
  let own := (List.range' (recBase r) (recSize r)).all fun u => !co.usedUnits.contains u
  let place := match number with
    | some k => if (AMap.find? k co.records).isNone then some k else co.freeRecord
    | none => co.freeRecord
  match place, if own then some (recBase r) else findUnits co.usedUnits (recSize r) 64 0 with
  | some k, some b =>
    let v := setBits (setBits v 62 57 slot) 56 51 b
    some (s.modCore c fun co =>
      let co := co.clearUnits b (recSize r)
      { co with
        records := co.records.set k (.ofNat 64 v)
        opBuf := co.opBuf.writeNat (b * 4096) (recSize r * 4096) content })
  | _, _ => none

/-- Where the records of an area go (R334): the core and the number of each, as they stood at the save. -/
def recordPlaces (cores : List Nat) (records : List (List Nat)) : List (Nat × Option Nat) :=
  (List.zip cores records).flatMap fun p => p.2.map fun k => (p.1, some k)

/-- The operand-buffer section restored: each record that is read goes to its place, those behind the last
place to a core `c`.
DEDUCED (assumption 57). -/
def State.loadRecords (s : State) (slot c : Nat) :
    (fuel : Nat) → List (Nat × Option Nat) → (sec left : Nat) → Option State
  | 0, _, _, _ => some s
  | fuel + 1, ps, sec, left =>
    let v := sec % 2 ^ 64
    let n := 64 + recSize (.ofNat 64 v) * 4096
    if left < n || !bitOf v 63 then some s
    else
      let p := ps.headD (c, none)
      match s.loadRecord p.1 slot v p.2 (sec / 2 ^ 512 % 2 ^ (8 * (n - 64))) with
      | none => none
      | some s => s.loadRecords slot c fuel ps.tail (sec / 2 ^ (8 * n)) (left - n)

/-- The bytes of a half's pool in an area. -/
def Area.half (a : Area) (h : Nat) : Nat :=
  let n := poolSize (areaPart a.head)
  a.pool / 2 ^ (8 * n * h) % 2 ^ (8 * n)

/-- The lines of a half that an area has as absent. -/
def Area.absent (a : Area) (h : Nat) : List (Nat × Nat) :=
  let bits := a.half h / 2 ^ (8 * (partSp (areaPart a.head) * 24576))
  ((List.range (partSp (areaPart a.head) * 192)).filter fun i => !bitOf bits i).map fun i => (h, i)

/-- The window of a WIN word. -/
def windowOfWord (id v : Nat) : Window :=
  { id, pc := 0, left := bitsOf v 62 59, issued := 0, known := true, complete := true, regs := [],
    preds := [], flags := 0, fault := none,
    pend :=
      { regs := ((List.range (bitsOf v 51 49)).map fun i => bitsOf v 58 52 + i).filter (· != 0)
        preds := (List.range 8).filter fun i => bitOf v (41 + i)
        fflags := bitOf v 40 } }

/-- The resume PC of a thread in trap delivery (R326, R334): a changed PC; after a long-latency fault the
PC; after TRAP, BKPT and a full ready queue the next instruction; else the trapping one.
DEDUCED (assumption 57). -/
def resumePc (cause : Word) (trapPc pc : Nat) (len : Nat) : Nat :=
  let c := cause.toNat % 256
  if cause.getLsbD 8 || pc != trapPc then pc
  else if 0xE0 ≤ c || c == Cause.breakpoint || c == Cause.readyQueueOverflow then pc + len
  else pc

/-- The length of the instruction at a PC, 4 where it cannot be read. -/
def State.lengthAt (s : State) (core : Nat) (l : Launch) (pc : Nat) : Nat :=
  match s.fetchWords core l.space pc 1 with
  | .ok w _ => instrLen w
  | .trap _ _ _ => 4

/-- A thread of an area (R333). What it is parked on is settled when the team goes on. -/
def State.loadThread (s : State) (core : Nat) (l : Launch) (rec_ regs : Nat) (id : Nat) : Thread :=
  let f := field rec_
  let st := f 0 63 60
  let pc := f 0 51 0
  let hnd := bitOf rec_ (8 * 8 + 59)
  let cause : Word := .ofNat 32 (f 0xA0 31 0)
  let win := fun (w : Nat) => windowOfWord (id + w) (f (0x20 + 8 * w) 63 0)
  let ws := (List.range 16).filter fun w => bitOf rec_ (8 * (0x20 + 8 * w) + 63)
  let kept := if hnd then (List.range 16).takeWhile fun w => bitOf rec_ (8 * (0x20 + 8 * w) + 63) else ws
  let own := (ws.filter fun w => !kept.contains w).reverse
  { Thread.blank with
    pc := .ofNat 64 pc
    regs := (List.range regs).map fun i => (i, .ofNat 32 (bitsOf rec_ (8 * (0xC0 + 4 * i) + 31) (8 * (0xC0 + 4 * i))))
    preds := .ofNat 8 (f 8 45 38 / 2 * 2 + 1)
    fflags := .ofNat 6 (f 8 37 32)
    rng := .ofNat 32 (f 8 31 0)
    depth := f 8 52 46
    status := if st = 2 then .trapped else if st = 3 then .exited else .ready
    since := s.clock
    windows := (if hnd then own else kept).map win
    saved := if hnd then kept.map win else []
    waitLeft := if f 0x10 31 0 = 0 then none else some (f 0x10 31 0)
    hnd
    resume := .ofNat 64 (resumePc cause (f 0xA8 51 0) pc (s.lengthAt core l pc))
    trapCause := cause
    trapPc := .ofNat 64 (f 0xA8 63 0)
    trapAddr := .ofNat 64 (f 0xB0 63 0)
    trapLanes := .ofNat 64 (f 0xB8 63 0) }

/-- The record of the k-th thread of an area. -/
def Area.thread (a : Area) (k : Nat) : Nat :=
  let n := 192 + 4 * areaRegs a.head
  a.threads / 2 ^ (8 * n * k) % 2 ^ (8 * n)

/-- The squads and threads of an area placed in a team (R331 step 3). -/
def State.loadSquads (s : State) (core team : Nat) (l : Launch) (a : Area) : State :=
  (List.range (areaSquads a.head)).foldl (fun s k =>
    let r := a.squads / 2 ^ (512 * k) % 2 ^ 512
    let q : Sid := ⟨team, field r 0 4 0⟩
    let task := if field r 8 51 0 = 0 then none
      else
        match s.translateWalk l.space (field r 8 51 0) .read with
        | .ok (pa, _) => some pa
        | .error _ => none
    let (n, s) := s.fresh
    let s := s.setSquad q
      { base := field r 0 13 8, lead := some (field r 0 21 16), started := n, window := none, task
        code := match task with | some pa => .ofNat 64 (recCode s pa) | none => l.codeBase }
    (List.range (areaWidth a.head)).foldl (fun s lane =>
      let th := s.loadThread core l (a.thread (k * areaWidth a.head + lane)) (areaRegs a.head) s.serial
      if th.status == .exited then s
      else { s.setThread ⟨team, q.squad, lane⟩ th with serial := s.serial + 16 }) s) s

/-- The commands recorded in an area, as they are to be issued again (R331 step 2, R334). -/
def Area.commands (a : Area) (core team lid : Nat) (space : Space) : List Command :=
  (List.range (areaCmds a.head)).map fun k =>
    let r := a.cmds / 2 ^ (1024 * k) % 2 ^ 1024
    let f := field r
    { Command.blank with
      op := if f 0 7 0 = Op.unseal.code then .unseal else .tcopy
      sub := f 0 15 8
      hint := f 0 18 16
      core
      team
      lid
      space
      done := .ofNat 64 (f 8 63 0)
      addr := f 0x10 63 0
      word := .ofNat 64 (f 0x18 63 0)
      root := bitsOf r (8 * 0x30 - 1) (8 * 0x20)
      tsr := bitsOf r 1023 512 }

/-- The transfers of a recorded command; one that no command can have come to makes the area invalid (R331). -/
def Command.again (c : Command) : Except Nat (List Piece × List Nat × List Nat) :=
  if c.op == .unseal then
    let v := c.word.toNat
    if !unsealOk v then .error Cause.taskRecordInvalid
    else
      .ok (unsealPieces c.addr (bitsOf v 62 60) (bitsOf v 23 0) (bitsOf v 56 32), [],
        pageStarts c.addr (256 * bitsOf v 56 32))
  else
    let r := Tsr.ofNat c.tsr
    if !r.valid then .error Cause.taskRecordInvalid
    else
      let ps := tcopyPieces r c.addr (c.sub == 1)
      let tensor := (tensorSide (c.sub == 1) ps).flatMap fun p => pageStarts p r.size
      let linear := pageStarts c.addr (r.positions * r.size)
      .ok (if c.sub == 1 then (ps, linear, tensor) else (ps, tensor, linear))

/-- A recorded command with its transfers and its pages translated; where that fails it has none, and
completes with the cause; none while a walk is held. -/
def State.renew (s : State) (sp : Space) (c : Command) : Option (Command × State) :=
  let failed := fun (e : Nat) => if e = heldCause then none else some ({ c with cause := e }, s)
  match c.again with
  | .error e => some ({ c with cause := e }, s)
  | .ok (ps, reads, writes) =>
    match s.translatePages c.core sp .read 4 reads [] with
    | .error (e, _) => failed e
    | .ok (m, s) =>
      match s.translatePages c.core sp .write 4 writes m with
      | .error (e, _) => failed e
      | .ok (pages, s) => some ({ c with pieces := ps, pages }, s)

/-- The lines that a recorded command holds absent, counted no more. -/
def State.dropLines (s : State) (c : Command) : State :=
  c.lines.foldl (fun s l => s.setPending c.team l (AMap.getD (s.team c.team).pending l 0 - 1)) s

/-- One recorded command issued again; it waits where its queue has no entry or a line no count left.
DEDUCED (assumption 57). -/
def State.reissue (s : State) (sp : Space) (c : Command) : Option State :=
  match (s.dropLines c).renew sp c with
  | none => none
  | some (c, s) =>
    let ls := linesOf c.pieces
    match s.takeEntry c.core c.team .copy with
    | none => none
    | some shared =>
      if s.linesFull c.team ls then none
      else
        let (id, s) := s.fresh
        let ts := s.threadsOfTeam c.team
        let c := { c with shared, lines := ls, lanes := ts, agent := s.party (ts.headD ⟨c.team, 0, 0⟩) }
        some (startCopy id ((s.setCommand id c).addPending c.team ls))

/-- Commands issued again in order, with those that still wait.
DEDUCED (assumption 57). -/
def State.reissueAll (s : State) (sp : Space) : List Command → List Command × State
  | [] => ([], s)
  | c :: cs =>
    match s.reissue sp c with
    | some s => s.reissueAll sp cs
    | none => (c :: cs, s)

/-- The commands that a CTXSAVE has recorded, to be issued again as those of an area are (R331): those of a save
that fails keep their lines absent until then. -/
def State.reissueStep (s : State) (id : Nat) (o : CtxOp) (n : Nat) (done : State → State) : State :=
  let (rest, s) := s.reissueAll (s.teamLaunch n).space o.records
  if rest.isEmpty then done s
  else
    { s with contexts := s.contexts.set id { o with team := some n, records := rest } }.due
      (.ctxsaveCtxloadCompletion id) coreTicks

/-- The step of a CTXSAVE (R330). Where the area cannot be written, the team goes on, its recorded commands
issued again.
DEDUCED (assumption 56). -/
def State.saveStep (s : State) (id : Nat) (o : CtxOp) (n : Nat) : State :=
  let again := fun (s : State) => s.due (.ctxsaveCtxloadCompletion id) coreTicks
  let fail := fun (s : State) (o : CtxOp) =>
    s.reissueStep id o n fun s => (s.thaw n o.squads).endContext id o o.cause
  if o.cause ≠ 0 then fail s o
  else if !s.quiet n then again s
  else
    let (rs, s) := s.takeRecords n
    let o := { o with records := o.records ++ rs }
    let s := { s with contexts := s.contexts.set id o }
    if !s.drained n then again s
    else
      let s := s.takePending n
      match s.writeVa o.core o.space o.agent o.base.toNat (s.saveArea o n) with
      | .error c => if c = heldCause then again s else fail s { o with cause := c }
      | .ok s => ({ s with free := s.free + 2 ^ 18 }.removeTeam n).retryPlaces.retryTasks.endContext id o 0

/-- The team of an area placed on its cores, still standing (R331): its pool, records, squads and
threads; none where there is no room for its records.
DEDUCED (assumption 57). -/
def State.placeArea (s : State) (o : CtxOp) (a : Area) : Option (Nat × State) :=
  let h := a.head
  let lid := areaLid h
  let l := s.launch lid
  let p := areaPart h
  let (n, s) := s.fresh
  let cmds := a.commands o.core n lid l.space
  let lines := cmds.flatMap fun c =>
    match c.again with
    | .ok r => linesOf r.1
    | .error _ => []
  let absent := (a.absent 0 ++ (if areaPair h then a.absent 1 else [])).filter fun x => !lines.contains x
  let sp := partSp p * 24576
  let skip := (partSp p * 24 + 255) / 256 * 256
  let scr := fun i => Memory.writeNat [] 0 sp (a.half i)
  let acc := fun i => Memory.writeNat [] 0 (partAcc p * 24576) (a.half i / 2 ^ (8 * (sp + skip)))
  let t : Team :=
    { Team.blank with
      lid, number := areaTeam h, core := o.core, paired := areaPair h, slot := o.slot, part := p
      scratch0 := scr 0, acc0 := acc 0
      scratch1 := if areaPair h then scr 1 else []
      acc1 := if areaPair h then acc 1 else []
      pending := absent.map fun x => (x, 1)
      ringCfg := (List.range 8).map fun i => (i, .ofNat 64 (field h (0x50 + 8 * i) 63 0))
      ringTail := (List.range 8).map fun i => (i, .ofNat 32 (bitsOf h (8 * (0x90 + 4 * i) + 31) (8 * (0x90 + 4 * i))))
      stamps := field h 0x48 55 0
      frozen := true }
  let s := s.setTeam n t
  let s := (loadCores h o.core).foldl (fun s c =>
    s.modCore c fun co => { co with slots := co.slots.set o.slot n }) s
  let saved := (l.savedTeams.find? fun t => t.number == areaTeam h).elim [] (·.records)
  (s.loadRecords o.slot o.core 32 (recordPlaces (loadCores h o.core) saved) a.buffer
      (areaOff h 3 - areaOff h 2)).map fun s =>
    let s := if areaSquads h = 0 then s else s.activate o.core
    (n, (s.loadSquads o.core n l a).modLaunch lid fun l =>
      { l with savedTeams := l.savedTeams.filter (·.number != areaTeam h) })

/-! ## Loading: the team goes on (R331 steps 3 and 4) -/

/-- The instruction that a thread stands at. -/
def State.instrAt (s : State) (t : Tid) : Option (Op × Ext × Nat) :=
  match s.fetchAt (s.coreOf t.sid) (s.codeOf t) (s.thread t).pc with
  | .trap _ _ _ => none
  | .ok w _ =>
    match decodeSimt w with
    | .trap _ => none
    | .ok i _ => i.simt

/-- A park that begins while the core's picker stands still: its timeout runs from when the picker goes on (R369). -/
def State.asStopped (s : State) (core : Nat) : Park → Park
  | .word w =>
    if (s.core core).stopped then
      .word { w with deadline := w.deadline.map (· - (s.clock - (s.core core).stopClock) * coreTicks) }
    else .word w
  | k => k

/-- A thread parks again on a condition that its instruction looks at again: WAITW with the time it had
left, RWAIT. Where the read must wait, the instruction is issued again.
DEDUCED (assumption 57). -/
def State.waitAgain (s : State) (t : Tid) (tleft : Nat) : State :=
  match s.instrAt t with
  | none => s.modThread t Thread.unissue
  | some (op, x, len) =>
    let i : Issue := ⟨op, x, len, s.coreOf t.sid, (s.thread t).pc⟩
    let s := if op == .waitw then s.modThread t fun th => { th with waitLeft := some tleft } else s
    let back := fun (s : State) => s.modThread t Thread.unissue
    match if op == .waitw then laneWaitw i t s else if op == .rwait then laneRwait i t s else .wait with
    | .next s => s.goto t i.nextPc
    | .park s k => s.modThread t fun th => { th with status := .parked (s.asStopped i.core k) }
    | .parkAgain k => (back s).modThread t fun th => { th with status := .parked k }
    | .trap c a => (back s).takeTrapsAside [i.trapRec t c a]
    | _ => back s

/-- A parked thread of an area parks again on its saved condition (R331 step 3).
DEDUCED (assumption 57). -/
def State.parkAgain (s : State) (t : Tid) (rec_ : Nat) : State :=
  let len := match s.instrAt t with | some (_, _, n) => n | none => 4
  let park := fun k => s.modThread t fun th => { th with status := .parked k }
  let a : DWord := .ofNat 64 (field rec_ 0x18 63 0)
  match field rec_ 0x10 63 60 with
  | 1 =>
    if AMap.getD (s.team t.team).pending (scratchHalf a, scratchOff a / 128) 0 = 0 then s
    else park (.line (scratchHalf a) (scratchOff a / 128))
  | 2 | 3 => s.waitAgain t (field rec_ 0x10 31 0)
  | 4 => park (.tbar len)
  | 5 => park .lease
  | 6 => park (.ssync len)
  | 7 => (park (.tracker false (s.squad t.sid).started)).due (.exitTrackerResume t.sid) 0
  | _ => s

/-- The trap of a thread in trap delivery, as its CSRs hold it, to be reported again. -/
def State.trapAgain (s : State) (t : Tid) : TrapRec :=
  let th := s.thread t
  let v := th.trapCause.toNat
  { tid := t, cause := v % 256, addr := th.trapAddr, pc := th.trapPc, resume := th.resume
    llf := bitOf v 8, fatal := bitOf v 20, issued := bitsOf v 19 16 }

/-- A restored trap put to the first of some issues that it can have been taken in (R322): one of its PC and
its TRAPLANES in which its position has not trapped yet. -/
def State.addToIssue (s : State) (r : TrapRec) : List (List TrapRec) → List (List TrapRec)
  | [] => [[r]]
  | g :: gs =>
    if g.all fun a =>
        s.sameReport a r && (s.thread a.tid).trapLanes == (s.thread r.tid).trapLanes &&
          s.position a.tid != s.position r.tid then (g ++ [r]) :: gs
    else g :: s.addToIssue r gs

/-- The squads of an area in its pick order. -/
def Area.ranked (a : Area) (team : Nat) : List Sid :=
  (List.range 64).flatMap fun r =>
    ((List.range (areaSquads a.head)).filter fun k => field a.squads (64 * k) 29 24 == r).map fun k =>
      (⟨team, field a.squads (64 * k) 4 0⟩ : Sid)

/-- The team of an area goes on.
DEDUCED (assumption 57). -/
def State.resumeArea (s : State) (n : Nat) (a : Area) : State :=
  let w := areaWidth a.head
  let ts := (List.range (areaSquads a.head)).flatMap fun k =>
    (List.range w).map fun lane => ((⟨n, field a.squads (64 * k) 4 0, lane⟩ : Tid), a.thread (k * w + lane))
  let ts := ts.filter fun p => (AMap.find? p.1 s.threads).isSome
  let parked := ts.filter fun p => field p.2 0 63 60 == 1
  let rs := (ts.filter fun p => (s.thread p.1).status == .trapped).map fun p => s.trapAgain p.1
  let s := ((rs.foldl (fun gs r => s.addToIssue r gs) []).flatMap fun g => s.reportsOf g g).foldl State.submit s
  let s := s.thaw n (a.ranked n)
  let s := parked.foldl (fun s p => s.parkAgain p.1 p.2) s
  let lease := areaLwait a.head || (parked.any fun p => field p.2 0x10 63 60 == 5)
  let s := if lease then s.leaseAsk n else s
  (s.squadsOfTeam n).foldl (fun s q => s.relead q false) s

/-- The step of a CTXLOAD (R331), whose core's block powers on first (R434).
DEDUCED (assumption 57). -/
def State.loadStep (s : State) (id : Nat) (o : CtxOp) : State :=
  let sp := o.space
  match s.readArea o.core sp o.agent o.base.toNat with
  | .error c =>
    if c = heldCause then s.due (.ctxsaveCtxloadCompletion id) coreTicks
    else s.endContext id o Cause.taskRecordInvalid
  | .ok (a, s) =>
    if o.team.isNone && s.loadable o.core o.slot a && !(s.powerOf o.core).on then
      (s.askPower o.core).due (.ctxsaveCtxloadCompletion id) coreTicks
    else
      let placed := match o.team with
        | some n => some (n, o.records, s)
        | none =>
          if !s.loadable o.core o.slot a then none
          else (s.placeArea o a).map fun (r : Nat × State) =>
            (r.1, a.commands o.core r.1 (areaLid a.head) (s.launch (areaLid a.head)).space, r.2)
      match placed with
      | none => s.endContext id o Cause.taskRecordInvalid
      | some (n, cs, s) =>
        s.reissueStep id { o with records := cs } n fun s =>
          ((s.resumeArea n a).endContext id o 0).retryTasks.due (.launchComplete (areaLid a.head)) 0

/-- CTXSAVE_CTXLOAD_COMPLETION (R329-R331): a misaligned CTXBASE, an empty slot and a team lost meanwhile
(R381) are recorded; else the operation goes on, and its completion is signalled when it is done. -/
def execCtxsaveCtxloadCompletion (id : Nat) (s : State) : Out :=
  match AMap.find? id s.contexts with
  | none => .next s
  | some o =>
    .next (if o.base.toNat % 256 ≠ 0 then s.endContext id o Cause.alignment
      else if o.load then s.loadStep id o
      else
        match o.team with
        | none => s.endContext id o Cause.taskRecordInvalid
        | some n =>
          if (AMap.find? n s.teams).isNone then s.endContext id o Cause.dataUncorrectable
          else s.saveStep id o n)

end Sys2Proof.Machine
end

