-- ==== Sys2Proof/Machine/ScribeCore.lean ====
section
/-! DEFINITION. Scribe cores (R294-R299): registers, addresses and their checks, fetching, the skeleton of
a Scribe instruction, and how a task ends (R308, R309). -/

namespace Sys2Proof.Machine

/-! ## Names and registers (R297) -/

/-- The site, the stack and the number on its stack of a Scribe core. -/
def scribeSite (sc : Nat) : Nat := sc / 64
def scribeStack (sc : Nat) : Nat := sc / 16 % 4
def scribeNumber (sc : Nat) : Nat := sc % 16

/-- s registers: s0 reads zero, and writes to it are discarded. -/
def ScribeCore.rs (c : ScribeCore) (i : BitVec 5) : DWord := if i = 0 then 0 else AMap.getD c.s i.toNat 0
def ScribeCore.setS (c : ScribeCore) (i : BitVec 5) (v : DWord) : ScribeCore :=
  if i = 0 then c else { c with s := c.s.set i.toNat v }

/-- z registers: lane i of z n. -/
def ScribeCore.lane (c : ScribeCore) (n : BitVec 5) (i : Nat) : Word := (AMap.getD c.z n.toNat []).getD i 0
def ScribeCore.setLanes (c : ScribeCore) (n : BitVec 5) (f : Nat → Word) : ScribeCore :=
  { c with z := c.z.set n.toNat ((List.range 16).map f) }

/-- Mask registers: m0 reads all ones, and writes to it are discarded. -/
def ScribeCore.mask (c : ScribeCore) (k : Nat) : BitVec 16 := if k = 0 then 0xFFFF else AMap.getD c.m k 0
def ScribeCore.setMask (c : ScribeCore) (k : Nat) (v : BitVec 16) : ScribeCore :=
  if k = 0 then c else { c with m := c.m.set k v }

/-- Whether lane i is active under a word's mask (R300). -/
def ScribeCore.active (c : ScribeCore) (w : SWord) (i : Nat) : Bool := (c.mask w.m.toNat).getLsbD i

/-- The active lanes of a word, ascending. -/
def ScribeCore.lanes (c : ScribeCore) (w : SWord) : List Nat := (List.range 16).filter (c.active w)

/-- Flags ORed into SFLAGS. -/
def ScribeCore.raise (c : ScribeCore) (f : Nat) : ScribeCore := { c with flags := c.flags ||| .ofNat 6 f }

/-- The registers a word reads, s i as i and z i as 32 + i (R294). -/
def scribeReads (w : SWord) : List Nat :=
  let s := fun (r : BitVec 5) => r.toNat
  let z := fun (r : BitVec 5) => 32 + r.toNat
  match w.op with
  | 0x01 | 0x02 | 0x03 | 0x04 | 0x05 | 0x06 | 0x07 | 0x08 | 0x0C | 0x38 => [s w.a, s w.b]
  | 0x09 | 0x11 | 0x12 | 0x13 | 0x18 | 0x1A | 0x2E => [s w.a]
  | 0x0B => if w.i = 0 ∨ w.i = 1 ∨ w.i = 4 ∨ w.i = 6 then [s w.a] else []
  | 0x19 => [s w.a, s w.d]
  | 0x1B => [s w.a, z w.d]
  | 0x1C => [s w.a, z w.b]
  | 0x1D | 0x1E => [s w.a, z w.b, z w.d]
  | 0x20 | 0x21 | 0x22 | 0x24 | 0x25 | 0x26 | 0x2B | 0x2C => [z w.a, z w.b]
  | 0x23 => [z w.a, z w.b, z w.d]
  | 0x27 | 0x28 | 0x29 | 0x2A | 0x2D => [z w.a]
  | 0x2F => if bitOf w.i.toNat 4 then [z w.a] else [s w.a]
  | _ => []

/-! ## Addresses (R298) -/

/-- Where a Scribe address leads. -/
inductive SLoc where
  | glob (pa : Nat)
  | sram (off : Nat)
deriving DecidableEq, Repr

/-- What an access comes to: its place, a trap, a page to wait for (R294), or a flush or flip to wait
for. -/
inductive SAcc where
  | ok (l : SLoc) (s : State)
  | trap (cause : Nat)
  | absent
  | held

/-- The address space of a Scribe core's task. -/
def State.scribeSpace (s : State) (sc : Nat) : Space :=
  match (s.scribeCore sc).task with
  | some (_, lid) => (s.launch lid).space
  | none => (Launch.blank).space

/-- A translation in a Scribe core's TLB: 32 and 8 entries (R294). -/
def State.scribeTranslate (s : State) (sc va : Nat) (kind : AccessKind) : Except TransFault (Nat × State) :=
  if needsWalk (s.scribeCore sc).tlb (s.scribeSpace sc) va kind && s.walkHeld (s.scribeSpace sc) va then
    .error heldCause
  else
    match translateWith 32 8 (s.scribeCore sc).tlb s.mem (s.scribeSpace sc) va kind with
    | .error c => .error c
    | .ok (pa, tlb, m) => .ok (pa, (s.modScribe sc fun c => { c with tlb }).walked (s.scribeSpace sc) va m)

/-- R298's form of an address. -/
def scribeForm (a : Nat) : Bool :=
  (a / 2 ^ 56 == 0 && bitsOf a 55 52 == 0) || (a / 2 ^ 56 == 2 && bitsOf a 55 18 == 0)

/-- The checks of R298 on an access of `n` bytes, and of R338; `whole` says that the instruction's stores cover the
access's granule of DRAM. -/
def State.scribeAccess (s : State) (sc : Nat) (a : DWord) (n : Nat) (kind : AccessKind)
    (whole : Bool := false) : SAcc :=
  let v := a.toNat
  if !scribeForm v then .trap Cause.addressForm
  else if v % n ≠ 0 then .trap Cause.alignment
  else if v / 2 ^ 56 = 2 then .ok (.sram (v % 2 ^ 18)) s
  else
    match s.scribeTranslate sc v kind with
    | .error c => if c = Cause.nonresident then .absent else if c = heldCause then .held else .trap c
    | .ok (pa, s) =>
      if isRegisterPa pa && !(n == 4 || n == 8) then .trap Cause.alignment
      else if s.accessHeld pa then .held
      else if kind == .write && !whole && s.badStore (.glob pa) n then .trap Cause.dataUncorrectable
      else if kind != .write && s.badLoc 0 (.glob pa) n then .trap Cause.dataUncorrectable
      else .ok (.glob pa) s

/-- The `n` bytes at a place, as an update there finds them (R125). -/
def State.scribeNow (s : State) (sc : Nat) (l : SLoc) (n : Nat) : Nat :=
  match l with
  | .glob pa => s.readLoc 0 (.glob pa) n
  | .sram o => (s.scribeCore sc).sram.readNat o n

/-- The `n` bytes at a place as a load reads them, on path n (R110). -/
def State.scribeRead (s : State) (sc : Nat) (l : SLoc) (n : Nat) : Nat × State :=
  match l with
  | .glob pa => s.seen .n (.scribe sc) 0 (.glob pa) n
  | .sram _ => (s.scribeNow sc l n, s)

/-- A store at a place, an event of its own or a part of an indivisible update (R126).
DEDUCED (assumption 59). -/
def State.scribeWrite (s : State) (sc : Nat) (update : Option Nat) (l : SLoc) (n v : Nat) : State :=
  match l with
  | .glob pa => s.writeAs .n (.scribe sc) (.scribe sc) update 0 (.glob pa) n v
  | .sram o => s.modScribe sc fun c => { c with sram := c.sram.writeNat o n v }

/-! ## The end of a task (R308, R309) -/

/-- The record of a Scribe task's start or end (R413). -/
def State.traceScribe (s : State) (sc : Nat) (lid : Nat) (ended : Option (Nat × Nat)) : State :=
  let p := scribeStack sc * 2 ^ 22 + scribeNumber sc * 2 ^ 18
  match ended with
  | none => s.report (scribeSite sc) 0x2301 4 noCore (s.tenantOf lid) p
  | some e => s.engineEvent (s.event (scribeSite sc) 0x4300 4 noCore (s.tenantOf lid) p (some e))

/-- The core idle, its dispatcher asked for more work. -/
def State.scribeIdle (s : State) (sc lid : Nat) : State :=
  ((s.modScribe sc fun c => { c with task := none, loads := [], stall := none, lastLaunch := lid }).due
    (.taskDispatch (scribeSite sc)) 0).due (.launchComplete lid) 0

/-- The task passes to DONE with a cause, 0 for none, once its writes are performed (R309, R310).
DEDUCED (assumption 60). -/
def State.scribeEnd (s : State) (sc cause : Nat) : State :=
  match (s.scribeCore sc).task with
  | none => s
  | some (pa, lid) =>
    let va := s.taskAddr (some pa)
    let s := s.completeWrites (.scribe sc)
    let s := if cause = 0 then s else s.recError (.scribe sc) pa cause
    let s := s.finishTask pa (cause != 0) cause
    (s.traceScribe sc lid (some (va, cause))).scribeIdle sc lid

/-- A Scribe trap (R309): the fault registers are written and the task ends as failed. -/
def State.scribeTrap (s : State) (sc cause : Nat) (addr : DWord) : State :=
  (s.modScribe sc fun c =>
    { c with sfault := .ofNat 64 (cause * 2 ^ 56 + c.pc % 2 ^ 32), sfaddr := addr }).scribeEnd sc cause

/-! ## The skeleton -/

/-- What a Scribe instruction comes to. -/
inductive ScribeOut where
  | next (s : State)
  | jump (s : State) (pc : Nat)
  | trap (cause : Nat) (addr : DWord)
  /-- The core stalls until a page is resident (R294). -/
  | stall (va : Nat)
  /-- The access is held by a flush or a flip: the instruction is made in a later clock. -/
  | hold
  /-- The task has ended. -/
  | stop (s : State)

/-- A core stalled on a page. -/
def State.scribeStall (s : State) (sc va : Nat) : State :=
  (s.modScribe sc fun c => { c with stall := some va }).due (.scribePageResume sc) coreTicks

/-- The skeleton of a Scribe instruction: the decode checks of R299, the wait for outstanding loads
(R294), then its effect.
DEDUCED (assumption 59). DESIGN CHOICE (assumption 87). -/
def scribeRun (w : SWord) (f : Nat → ScribeCore → State → ScribeOut) (s : State) : Out :=
  match s.scribe with
  | none => .fault .noAgent
  | some sc =>
    let s := { s with scribe := none }
    let c := s.scribeCore sc
    match scribeCheck w with
    | some e => .next (s.scribeTrap sc e 0)
    | none =>
      if (scribeReads w).any c.loads.contains then .next s
      else
        match f sc c s with
        | .next s => .next (s.modScribe sc fun c => { c with pc := (c.pc + 4) % 2 ^ 32 })
        | .jump s pc => .next (s.modScribe sc fun c => { c with pc })
        | .trap e a => .next (s.scribeTrap sc e a)
        | .stall va => .next (s.scribeStall sc va)
        | .hold => .next s
        | .stop s => .next s

/-- A register whose load is on its way.
DEDUCED (assumption 59). -/
def State.scribeLoading (s : State) (sc r : Nat) : State :=
  (s.modScribe sc fun c => { c with loads := c.loads ++ [r] }).due (.scribeLoadReturn sc) (2 * coreTicks)

/-- SCRIBE_LOAD_RETURN (R294): the oldest outstanding load returns its register.
DEDUCED (assumption 59). -/
def execScribeLoadReturn (sc : Nat) (s : State) : Out :=
  .next (s.modScribe sc fun c => { c with loads := c.loads.drop 1 })

/-- SCRIBE_PAGE_RESUME (R294): the page that a core waits for is resident, or no longer valid, and the
access is made again. -/
def execScribePageResume (sc : Nat) (s : State) : Out :=
  match (s.scribeCore sc).stall with
  | none => .next s
  | some va =>
    match s.translateWalk (s.scribeSpace sc) va .read with
    | .error c =>
      if c = Cause.nonresident ∨ c = heldCause then .next (s.due (.scribePageResume sc) coreTicks)
      else .next (s.modScribe sc fun c => { c with stall := none })
    | .ok _ => .next (s.modScribe sc fun c => { c with stall := none })

/-! ## Fetching (R295, R299 step 1) -/

/-- The `n` bytes at a virtual address, in at most `fuel` accesses, each translated for fetching (R21). -/
def State.scribePieces (s : State) (sc : Nat) : (fuel va n : Nat) → Except (Nat × Nat) (Nat × State)
  | 0, _, _ => .ok (0, s)
  | fuel + 1, va, n =>
    if n = 0 then .ok (0, s)
    else
      let k := accessBytes va n
      match s.scribeTranslate sc va .fetch with
      | .error c => .error (c, va)
      | .ok (pa, s1) =>
        if isRegisterPa pa && k == 1 then .error (Cause.alignment, va)
        else if s.accessHeld pa then .error (heldCause, va)
        else if s1.badLoc 0 (.glob pa) k then .error (Cause.dataUncorrectable, va)
        else
          match s1.scribePieces sc fuel (va + k) (n - k) with
          | .error e => .error e
          | .ok (v, s2) => .ok (s2.readLoc 0 (.glob pa) k + 2 ^ (8 * k) * v, s2)

/-- The `n` bytes at a virtual address, fetched. -/
def State.scribeFetch (s : State) (sc va n : Nat) : Except (Nat × Nat) (Nat × State) := s.scribePieces sc n va n

/-- The next word of a task: the image's header is looked at, then the word at the PC. -/
def State.scribeWord (s : State) (sc : Nat) : Except (Nat × Nat) (Nat × State) :=
  let c := s.scribeCore sc
  match s.scribeFetch sc c.image 64 with
  | .error e => .error e
  | .ok (h, s) =>
    if h % 2 ^ 32 ≤ c.pc ∨ h / 2 ^ 64 ≠ 0 then .error (Cause.codeBounds, 0)
    else s.scribeFetch sc (c.image + 0x40 + c.pc) 4

end Sys2Proof.Machine
end

