-- ==== Sys2Proof/Machine/Placing.lean ====
section
/-! DEFINITION. The scheduler: placing teams (R69), dispatching tasks (R66, R67), and the congestion cap
(R73). -/

namespace Sys2Proof.Machine

/-! ## Placing teams (R69) -/

/-- The sites a launch may use. -/
def Launch.permitted (l : Launch) : List Nat := (List.range siteCount).filter l.permits

/-- The number of the next team of a launch to place. -/
def Launch.nextNumber (l : Launch) : Nat := l.returned.foldl min l.nextTeam

/-- R365: under tenant-debug and halt-capable, no team of another tenant joins a core with a team of the
tenant. -/
def State.debugKeeps (s : State) (c : Nat) (l : Launch) : Bool :=
  s.level == 1 && s.haltCapable && l.tenant != s.dbgTenant &&
    (s.teamsOn c).any fun n => (s.teamLaunch n).tenant == s.dbgTenant

/-- Whether the cores from `c` have room for a team of a launch with its initial squads (R69). -/
def State.fits (s : State) (l : Launch) (c : Nat) : Bool :=
  let cs := if l.pair then [c, c + 1] else [c]
  (if l.pair then s.pairPublished c else s.named c) && (s.freeSlot cs).isSome &&
    cs.all fun d =>
      let q := if l.pair then (if d = c then (l.sqn + 1) / 2 else l.sqn / 2) else l.sqn
      decide (partUnits l.part ≤ s.freeUnits d) && decide (q * l.width ≤ s.freeThreads d) &&
        !s.debugKeeps d l

/-- The units by which candidates are compared. -/
def State.roomOf (s : State) (l : Launch) (c : Nat) : Nat :=
  if l.pair then min (s.freeUnits c) (s.freeUnits (c + 1)) else s.freeUnits c

/-- The candidate with the most free units, the lowest of equals. -/
def State.mostRoom (s : State) (l : Launch) : List Nat → Option Nat
  | [] => none
  | c :: cs =>
    match s.mostRoom l cs with
    | none => some c
    | some d => if s.roomOf l d ≤ s.roomOf l c then some c else some d

/-- The core on which the next team of a launch is placed (R69).
DESIGN CHOICE (assumption 89). -/
def State.placeFor (s : State) (l : Launch) : Option Nat :=
  (List.range 60).findSome? fun n =>
    if !l.permits n || (s.site n).out || (s.site n).off then none
    else s.mostRoom l ((List.range' (96 * n) 96).filter (s.fits l))

/-- The core that the next team of a launch is for: one whose block it waits for, while that is still open to it, or
one chosen anew (R69, R434).
DESIGN CHOICE (assumption 89). -/
def State.heldPlace (s : State) (l : Launch) : Option Nat :=
  (l.heldAt.filter fun c =>
    l.permits (siteOf c) && !(s.site (siteOf c)).out && !(s.site (siteOf c)).off && s.fits l c).or (s.placeFor l)

/-- A placement held until its block has power (R69, R434); a notice sent before then does not count. -/
def State.holdPlace (s : State) (lid c : Nat) : State :=
  ((s.forgetStart (siteOf c) (.teamPlace lid)).modLaunch lid fun l => { l with heldAt := some c }).askPower c

/-- The predicted step of a team's start on its cores (R77): each on which squads of it start. -/
def State.startStep (s : State) (l : Launch) (c : Nat) : Nat :=
  ((if l.pair && 1 < l.sqn then [c, c + 1] else [c]).map fun d =>
    if (s.residentOn d).isEmpty then 15 else 5).sum

/-- The blocks a team at a core needs, without power. -/
def State.unpowered (s : State) (c : Nat) : Bool := !(s.powerOf c).on

/-- A team placed on a core, its initial squads started (R32, R69, R85). -/
def State.placeTeam (s : State) (lid c : Nat) : State :=
  let l := s.launch lid
  let cs := if l.pair then [c, c + 1] else [c]
  let slot := (s.freeSlot cs).getD 0
  let number := l.nextNumber
  let (n, s) := s.fresh
  let s := s.setTeam n { Team.blank with lid, number, core := c, paired := l.pair, slot, part := l.part }
  let s := cs.foldl (fun s d => s.modCore d fun co => { co with slots := co.slots.set slot n }) s
  let s := s.modLaunch lid fun l =>
    if l.returned.contains number then { l with returned := l.returned.filter (· != number), heldAt := none }
    else { l with nextTeam := l.nextTeam + 1, heldAt := none }
  let s := s.report (siteOf c) 0x2401 5 noCore l.tenant number
  let s := s.startSquads n (s.slotsFor n l.sqn) l.codeBase (l.codeBase + .ofNat 64 l.entry) none none
  let s := s.modSite (siteOf c) fun st => { st with lastPlace := some s.tick }
  if l.sqn = 0 then s.due (.teamRelease n) 0 else s.activate c

/-- The interval between dispatches of a reticle (R66).
DESIGN CHOICE (assumption 12). -/
def dispatchTicks : Nat := 32

/-- R69: a launch that is placed before another has a team that can be placed now. -/
def State.outranked (s : State) (lid : Nat) : Bool :=
  (s.placing.takeWhile (· != lid)).any fun k =>
    match s.heldPlace (s.launch k) with
    | some c => !s.unpowered c
    | none => false

/-- The ticks until a reticle's dispatcher has a slot for a further team (R78). A team start and the dispatch of a task
do not share their slots.
DESIGN CHOICE (assumption 122). -/
def State.slotWait (s : State) (site : Nat) : Nat :=
  match (s.site site).lastPlace with
  | some t => t + dispatchTicks - s.tick
  | none => 0

/-- TEAM_PLACE (R69): the next team of a launch is placed where it fits, behind the teams of launches before
it and one to a reticle's dispatcher slot (R78); a gated block powers on first, and a step that the regulator
must be told of first waits (R77). -/
def execTeamPlace (lid : Nat) (s : State) : Out :=
  match AMap.find? lid s.launches with
  | none => .next s
  | some l =>
    if !l.unplaced then .next s
    else
      match s.heldPlace l with
      | none => .next (l.permitted.foldl (fun s n => s.forgetStart n (.teamPlace lid)) s)
      | some c =>
        if s.unpowered c then .next (s.holdPlace lid c)
        else if s.outranked lid then .next (s.due (.teamPlace lid) dispatchTicks)
        else if 0 < s.slotWait (siteOf c) then .next (s.due (.teamPlace lid) (s.slotWait (siteOf c)))
        else
          match s.mayStart (siteOf c) (s.startStep l c) (.teamPlace lid) with
          | (false, s) => .next s
          | (true, s) =>
            let s := (s.placeTeam lid c).retryTasks.due (.launchComplete lid) coreTicks
            .next (if (s.launch lid).unplaced then s.due (.teamPlace lid) dispatchTicks else s)

/-! ## Dispatching tasks (R66) -/

/-- The squads a SIMT task starts as in a team, where the team has room for them. -/
def State.taskRoom (s : State) (t : ReadyTask) (team : Nat) : Option (List Nat) :=
  let tm := s.team team
  let qs := s.slotsFor team t.sqn
  if tm.lid == t.lid && !tm.frozen && (t.block == 15 || blockOf tm.core == t.block) &&
      qs.length == t.sqn && s.roomFor team qs then some qs
  else none

/-- The team of lowest number on a site that can take a task, with the squads.
DESIGN CHOICE (assumption 89). -/
def State.teamFor (s : State) (t : ReadyTask) (site : Nat) : List Nat → Option (Nat × List Nat)
  | [] => none
  | n :: ns =>
    let rest := s.teamFor t site ns
    if siteOf (s.team n).core ≠ site then rest
    else
      match s.taskRoom t n, rest with
      | none, r => r
      | some qs, none => some (n, qs)
      | some qs, some r => if (s.team r.1).number < (s.team n).number then some r else some (n, qs)

/-- The sites in order of mesh hops from one, the lowest of equals first. -/
def nearest (site : Nat) : List Nat :=
  (List.range 32).flatMap fun d => (List.range 60).filter fun n => meshHops site n == d

/-- Where a SIMT task of a site's queue can start now: on no team of a reticle that is OUT (R67, R385). -/
def State.simtPlace (s : State) (site : Nat) (t : ReadyTask) : Option (Nat × List Nat) :=
  let teams := (s.teamsOfLaunch t.lid).filter fun n => !(s.site (siteOf (s.team n).core)).out
  if teams.any fun n => siteOf (s.team n).core == site then s.teamFor t site teams
  else (nearest site).findSome? fun n => s.teamFor t n teams

/-- The idle Scribe core of lowest number on a stack of a site. -/
def State.idleScribe (s : State) (site stack : Nat) : Option Nat :=
  if (s.site site).out || (s.site site).off then none
  else
    ((List.range 16).map fun k => site * 64 + stack * 16 + k).find? fun sc =>
      !(s.site site).scdead.getLsbD (sc % 64) && (s.scribeCore sc).task.isNone

/-- Where a task starts. -/
inductive TaskPlace where
  | team (n : Nat) (qs : List Nat)
  | scribe (sc : Nat)
deriving DecidableEq, Repr

def State.taskPlace (s : State) (site : Nat) (t : ReadyTask) : Option TaskPlace :=
  if s.accessHeld t.addr then none
  else if t.scribe then (s.idleScribe site t.stack).map .scribe
  else (s.simtPlace site t).map fun p => .team p.1 p.2

/-- The first task of a list that can start now. -/
def State.firstTask (s : State) (site : Nat) (ts : List ReadyTask) : Option (ReadyTask × TaskPlace) :=
  ts.findSome? fun t => (s.taskPlace site t).map fun p => (t, p)

/-- The next task to dispatch: in level and FIFO order, or for every 64th dispatch the oldest (R66). -/
def State.nextTask (s : State) (site : Nat) : Option (ReadyTask × TaskPlace) :=
  let st := s.site site
  if (st.dispatches + 1) % 64 = 0 then s.firstTask site st.readyQ
  else
    (List.range 32).findSome? fun k => s.firstTask site (st.readyQ.filter fun t => t.prio == 31 - k)

/-- A task out of its ready queue; one that Barrel kept for want of room is appended (R66). -/
def State.takeTask (s : State) (site : Nat) (t : ReadyTask) : State :=
  ((s.removeTask site t).refill site).modSite site fun st =>
    { st with dispatches := st.dispatches + 1, lastDispatch := s.tick }

/-- The fences that DEFERs left for a continuation, placed before the first instruction of each of its squads (R122). -/
def State.deferFence (s : State) (pa n : Nat) (qs : List Nat) : State :=
  (AMap.getD s.fences pa []).foldl (fun s f => qs.foldl (fun s q => s.fence f (s.party ⟨n, q, 0⟩)) s) s

/-- A SIMT task started on a team (R32, R66). -/
def State.startSimt (s : State) (t : ReadyTask) (n : Nat) (qs : List Nat) : State :=
  let code := recCode s t.addr
  let pc : DWord := .ofNat 64 (code + recEntry s t.addr)
  ((s.startSquads n qs (.ofNat 64 code) pc (some t.addr) (some (recArg s t.addr))).deferFence t.addr n qs).activate
    (s.team n).core

/-- A Scribe task started on a core (R296). -/
def State.startScribe (s : State) (t : ReadyTask) (sc : Nat) : State :=
  let va := s.taskAddr (some t.addr)
  let s := s.modScribe sc fun c =>
    { c with
      s := [(1, .ofNat 64 (recArg s t.addr)), (2, .ofNat 64 va)]
      z := []
      m := []
      flags := 0
      pc := recEntry s t.addr
      stack := []
      sram := if c.lastLaunch = t.lid then c.sram else []
      task := some (t.addr, t.lid)
      image := recCode s t.addr
      loads := []
      stall := none }
  s.traceScribe sc t.lid none

/-- A task dispatched (R64, R66). -/
def State.dispatch (s : State) (site : Nat) (t : ReadyTask) (p : TaskPlace) : State :=
  let s := (s.takeTask site t).setRecState .module t.addr 3
  let s := s.report site 0x2402 5 noCore (s.tenantOf t.lid) (s.taskAddr (some t.addr) / 64 % 2 ^ 24)
  match p with
  | .team n qs => s.startSimt t n qs
  | .scribe sc => s.startScribe t sc

/-- The predicted step of a dispatch (R77). -/
def TaskPlace.step : TaskPlace → Nat
  | .team _ _ => 0
  | .scribe _ => 3

/-- TASK_DISPATCH (R66): one ready task starts, at most one in 4 ns. -/
def execTaskDispatch (site : Nat) (s : State) : Out :=
  let st := s.site site
  if st.dispatches ≠ 0 ∧ s.tick < st.lastDispatch + dispatchTicks then
    .next (if st.readyQ.isEmpty then s else s.due (.taskDispatch site) (st.lastDispatch + dispatchTicks - s.tick))
  else
    match s.nextTask site with
    | none => .next (s.forgetStart site (.taskDispatch site))
    | some (t, p) =>
      match s.mayStart site p.step (.taskDispatch site) with
      | (false, s) => .next s
      | (true, s) =>
        let s := s.dispatch site t p
        .next (if (s.site site).readyQ.isEmpty then s else s.due (.taskDispatch site) dispatchTicks)

/-! ## The congestion cap (R73) -/

/-- The interval of 128 core clocks between samples. -/
def sampleTicks : Nat := 640

/-- The next sample of a reticle, its occupancies the routers'.
DEDUCED (assumption 90). -/
def State.sampleLater (s : State) (site : Nat) : State :=
  let (a, s) := s.drawFree
  s.due (.congestionSample site [a % 65536]) sampleTicks

/-- CONGESTION_SAMPLE (R73): the cap of a reticle that is on follows the largest occupancy of its six memory
routers.
DEDUCED (assumption 90). -/
def execCongestionSample (site : Nat) (occ : List Nat) (s : State) : Out :=
  if (s.site site).off then .next s
  else
    let m := occ.foldl max 0
    let bank := (s.site site).activeBank
    let s := s.modSite site fun st =>
      { st with
        cap := if thresholdHigh bank < m then max 8 (st.cap - 8)
          else if m < thresholdLow bank ∧ thresholdLow bank < thresholdHigh bank then min 64 (st.cap + 8)
          else st.cap }
    .next (s.sampleLater site)

end Sys2Proof.Machine
end

