-- ==== Sys2Proof/Machine/WaferTime.lean ====
section
/-! DEFINITION. Wafer time (R386-R388): link delays, the time tree, and the lock to PTP. -/

namespace Sys2Proof.Machine

/-- The 65,536 mesh clocks between measurements of a link. -/
def measureTicks : Nat := 262144

/-- The next measurement of a link, its delay the link's.
DESIGN CHOICE (assumption 67). -/
def State.delayLater (s : State) (site edge : Nat) : State :=
  let (d, s) := s.drawFree
  s.due (.linkDelayMeasure site edge (.ofNat 32 d)) measureTicks

/-- LINK_DELAY_MEASURE (R387): an edge port has measured its link's delay, in ps.
DESIGN CHOICE (assumption 67). -/
def execLinkDelayMeasure (site edge : Nat) (ps : Word) (s : State) : Out :=
  if !s.linkAlive site edge || (s.site site).off then .next s
  else
    let s := s.modSite site fun st =>
      { st with linkdly := st.linkdly.set edge (.ofNat 64 (2 ^ 63 + ps.toNat)) }
    .next (s.delayLater site edge)

/-- TIME_TREE_REPARENT (R387): Nib gives a reticle a new parent over a surviving link; where the link chosen has died
meanwhile, over another.
DEDUCED (assumption 68). -/
def execTimeTreeReparent (site parent : Nat) (s : State) : Out :=
  if site = timeRoot then .next s
  else
    let ns := s.aliveNeighbours site
    match if ns.contains parent then some parent else nearestOf (s.distances siteCount) ns with
    | some p => .next (s.modSite site fun st => { st with timeParent := some p })
    | none => .next s

/-- WTSTATUS with a state. -/
def State.setWt (s : State) (state : Nat) (offset : Word) : State :=
  { s with wtstatus := .ofNat 64 (state * 2 ^ 62 + offset.toNat) }

/-- The bound of a lock on the offset from the reference, in ns (R388). -/
def lockBound : Nat := 25

/-- PTP_SYNC (R388, R386): a measurement against the reference: the clock is locked where it lies within the
lock's bound, and unlocked else, and the offset is to be slewed away.
DESIGN CHOICE (assumption 69). DESIGN CHOICE (assumption 91). -/
def execPtpSync (offset : Word) (s : State) : Out :=
  .next ({ s with slew := -8 * offset.toInt }.setWt (if offset.toInt.natAbs ≤ lockBound then 1 else 0) offset)

/-- PTP_HOLDOVER (R388): the reference is lost, and the last offset stays.
DESIGN CHOICE (assumption 69). -/
def execPtpHoldover (s : State) : Out :=
  .next (if bitsOf s.wtstatus.toNat 63 62 = 1 then s.setWt 2 (.ofNat 32 s.wtstatus.toNat) else s)

end Sys2Proof.Machine
end

