-- ==== Sys2Proof/Machine/Power.lean ====
section
/-! DEFINITION. Power states of blocks and reticles (R433), region power-on (R434), the module's power limit
(R430) and its thermal limit (R436). -/

namespace Sys2Proof.Machine

/-- One millisecond of idleness, and the interval at which an idle block that could not be gated is looked
at again. -/
def gateTicks : Nat := 8000000
def regateTicks : Nat := 80000

/-- The cores of a block by their linear logical indices. -/
def coresOfBlock (site b : Nat) : List Nat := List.range' (site * 96 + b * 8) 8

/-- BLOCK_IDLE (R433): no squad has been resident in the block for 10 µs.
DESIGN CHOICE (assumption 70). -/
def execBlockIdle (site block : Nat) (s : State) : Out :=
  let b := (s.site site).block block
  if b.power = .active ∧ !s.blockBusy site block ∧ b.since + idleTicks ≤ s.tick then
    .next ((s.modBlock site block fun v => { v with power := .idle s.tick }).due (.blockGate site block) gateTicks)
  else .next s

/-- R433, R366: what keeps an idle block from being gated: a placed team, a tracker entry, a reservation,
work of its engines, or a halted core. -/
def State.keepsPower (s : State) (site block : Nat) : Bool :=
  ((coresOfBlock site block).any fun c =>
    !(s.teamsOn c).isEmpty || !(s.core c).tracker.isEmpty || !(s.core c).records.isEmpty ||
      !(s.core c).engine.isEmpty || (s.core c).halted) || !((s.site site).block block).spareHalt.isEmpty

/-- A core without power: its operand buffer and L1 are lost. -/
def Core.dark (co : Core) : Core := { co with opBuf := [], badOpBuf := [], l1 := [] }

/-- BLOCK_GATE (R433): a block idle for 1 ms is gated. -/
def execBlockGate (site block : Nat) (s : State) : Out :=
  match ((s.site site).block block).power with
  | .idle t =>
    if s.tick < t + gateTicks then .next s
    else if s.keepsPower site block then .next (s.due (.blockGate site block) regateTicks)
    else
      let s := (coresOfBlock site block).foldl (fun s c => s.modCore c Core.dark) s
      .next (s.modBlock site block fun v => { v with power := .gated })
  | _ => .next s

/-! ## Power-on (R434) -/

/-- The neighbours of a block within its group of six. -/
def blockNeighbours (b : Nat) : List Nat :=
  (if b % 6 = 0 then [] else [b - 1]) ++ (if b % 6 = 5 then [] else [b + 1])

/-- The lowest block of a site whose power-on is asked for and has not begun.
DESIGN CHOICE (assumption 70). -/
def State.pendingBlock (s : State) (site : Nat) : Option Nat :=
  (List.range 12).find? fun b => ((s.site site).block b).power == .powering none

/-- The conditions of step 1, on IRAIL and on the currents of the blocks b − 1 and b + 1, in A.
DESIGN CHOICE (assumption 70). -/
def mayPower (s : State) (site b : Nat) (amps : List Nat) : Bool :=
  let draw := fun n => if n < b then amps.getD 0 0 else amps.getD 1 0
  decide ((s.rail site).1 ≤ 1000) &&
    (blockNeighbours b).all fun n => !((s.site site).block n).power.on || decide (draw n ≤ 72)

/-- One of the eight steps of a power gate. -/
def gateStepTicks : Nat := 2000

/-- BLOCK_POWER_ON_CHECK (R434 steps 1 to 3): one power-on at a time on a reticle, the lowest block first.
DESIGN CHOICE (assumption 70). -/
def execBlockPowerOnCheck (site block : Nat) (amps : List Nat) (s : State) : Out :=
  if (s.site site).powering.isSome ∨ s.pendingBlock site ≠ some block then .next s
  else if mayPower s site block amps then
    let s := s.report site 0x2501 6 noCore 0 (block * 2 ^ 20 + site)
    let s := s.modSite site fun st => { st with powering := some block }
    .next ((s.modBlock site block fun v => { v with power := .powering (some 0) }).due
      (.powerGateStep site block) gateStepTicks)
  else .next ((s.report site 0x2502 6 noCore 0 (block * 2 ^ 20 + site)).checkLater site block oneMicro)

/-- A halt asked for while the block was gated takes effect (R366). -/
def State.lateHalts (s : State) (site block : Nat) : State :=
  ((coresOfBlock site block).filter fun c => (s.core c).hreq && !(s.core c).halted).foldl
    (fun s c => s.haltOne (s.core c).hcause c) s

/-- A block that has power: idle until a squad starts in it (R434 step 4). -/
def State.powered (s : State) (site block : Nat) : State :=
  let s := s.modSite site fun st => { st with powering := none }
  let s := s.modBlock site block fun v => { v with power := .idle s.tick, born := s.clock }
  let s := (s.due (.blockGate site block) gateTicks).lateHalts site block
  let s := match s.pendingBlock site with
    | some b => s.checkLater site b 0
    | none => s
  s.retryPlaces

/-- POWER_GATE_STEP (R434 steps 3 and 4). -/
def execPowerGateStep (site block : Nat) (s : State) : Out :=
  match ((s.site site).block block).power with
  | .powering (some k) =>
    if k + 1 < 8 then
      .next ((s.modBlock site block fun v => { v with power := .powering (some (k + 1)) }).due
        (.powerGateStep site block) gateStepTicks)
    else .next (s.powered site block)
  | _ => .next s

/-! ## Reticle-off (R433) -/

/-- Whether some leaf of a table at a level maps a page of a site. -/
def mapsSite (m : Memory) (site : Nat) : (fuel t lvl : Nat) → Bool
  | 0, _, _ => false
  | fuel + 1, t, lvl =>
    (List.range 4096).any fun i =>
      let e := m.readNat (t + 8 * i) 8
      bitOf e 0 && bitOf e 1 && !pteReserved e lvl &&
        (if bitOf e 2 then siteOfPa (pteAddr e) == site else mapsSite m site fuel (pteNext e) (lvl + 1))

/-- Whether a live launch, or the space that a queue is bound to, maps a page of a site. -/
def State.pageMapped (s : State) (site : Nat) : Bool :=
  (s.launches.any fun p => mapsSite s.mem site 3 p.2.tableRoot 0) ||
    (List.range 16).any fun q => (s.queue q).enabled && mapsSite s.mem site 3 (s.queueSpace q).root 0

/-- Whether the tables in force lead no packet through a site to another, nor to its endpoint to leave the module
(R392, R394). -/
def State.routedAround (s : State) (site : Nat) : Bool :=
  ((List.range siteCount).all fun y => y == site || (s.site y).off || extSite (s.site y).activeBank != site) &&
  (List.range 4).all fun e =>
    match neighbour site e with
    | none => true
    | some y =>
      (s.site y).off ||
        (List.range siteCount).all fun d =>
          d == site ||
            (let v := meshEntry (s.site y).activeBank d
             !(bitOf v 15 && !bitOf v 14 && v % 4 == (e + 2) % 4))

/-- Whether a reticle may be turned off.
DEDUCED (assumption 72). -/
def State.mayTurnOff (s : State) (site : Nat) : Bool :=
  decide (site < siteCount) && !(s.site site).off &&
    ((List.range' (96 * site) 96).all fun c => (s.teamsOn c).isEmpty && !(s.core c).halted) &&
    ((s.site site).blocks.all fun p => p.2.spareHalt.isEmpty || !p.2.power.on) &&
    !(s.scribes.any fun p => p.1 / 64 == site && p.2.task.isSome) && !s.pageMapped site &&
    s.routedAround site

/-- A reticle's registers as it leaves reset, with what Nib's live map keeps (R373) and the version and
tables it boots with (R391).
DEDUCED (assumption 72). -/
def Site.restart (st : Site) (site mhz : Nat) : Site :=
  { Site.reset with
    blocks := st.blocks.map fun p => (p.1, { p.2 with power := .gated })
    out := st.out, scdead := st.scdead, rdead := st.rdead, edead := st.edead, cudead := st.cudead
    fdead := st.fdead, wdead := st.wdead, chdead := st.chdead, l2live := st.l2live, chremap := st.chremap
    timeParent := st.timeParent, mhz, activeBank := bootBank site, off := st.off }

/-- The repeated samples and reports of a reticle. -/
def periodic (site : Nat) : Ev → Bool
  | .congestionSample n _ => n == site
  | .occupancyReport n _ => n == site
  | _ => false

/-- What a reticle without power loses.
DEDUCED (assumption 72). -/
def State.dark (s : State) (site : Nat) : State :=
  { s with
    agenda := s.agenda.filter fun d => !periodic site d.ev
    sites := s.sites.set site { (s.site site).restart site (s.site site).mhz with off := true }
    cores := s.cores.filter fun p => siteOf p.1 != site
    scribes := s.scribes.filter fun p => p.1 / 64 != site
    mem := s.mem.filter fun c => siteOfPa c.1 != site
    badDram := s.badDram.filter fun g => siteOfPa (g * 32) != site
    seals := s.seals.filter fun p => s.sealSite p.1 != site }

/-- RETICLE_OFF (R433): at Barrel's request.
DEDUCED (assumption 72). -/
def execReticleOff (site : Nat) (s : State) : Out :=
  .next (if s.mayTurnOff site then s.dark site else s)

/-- A reticle powered up (R360 step 5): its registers as they leave reset, its boot tables, its links lit, and
its samples, reports and measurements begun. -/
def State.powerUp (s : State) (site : Nat) : State :=
  let (f, s) := s.drawFree
  let s := s.modSite site fun st => ({ st.restart site st.mhz with off := false, upSince := some s.tick }).lightLanes f
  let s := ((s.measureAll site).sampleLater site).occupancyLater site
  (List.range 4).foldl (fun s e => if s.linkAlive site e then s.delayLater site e else s) s

/-- RETICLE_ON (R433): at Barrel's request a reticle that is off reboots.
DESIGN CHOICE (assumption 66). DEDUCED (assumption 72). -/
def execReticleOn (site : Nat) (s : State) : Out :=
  .next (if site < siteCount ∧ (s.site site).off then (s.powerUp site).retryPlaces.retryTasks else s)

/-! ## The clock (R430, R436) -/

/-- The rating of an ordering code, in W.
DESIGN CHOICE (assumption 26). -/
def ratingOf (code : Nat) : Nat := if code = 0 then 38000 else if code = 1 then 32000 else 12000

/-- A reticle's clock one step lower or higher. -/
def Site.slower (st : Site) : Site := { st with mhz := max 1000 (st.mhz - 100) }
def Site.faster (st : Site) : Site := { st with mhz := min 1600 (st.mhz + 100) }

/-- POWER_LIMIT_THROTTLE (R430): the module's input draw, in W, against its rating. -/
def execPowerLimitThrottle (watts : Nat) (s : State) : Out :=
  let rating := ratingOf s.flash.ordering
  let all := fun (f : Site → Site) => (List.range siteCount).foldl (fun s n => s.modSite n f) s
  .next (if rating ≤ watts then all Site.slower
    else if 100 * watts ≤ 95 * rating then all Site.faster
    else s)

/-- The launches with a team on a reticle.
DESIGN CHOICE (assumption 73). -/
def State.launchesOn (s : State) (site : Nat) : List Nat :=
  ((s.teams.filter fun p => siteOf p.2.core == site).map fun p => p.2.lid).dedup

end Sys2Proof.Machine
end

