-- ==== Sys2Proof/Machine/Retire.lean ====
section
/-! DEFINITION. Retirement in service: naming a block's cores from its slots (R10, R11, R376), retired slots
and failed block and memory routers (R377, R378, R394), recompaction (R379), reticles taken out of service (R385,
R67), dead Scribe cores, and what a journalled change makes of the live map (R373). -/

namespace Sys2Proof.Machine

/-! ## Names (R10, R11, R375) -/

/-- The live slots of a block. -/
def liveSlots (slots : List Nat) : List Nat := (List.range 9).filter fun i => slots.getD i 1 == 0

/-- The scan of R11: the pairs and the unpaired slots, in slot order. Two live slots are link-adjacent with at
most one dead slot between them (R376). -/
def pairScan : List Nat → List (Nat × Nat) × List Nat
  | [] => ([], [])
  | [a] => ([], [a])
  | a :: b :: r =>
    if b - a ≤ 2 then
      let p := pairScan r
      ((a, b) :: p.1, p.2)
    else
      let p := pairScan (b :: r)
      (p.1, a :: p.2)

/-- "No such name", and "vacant". -/
def noName : Nat := 15
def vacantName : Nat := 14

/-- The names of a block that names no core (R12). -/
def noNames : List Nat := List.replicate 8 noName

/-- The slot of each name of a block, and its published pairs, from its slots. -/
def nameSlots (slots : List Nat) : List Nat × Nat :=
  let live := liveSlots slots
  if 8 ≤ live.length then (live.take 8, 4)
  else
    let p := pairScan live
    let ns := (p.1.flatMap fun q => [q.1, q.2]) ++ p.2
    (ns ++ List.replicate (8 - ns.length) noName, p.1.length)

/-- A block with its names derived again (R379). -/
def Block.derive (b : Block) : Block :=
  let n := nameSlots b.slots
  { b with
    names := n.1, npairs := n.2, gen := b.gen + 1
    spareHalt := b.spareHalt.filter fun p => !n.1.contains p.1 }

/-- The n-th element of a list replaced. -/
def setNth (l : List Nat) (n v : Nat) : List Nat := l.zipIdx.map fun p => if p.2 = n then v else p.1

/-! ## Lost teams (R377, R378) -/

/-- The commands that go with a core or with a lost team: those of the core's queues, and those of the team
whose tile is still to be read.
DEDUCED (assumption 76). -/
def State.lostCommands (s : State) (c : Nat) (teams : List Nat) : List (Nat × Command) :=
  s.commands.filter fun p => p.2.core == c || (teams.contains p.2.team && !p.2.ready)

/-- A command signalled as failed with DATA_UNCORRECTABLE; nothing more is waited for. -/
def State.loseCommand (s : State) (p : Nat × Command) : State :=
  let c := { p.2 with cause := firstCause p.2.cause Cause.dataUncorrectable }
  let s := (s.leaveCommand p.1 p.2).endArrival p.1
  ({ s with sent := s.sent.filter fun q => q.2.cmd != p.1 }.reportDone c).finishCommand p.1 c

/-- The tracker entries and the engine work of lost teams dropped. -/
def State.dropWork (s : State) (teams : List Nat) : State :=
  { s with cores := s.cores.map fun p =>
      (p.1, { p.2 with
        tracker := p.2.tracker.filter fun e => !teams.contains e.team
        engine := p.2.engine.filter fun e => !teams.contains e.team }) }

/-- A lost RUNNING task (R378): READY again, or ABANDONED with its launch to fail.
DEDUCED (assumption 76). -/
def State.resolveTask (s : State) (pa : Nat) : State :=
  if recState s pa ≠ 3 then s
  else if recReduces s pa || !recIdem s pa then
    let lid := recLid s pa
    (((s.recError .module pa Cause.coreRetired).endRecord pa 5).failLaunch lid Cause.coreRetired)
  else (s.ready .module pa).1

/-- The teams of a launch looked at for release (R70), now that it has a team to place. -/
def State.releaseEmpty (s : State) (lid : Nat) : State :=
  ((s.teams.filter fun p => p.2.lid == lid).map Prod.fst).foldl (fun s n => s.due (.teamRelease n) 0) s

/-- A lost team (R378): where its initial squads were lost and its launch is idempotent it is to be placed again;
else it is not placed again, and its launch fails.
DEDUCED (assumption 76). -/
def State.resolveInitial (s : State) (t : Team) (initial : Bool) : State :=
  if initial && (s.launch t.lid).idem then
    (s.modLaunch t.lid fun l => { l with returned := l.returned ++ [t.number] }).releaseEmpty t.lid
  else s.failLaunch t.lid Cause.coreRetired

/-- A team lost (R377 step 2): its threads end without EXIT, and its place is free.
DEDUCED (assumption 76). -/
def State.loseTeam (s : State) (n : Nat) : State :=
  let t := s.team n
  let ts := s.threadsOfTeam n
  let qs := s.squadsOfTeam n
  let tasks := (qs.filterMap fun q => (s.squad q).task).dedup
  let initial := qs.any fun q => (s.squad q).task.isNone
  let s := s.leaveDelivery ts
  let s :=
    { s with
      threads := s.threads.filter fun p => p.1.team != n
      squads := s.squads.filter fun p => p.1.team != n
      cores := s.cores.map fun (p : Nat × Core) =>
        (p.1, { p.2 with order := p.2.order.filter fun q => q.team != n }) }
  let s := s.freeTeam n
  let s := tasks.foldl State.resolveTask s
  let s := s.resolveInitial t initial
  s.due (.launchComplete t.lid) 0

/-- Teams lost together with a core (R377 steps 1 to 3).
DEDUCED (assumption 76). -/
def State.loseCore (s : State) (c : Nat) (teams : List Nat) : State :=
  let ended := ((s.cores.flatMap fun p => p.2.tracker).filter fun e => teams.contains e.team).map (·.task)
  let s := s.dropWork teams
  let s := (s.lostCommands c teams).foldl State.loseCommand s
  let s := teams.foldl State.loseTeam s
  ended.dedup.foldl State.taskCheck s

/-- A core that has lost everything; its slot's halt stays with the slot (R368). -/
def State.clearCore (s : State) (c : Nat) : State :=
  let co := s.core c
  let k := s.physicalOf c % 9
  let s := s.setCore c Core.reset
  if co.hreq then
    s.modBlock (siteOf c) (blockOf c) fun b => { b with spareHalt := b.spareHalt.set k co.hcause }
  else s

/-! ## Steps -/

/-- What follows a loss: everything that waits for room is tried again. -/
def State.afterLoss (s : State) (site block : Nat) : State :=
  ((s.retryPlaces.retryTasks).due (.blockRecompact site block) 0).blockQuiet (site * 96 + block * 8)

/-- The error report of a slot whose tests fail (R339, R377); errors of its logic have been reported when they
occurred.
DEDUCED (assumption 76). -/
def State.logSlot (s : State) (site block slot logical : Nat) : State :=
  if (AMap.find? (block * 9 + slot) (s.site site).lastError).isSome then s
  else
    s.logError site ⟨Cause.dataUncorrectable, 0, true, ((s.site site).block block).gen, logical,
      site * 108 + block * 9 + slot, 0⟩

/-- A block with a slot retired (R377 step 4). -/
def Block.retire (b : Block) (slot : Nat) : Block :=
  let named := b.names.contains slot
  { b with
    slots := setNth b.slots slot 2
    names := b.names.map fun n => if n = slot then vacantName else n
    gen := if named then b.gen + 1 else b.gen }

/-- A block whose router has failed (R12, R377). -/
def Block.routerDead (b : Block) : Block := { b with rtdead := true, names := noNames, npairs := 0, gen := b.gen + 1 }

/-- A reticle without a router (R374, R394): a memory router takes its L2 slice and its eight channels with it,
and the reticle goes out of service. -/
def Site.routerDead (st : Site) (router : Nat) : Site :=
  let st := { st with rdead := setBits st.rdead router router 1 }
  if router % 3 ≠ 0 then st
  else
    { st with
      l2live := .ofNat 32 (setBits st.l2live.toNat (router / 3) (router / 3) 0)
      chdead := (routerChannels (router / 3)).foldl (fun v c => setBits v c c 1) st.chdead
      out := true }

/-- What a change makes of the live map (R373). -/
def State.makeChange (s : State) (c : Change) : State :=
  match c with
  | .slot n b k => s.modBlock n b fun v => v.retire k
  | .blockRouter n b => (s.modBlock n b Block.routerDead).modSite n fun st => st.routerDead (blockRouter b)
  | .memoryRouter n r => s.modSite n fun st => st.routerDead r
  | .edge n e => s.modSite n fun st => { st with edead := setBits st.edead e e 1 }
  | .out n => s.modSite n fun st => { st with out := true }
  | .scribe n k => s.modSite n fun st => { st with scdead := st.scdead ||| (1#64 <<< k) }
  | .slices n live => s.modSite n fun st => { st with l2live := live }
  | .channel n v => s.modSite n fun st => { st with chremap := v }
  | .wavelength n w => s.modSite n fun st => { st with wdead := setBits st.wdead w w 1 }

/-- A change made in service, and journalled (R373). -/
def State.change (s : State) (c : Change) : State := (s.makeChange c).journalise c

/-- SLOT_RETIRE (R377): a failing slot is retired in one instant.
DEDUCED (assumption 76). -/
def execSlotRetire (site block slot : Nat) (s : State) : Out :=
  let b := (s.site site).block block
  if b.slots.getD slot 1 ≠ 0 then .next s
  else
    let phys := site * 108 + block * 9 + slot
    match s.coreOfPhys phys with
    | none => .next (((s.logSlot site block slot noCore).change (.slot site block slot)).report site 0x2403 5 noCore 0 phys)
    | some c =>
      let s := s.logSlot site block slot c
      let s := (s.loseCore c (s.teamsOn c)).clearCore c
      .next (((s.change (.slot site block slot)).report site 0x2403 5 noCore 0 phys).afterLoss site block)

/-- A READY task that can run no more (R67): it passes to DONE as failed. -/
def State.failReady (s : State) (pa : Nat) : State :=
  (s.recError .module pa Cause.coreRetired).finishTask pa true Cause.coreRetired

/-- The Scribe tasks of a site's queue that have become unrunnable (R67). -/
def State.failUnrunnable (s : State) (site : Nat) : State :=
  let ts := ((s.site site).readyQ ++ (s.site site).overflow).filter fun t => s.unrunnable t.addr
  let s := (ts.foldl (fun s t => s.removeTask site t) s).refill site
  ts.foldl (fun s t => (s.failReady t.addr).due (.launchComplete t.lid) 0) s

/-- The standbys of the slots whose controller is a reticle take over (R429). -/
def State.takeovers (s : State) (site : Nat) : State :=
  ((List.range 4).filter fun l =>
    (s.lupSlot l).cfg.getLsbD 63 && bitsOf (s.lupSlot l).cfg.toNat 55 50 == site).foldl
    (fun s l => s.due (.lineupTakeover l) 0) s

/-- The dirty lines of an L2 slice, which are lost with it: their bytes cannot be read, and are reported. -/
def State.loseSlice (s : State) (site slice : Nat) : State :=
  let lines := ((s.site site).l2.flatMap fun p => p.2).filter fun l => s.sliceOf (l.line * 128) == slice
  let s := s.modSite site fun st => st.mapL2 fun _ ls => ls.filter fun l => s.sliceOf (l.line * 128) != slice
  (lines.filter (·.dirty)).foldl (fun s l =>
    (s.scramble (l.line * 128) 128).logError site
      ⟨Cause.dataUncorrectable, 3, true, 0, noCore, slice, l.line * 128⟩) s

/-- The port of a memory router lost with it (R394): its mesh edge, or with the second of the two the endpoint. -/
def State.losePort (s : State) (site router : Nat) : State :=
  if router < endpointA then
    match neighbour site (router / 3) with
    | some y => (s.due (.linkDead site (router / 3)) 0).due (.linkDead y ((router / 3 + 2) % 4)) 0
    | none => s
  else
    let dead := (s.site site).rdead
    if bitOf dead endpointA && bitOf dead endpointB then (s.modSite site Site.dropLinks).serveLost site else s

/-- A memory router failed (R394, R385).
DEDUCED (assumption 62). -/
def State.memoryRouterFail (s : State) (site router : Nat) : State :=
  if bitOf (s.site site).rdead router then s
  else
    let (c, s) := s.drawFree
    let s := s.logError site ⟨Cause.pick Cause.reports c, 5, true, 0, noCore, router, 0⟩
    let out := (s.site site).out
    let s := ((s.loseSlice site (router / 3)).change (.memoryRouter site router)).losePort site router
    if out then s else ((s.failUnrunnable site).retryTasks.takeovers site)

/-- BLOCK_ROUTER_FAIL (R12, R377, R394): every team of a block is lost, and it names no core. The numbers from
12 on are the reticle's six memory routers.
DEDUCED (assumption 62). DEDUCED (assumption 99). -/
def execBlockRouterFail (site block : Nat) (s : State) : Out :=
  if 12 ≤ block then .next (s.memoryRouterFail site (3 * (block - 12)))
  else
    let b := (s.site site).block block
    if b.rtdead then .next s
    else
      let (c, s) := s.drawFree
      let s := s.logError site ⟨Cause.pick Cause.reports c, 5, true, b.gen, noCore, blockRouter block, 0⟩
      let s := (coresOfBlock site block).foldl (fun s c => (s.loseCore c (s.teamsOn c)).clearCore c) s
      .next ((s.change (.blockRouter site block)).afterLoss site block)

/-- The core that a name of a block had, under its new names.
DEDUCED (assumption 77). -/
def State.movedCore (s : State) (site block : Nat) (old new : List Nat) (i : Nat) : Core :=
  let slot := new.getD i noName
  match (List.range 8).find? fun j => old.getD j noName == slot && decide (slot < 9) with
  | some j => s.core (site * 96 + block * 8 + j)
  | none =>
    match AMap.find? slot ((s.site site).block block).spareHalt with
    | some k => { Core.reset with hreq := true, halted := ((s.site site).block block).power.on, hcause := k }
    | none => Core.reset

/-- BLOCK_RECOMPACT (R379): a block that holds a vacant name, and no team, gets its names again.
DEDUCED (assumption 77). -/
def execBlockRecompact (site block : Nat) (s : State) : Out :=
  let b := (s.site site).block block
  if b.rtdead || !b.names.contains vacantName ||
      (coresOfBlock site block).any (fun c => !(s.teamsOn c).isEmpty) then .next s
  else
    let n := b.derive
    let moved := (List.range 8).map fun i => (site * 96 + block * 8 + i, s.movedCore site block b.names n.names i)
    let s := moved.foldl (fun s p => s.setCore p.1 p.2) s
    .next ((s.modBlock site block Block.derive).mapChanged.retryPlaces)

/-- A reticle taken out of service (R67, R385, R429). -/
def State.takeOut (s : State) (site : Nat) : State :=
  if (s.site site).out then s else ((s.change (.out site)).failUnrunnable site).retryTasks.takeovers site

/-- RETICLE_OUT (R385, R67): Nib sets OUT for a reticle. -/
def execReticleOut (site : Nat) (s : State) : Out := .next (s.takeOut site)

/-- THERMAL_LIMIT (R436): a junction sensor above 95 °C lowers the reticle's clock; at 110 °C, besides, every launch
with a team there ends, and OUT is set.
DESIGN CHOICE (assumption 73). -/
def execThermalLimit (site celsius : Nat) (s : State) : Out :=
  if celsius ≤ 95 then .next s
  else
    let s := s.modSite site Site.slower
    if celsius < 110 then .next s
    else
      let (c, s) := s.drawFree
      .next (((s.launchesOn site).foldl (fun s lid => s.endLaunch lid (Cause.pick Cause.dones c)) s).takeOut site)

/-- SCRIBE_CORE_DEAD (R374, R67): a Scribe core, stack × 16 + number, is dead; a task on it ends as failed.
DEDUCED (assumption 76). -/
def execScribeCoreDead (site k : Nat) (s : State) : Out :=
  if 64 ≤ k ∨ (s.site site).scdead.getLsbD k then .next s
  else
    let s := s.change (.scribe site k)
    let s := s.scribeEnd (site * 64 + k) Cause.coreRetired
    .next (s.failUnrunnable site)

end Sys2Proof.Machine
end

