-- ==== Sys2Proof/Machine/Boot.lean ====
section
/-! DEFINITION. Nib: the boot (R360, R373, R435), attestation quotes (R361, R362), and debug grants (R367). -/

namespace Sys2Proof.Machine

/-! ## The defect map at boot (R373-R375) -/

/-- A block from its entry's two words (R375). -/
def blockOfEntry (w0 w1 : Nat) : Block :=
  { gen := bitsOf w0 63 48, rtdead := bitOf w0 44
    slots := (List.range 9).map fun i => bitsOf w0 (2 * i + 1) (2 * i)
    names := if bitOf w0 44 then List.replicate 8 noName
      else (List.range 8).map fun i => bitsOf w1 (4 * i + 3) (4 * i)
    npairs := bitsOf w0 39 37, power := .gated, since := 0, born := 0, spareHalt := [] }

/-- A site as its record in the map has it (R374). The map does not name a redirected channel's region. -/
def siteOfRecord (body : List Byte) (n run : Nat) : Site :=
  let o := 0x40 + 256 * n
  let w := envWord body o
  { Site.reset with
    rdead := bitsOf w 45 28
    edead := bitsOf w 27 24
    l2live := .ofNat 32 (63 - bitsOf w 23 18)
    chremap := .ofNat 64 (if bitOf w 17 then 2 ^ 63 + bitsOf w 16 11 * 2 ^ 48 + run % 2 ^ 19 else 0)
    cudead := bitsOf w 10 7
    out := bitOf w 6
    scdead := .ofNat 64 (envWord body (o + 8))
    fdead := bitsOf (envWord body (o + 16)) 27 24
    wdead := bitsOf (envWord body (o + 16)) 23 0
    blocks := (List.range 12).map fun b =>
      (b, blockOfEntry (envWord body (o + 0x40 + 16 * b)) (envWord body (o + 0x48 + 16 * b)))
    off := true }

/-- The unit that an entry of the journal names, dead (R373): a channel is not redirected, and a slice that is out of
service stays so. -/
def State.makeDead (s : State) : Change → State
  | .channel n v => s.modSite n fun st => { st with chdead := setBits st.chdead (chanOf v.toNat) (chanOf v.toNat) 1 }
  | .slices n live => s.modSite n fun st => { st with l2live := st.l2live &&& live }
  | c => s.makeChange c

/-- One entry of the retirement journal applied (R373, R377): one that does not authenticate names a unit that is
dead until its self-test passes it, whose outcome is the world's.
DEDUCED (assumption 84). -/
def State.applyJournal (s : State) (e : JournalEntry) : State :=
  if e.authentic then s.makeChange e.change
  else
    let (f, s) := s.drawFree
    if f % 2 = 1 then s.makeDead e.change else s

/-- New parents for the reticles below the links that are dead from the start (R387). -/
def State.reparentAll (s : State) : State :=
  (List.range siteCount).foldl (fun s n =>
    ((List.range 4).filter (bitOf (s.site n).edead)).foldl (fun s e =>
      match neighbour n e with
      | some m => s.reparent n m
      | none => s) s) s

/-- The blocks with a vacant name, which are to be recompacted (R379). -/
def State.recompactAll (s : State) : State :=
  (List.range siteCount).foldl (fun s n =>
    ((List.range 12).filter fun b => ((s.site n).block b).names.contains vacantName).foldl
      (fun s b => s.due (.blockRecompact n b) 0) s) s

/-- The defect map and its journal applied (R360 step 4). -/
def State.applyMap (s : State) : State :=
  let body := envBody (s.flash.envelope 0x11)
  let (run, s) := s.drawFree
  let s :=
    { s with
      sites := (List.range siteCount).map fun n => (n, siteOfRecord body n run)
      moduleId := bitsOf (envWord body 0) 63 48 }
  (s.flash.journal.foldl State.applyJournal s).reparentAll.recompactAll

/-! ## The boot (R360) -/

/-- The boot stops, and the failing KIND is reported on the management port.
DESIGN CHOICE (assumption 11). -/
def State.stopBoot (s : State) (kind : Nat) : State :=
  { s with
    bootStage := .stopped kind
    hostOut := s.hostOut ++ [[.ofNat 8 kind]]
    flash := s.flash.raiseBefore kind }

/-- Steps 2 to 4: the first KIND rejected, 0 for the certificate. -/
def State.bootReject (s : State) : Option Nat :=
  if !s.flash.accepts 0x01 then some 0x01
  else if !s.flash.accepts 0x10 then some 0x10
  else if !s.flash.accepts 0x11 then some 0x11
  else if !s.flash.accepts 0x12 then some 0x12
  else if !Config.certificateGood s.flash.certificate s.flash.ecdsaPublic s.flash.lmsSecret.public then some 0
  else none

/-- The fifty microseconds between the power-ups of two reticles (R435). -/
def powerUpTicks : Nat := 400000

/-- The order of power-up (R435): ascending hops from site 26, the lowest of equals first. -/
def powerOrder : List Nat := nearest timeRoot

/-- Steps 1 to 4 passed: the reticles power up one at a time (R435), and the boot goes on behind the last. -/
def State.bootPower (s : State) : State :=
  let s := { s with flash := { s.flash.raiseNib.raiseConfig with bootCount := s.flash.bootCount + 1 } }
  let s := s.applyMap
  let (t, s) := s.drawFree
  let (o, s) := s.drawFree
  let s := { s with bootStage := .powering, timeBase := t, slew := 0 }.setWt 1 (.ofInt 32 ((o % 51 : Nat) - 25))
  let s := powerOrder.zipIdx.foldl (fun s p => s.due (.reticleOn p.1) (p.2 * powerUpTicks)) s
  s.due .boot (siteCount * powerUpTicks)

/-- The fields of the system launch that its image gives: Barrel's device code has every constant and window
that the image names.
DEDUCED (assumption 84). -/
def systemLaunch (body : List Byte) : Launch :=
  let f := Config.imageField body
  { Launch.blank with
    codeBase := .ofNat 64 (f 0 % 2 ^ 52), codeLen := f 1 % 2 ^ 32, entry := f 2 % 2 ^ 32
    lease := f 3 % 256, prio := f 4 % 32, depth := f 5 % 65, regs := 8 * (f 6 % 16 + 1), sqn := f 7 % 33
    width := 8 * 2 ^ (f 8 % 4), part := .ofNat 32 (f 9), teams := f 10 % 2 ^ 24, hv := f 11 % 2 == 1
    hoff := f 12 % 2 ^ 32, asn := f 13 % 4095, tableRoot := f 14 % 2 ^ 48 / 2 ^ 15 * 2 ^ 15, rmask := f 15 % 2 ^ 60
    tenant := 0, system := true, sysSpace := true }

/-- The image's bytes in DRAM.
DEDUCED (assumption 84). -/
def State.loadImage (s : State) (body : List Byte) : State :=
  { s with mem := (Config.imageBytes body).foldl (fun m p => m.put p.1 p.2) s.mem }

/-- Step 7: the level, and DRAM zeroed on the way into vendor-debug (R367).
DEDUCED (assumption 84). -/
def State.bootLevel (s : State) : State :=
  let e := s.flash.envelope 0x21
  if s.flash.ordering = 2 ∧ s.flash.accepts 0x21 ∧ envWord e 0x40 = s.flash.bind then
    { s with mem := [], unseen := [], fences := [], badDram := [] }.setDebug 2 0 0
  else s.setDebug 0 0 0

/-- Steps 6 and 7: the level is set, the Barrel image verified, the system launch accepted, the host link
opened.
DESIGN CHOICE (assumption 8). -/
def State.bootFinish (s : State) : State :=
  let s := s.bootLevel
  let s := { s with hostLink := true }
  if s.flash.accepts 0x02 then
    let body := envBody (s.flash.envelope 0x02)
    { (s.loadImage body).accept (systemLaunch body) with bootStage := .up }
  else { s with bootStage := .noLaunch }

/-- BOOT (R360): its steps up to the power-up, and those behind it.
DESIGN CHOICE (assumption 11). DESIGN CHOICE (assumption 69). DEDUCED (assumption 84). -/
def execBoot (s : State) : Out :=
  match s.bootStage with
  | .cold =>
    (match s.bootReject with
      | some k => .next (s.stopBoot k)
      | none => .next s.bootPower)
  | .powering => .next s.bootFinish
  | _ => .next s

/-! ## Quotes (R361, R362) -/

/-- Bytes cut or filled with zeros to a length. -/
def fitBytes (n : Nat) (bs : List Byte) : List Byte := bs.take n ++ List.replicate (n - bs.length) 0

/-- The KINDs that a quote measures, in its order.
DEDUCED (assumption 85). -/
def measured : List Nat := [0x01, 0x02, 0x10, 0x11, 0x12]

/-- The body of a quote (R362). -/
def State.quoteBody (s : State) (nonce : List Byte) : List Byte :=
  fitBytes 32 nonce ++ (measured.flatMap fun k => sha384 (envBody (s.flash.envelope k))) ++
    bytesOfNat 8 s.dbgstate.toNat ++ (measured.flatMap fun k => bytesOfNat 2 (envSvn (s.flash.envelope k))) ++
    bytesOfNat 2 s.moduleId

/-- The header of a quote's envelope, with the device's own BIND. -/
def quoteHeader (bind : Nat) (body : List Byte) : List Byte :=
  bytesOfNat 8 (magic * 2 ^ 32 + 0x30 * 2 ^ 24) ++ bytesOfNat 8 body.length ++ sha384 body ++
    bytesOfNat 8 bind ++ List.replicate 0xB8 0

/-- How often Nib draws a number for an ECDSA signature before it gives up. -/
def signTries : Nat := 256

/-- A quote's envelope, signed under both identity keys with the next leaf.
DEDUCED (assumption 85). -/
def State.quote (s : State) (nonce : List Byte) : List Byte :=
  let f := s.flash
  let body := s.quoteBody nonce
  let h := quoteHeader f.bind body
  h ++ fitBytes 96 (ecdsaSign f.ecdsaSecret (sha384 h) ((List.range signTries).map (Config.signNonce f.lmsLeaf))) ++
    f.lmsSecret.sign f.lmsLeaf (bytesBe 32 (Config.lmsRandom f.lmsLeaf).toNat) h ++ List.replicate 0xB4 0 ++ body

/-- Whether Nib has its keys: the boot has passed step 4. -/
def State.nibUp (s : State) : Bool :=
  match s.bootStage with
  | .powering | .noLaunch | .up => true
  | _ => false

/-- ATTESTATION_QUOTE (R361, R362): refused once every LMS leaf has been used.
DEDUCED (assumption 85). -/
def execAttestationQuote (nonce : List Byte) (s : State) : Out :=
  if !s.nibUp || decide (2 ^ 20 ≤ s.flash.lmsLeaf) then .next s
  else
    .next
      { s with
        hostOut := s.hostOut ++ [s.quote nonce]
        flash := { s.flash with lmsLeaf := s.flash.lmsLeaf + 1 } }

/-! ## Grants (R367) -/

/-- TENANT_DEBUG_GRANT (R367): a grant that Nib verifies, and whose BIND is the device's own value, takes
production to tenant-debug.
DEDUCED (assumption 83). -/
def execTenantDebugGrant (env : List Byte) (s : State) : Out :=
  if s.nibUp && s.level == 0 && envAccepted s.flash s.flash.config 0x20 env &&
      envWord env 0x40 == s.flash.bind then
    .next (s.setDebug 1 s.dstate (envTenant env))
  else .next s

end Sys2Proof.Machine
end

