-- ==== Sys2Proof/Machine/Control.lean ====
section
/-! DEFINITION. Control transfer (R201-R205), SSYNC and TBAR (R212), system values and time
(R213-R215), the convergence timeout (R42) and the watchdog (R47). -/

namespace Sys2Proof.Machine

/-- The target of BR, CALL and LOOP (R201): PC plus the literal, or plus the offset in words. -/
def branchTarget (i : Issue) : DWord :=
  i.pc + (match i.x.lit with
    | some v => v
    | none => sext8 i.x.imm * 4)

/-- R179: a Target literal that is not a multiple of 4. -/
def badLiteral (i : Issue) : Bool :=
  match i.x.lit with
  | some v => v.toNat % 4 != 0
  | none => false

/-- BR (R201): the guard is the condition, and a lane that branches by a misaligned literal traps (R179).
DEDUCED (assumption 52). -/
def laneBr (i : Issue) (t : Tid) (s : State) : LaneOut :=
  if !laneActive i.x (s.thread t) then .next s
  else if badLiteral i then .trap Cause.alignment 0
  else .jump s (branchTarget i)

/-- A push of the return address and a branch, or the trap of R203.
DEDUCED (assumption 52). -/
def callTo (i : Issue) (t : Tid) (s : State) (target : DWord) : LaneOut :=
  match s.push t i.nextPc with
  | none => .trap Cause.callStackOverflow 0
  | some s1 =>
    let l := s.stackLoc t (s.thread t).depth
    if s.badLoc t.team l 8 then .trap Cause.dataUncorrectable (s.locAddr l) else .jump s1 target

/-- CALL (R201, R203).
DEDUCED (assumption 52). -/
def laneCall (i : Issue) (t : Tid) (s : State) : LaneOut :=
  if !laneActive i.x (s.thread t) then .next s
  else if badLiteral i then .trap Cause.alignment 0
  else callTo i t s (branchTarget i)

/-- R202's checks on the target of BRI and CALLI: the cause of the trap. -/
def badTarget (v : DWord) : Option Nat :=
  if v.toNat / 2 ^ 52 ≠ 0 then some Cause.addressForm
  else if v.toNat % 4 ≠ 0 then some Cause.alignment
  else none

/-- BRI (R202). -/
def laneBri (i : Issue) (t : Tid) (s : State) : LaneOut :=
  let v := (s.thread t).xp i.x.a.toNat
  match badTarget v with
  | some c => .trap c 0
  | none => .jump s v

/-- CALLI (R202, R203). -/
def laneCalli (i : Issue) (t : Tid) (s : State) : LaneOut :=
  let v := (s.thread t).xp i.x.a.toNat
  match badTarget v with
  | some c => .trap c 0
  | none => callTo i t s v

/-- RET (R202, R203). -/
def laneRet (_ : Issue) (t : Tid) (s : State) : LaneOut :=
  match s.pop t with
  | .ok pc s => .jump s pc
  | .trap c => .trap c (if c = Cause.dataUncorrectable then stackAddr s t else 0)
  | .line h l => .parkAgain (.line h l)

/-- LOOP (R204): the guard is the condition.
DEDUCED (assumption 52). -/
def laneLoop (i : Issue) (t : Tid) (s : State) : LaneOut :=
  if !laneActive i.x (s.thread t) then .next s
  else if badLiteral i then .trap Cause.alignment 0
  else
    let v := (s.thread t).x i.x.d.toNat - 1
    let s := s.modThread t fun th => th.setX i.x.d.toNat v
    if (s.thread t).x i.x.d.toNat = 0 then .next s else .jump s (branchTarget i)

/-- NOP (R205). -/
def laneNop (_ : Issue) (_ : Tid) (s : State) : LaneOut := .next s

/-- SSYNC and TBAR park the thread (R43, R212). -/
def laneSsync (i : Issue) (_ : Tid) (s : State) : LaneOut := .park s (.ssync i.len)
def laneTbar (i : Issue) (_ : Tid) (s : State) : LaneOut := .park s (.tbar i.len)

/-- EXIT parks the thread on the tracker, which then lets it go (R52). -/
def laneExit (_ : Issue) (_ : Tid) (s : State) : LaneOut := .park s (.tracker false 0)

/-- A further effect on the machine once every lane of the gang has acted. -/
def afterGang (f : Gang → State → State) (g : Option Gang) (o : Out) : Out :=
  match g, o with
  | some g, .next s => .next (f g s)
  | _, o => o

/-- R43 for the squads of a gang that has issued SSYNC. -/
def ssyncGang (g : Gang) (s : State) : State := g.squads.foldl State.ssyncCheck s

/-- R212 for the teams of a gang that has issued TBAR. -/
def tbarGang (g : Gang) (s : State) : State :=
  ((g.members.map fun m => m.2.team).dedup).foldl State.tbarCheck s

/-- R52 for the threads of a gang whose EXIT is to complete. -/
def exitGang (g : Gang) (s : State) : State :=
  let ts := s.leaving (g.members.map fun m => m.2)
  if ts.isEmpty then s else s.exitThreads g.core ts

/-- R46: the gang's squads move to the back of the pick order, keeping their order, and a lead in the
gang passes.
DEDUCED (assumption 29). -/
def yieldGang (g : Gang) (s : State) : State :=
  let qs := (s.core g.core).order.filter g.squads.contains
  qs.foldl (fun s q =>
    match (s.squad q).lead with
    | some l => s.relead q (g.members.any fun m => m.2 == ⟨q.team, q.squad, l⟩)
    | none => s) (s.toBack g.core qs)

/-- The gang chosen, without the move of R39, which YIELD's own move takes the place of.
DEDUCED (assumption 29). -/
def State.unmoved (s : State) : State :=
  { s with gang := s.gang.map fun g => { g with move := none } }

/-- SYSRD's values (R213). -/
def sysValue (s : State) (t : Tid) (sel : Nat) : Nat :=
  let c := s.coreOf t.sid
  match sel with
  | 0 => t.lane
  | 1 => t.squad
  | 2 => t.squad * (s.launchOf t).width + t.lane
  | 3 => (s.team t.team).number
  | 4 => c
  | 5 => siteOf c
  | 6 => blockOf c
  | 7 => c % 8
  | _ => (s.thread t).depth

/-- SYSRD (R213). -/
def laneSysrd (i : Issue) (t : Tid) (s : State) : LaneOut :=
  .next (s.writeD i t 1 (sysValue s t i.x.imm.toNat))

/-- The core clocks since a core left reset (R214); those for which its block was idle are not among them
(R433). -/
def State.coreClock (s : State) (c : Nat) : Nat := s.clock - ((s.site (siteOf c)).block (blockOf c)).born

/-- CLOCK (R214). -/
def laneClock (i : Issue) (t : Tid) (s : State) : LaneOut :=
  .next (s.writeD i t 2 (if i.x.sub = 0 then s.coreClock i.core else s.waferNs))

/-- The first multiple of 2^e ns after a wafer time (R215). -/
def nextSlot (ns e : Nat) : Nat := (ns / 2 ^ e + 1) * 2 ^ e

/-- REALIGN (R215): from the next clock on the picker stands still until the first core clock at or
after the slot. -/
def laneRealign (i : Issue) (_ : Tid) (s : State) : LaneOut :=
  let e := if i.x.imm = 0 then 10 else i.x.imm.toNat
  let at_ := nextSlot s.waferNs e * 8
  .next ((s.stopPicker i.core (s.clock + 1) fun co => { co with stall := some at_ }).due
    (.realignResume i.core) (at_ - (s.tick + s.timeBase)))

/-- REALIGN_RESUME (R215): at the slot, the picker goes on. -/
def execRealignResume (core : Nat) (s : State) : Out :=
  match (s.core core).stall with
  | some at_ =>
    .next (if at_ ≤ s.tick + s.timeBase then s.startPicker core fun co => { co with stall := none } else s)
  | none => .next s

/-- CONVERGENCE_TIMEOUT (R42): 64 clocks after a squad's window opened, it is released where it is now
complete, and every held thread of it traps otherwise.
DEDUCED (assumption 28). -/
def execConvergenceTimeout (q : Sid) (s : State) : Out :=
  match (s.squad q).window with
  | some (c0, pc) =>
    if (s.core (s.coreOf q)).stopped || decide (s.clock < c0 + 64) then .next s
    else if s.gathered q pc then .next ((s.release (s.liveOf q)).closeWindow q)
    else
      let held := (s.liveOf q).filter fun t => (s.thread t).status == .held
      .next ((s.trapConvergence held).closeWindow q)
  | none => .next s

/-- WATCHDOG (R47): a ready thread whose wait count has reached 16 times the shot clock traps. -/
def execWatchdog (t : Tid) (s : State) : Out :=
  let th := s.thread t
  if th.isReady && decide (16 * (s.launchOf t).shot ≤ th.waitCount s.clock) then
    .next (s.takeTrapsAside [⟨t, Cause.watchdog, 0, th.pc, th.pc, false, false, 0⟩])
  else .next s

/-- BR (R201), base form: a branch on the guard. -/
def execBr (o : BitVec 8) (n : Bool) (g : BitVec 3) (s : State) : Out :=
  simt .br (.bj o n g) 4 false laneBr s

/-- BR (R201), extended form. -/
def execBrExt (x : Ext) (s : State) : Out := simt .br x x.len false laneBr s

/-- BRI (R202), base form: a branch to XP(A). -/
def execBri (a : BitVec 7) (s : State) : Out := simt .bri (.b2 a 0) 4 true laneBri s

/-- BRI (R202), extended form. -/
def execBriExt (x : Ext) (s : State) : Out := simt .bri x x.len true laneBri s

/-- CALL (R203), base form: a call on the guard. -/
def execCall (o : BitVec 8) (n : Bool) (g : BitVec 3) (s : State) : Out :=
  simt .call (.bj o n g) 4 false laneCall s

/-- CALL (R203), extended form. -/
def execCallExt (x : Ext) (s : State) : Out := simt .call x x.len false laneCall s

/-- CALLI (R203), base form: a call to XP(A). -/
def execCalli (a : BitVec 7) (s : State) : Out := simt .calli (.b2 a 0) 4 true laneCalli s

/-- CALLI (R203), extended form. -/
def execCalliExt (x : Ext) (s : State) : Out := simt .calli x x.len true laneCalli s

/-- RET (R203), base form: a return. -/
def execRet (s : State) : Out := simt .ret .zero 4 true laneRet s

/-- RET (R203), extended form. -/
def execRetExt (x : Ext) (s : State) : Out := simt .ret x x.len true laneRet s

/-- NOP (R205), base form: no effect. -/
def execNop (s : State) : Out := simt .nop .zero 4 true laneNop s

/-- NOP (R205), extended form. -/
def execNopExt (x : Ext) (s : State) : Out := simt .nop x x.len true laneNop s

/-- LOOP (R204): decrement and branch. -/
def execLoop (x : Ext) (s : State) : Out := simt .loop x x.len false laneLoop s

/-- EXIT (R52), base form: each active thread ends. -/
def execExit (s : State) : Out :=
  afterGang exitGang s.gang (simt .exit .zero 4 true laneExit s)

/-- EXIT (R52), extended form. -/
def execExitExt (x : Ext) (s : State) : Out :=
  afterGang exitGang s.gang (simt .exit x x.len true laneExit s)

/-- YIELD in either form. Where its checks fail the gang traps as at any instruction (R181), and where a
lossless stream holds the picker it has not issued (R417).
DEDUCED (assumption 29). -/
def yieldWith (x : Ext) (len : Nat) (s : State) : Out :=
  match s.gang with
  | none => .fault .noAgent
  | some g =>
    match issueCheck .yield x (s.gangLaunch g) with
    | some c => .next (trapGang g c 0 s)
    | none =>
      match simt .yield x len true laneNop s.unmoved with
      | .next t =>
        .next (if (t.core g.core).gangCount = (s.core g.core).gangCount then t else yieldGang g t)
      | o => o

/-- YIELD (R46), base form: the squads move back and leads pass. -/
def execYield (s : State) : Out := yieldWith .zero 4 s

/-- YIELD (R46), extended form. -/
def execYieldExt (x : Ext) (s : State) : Out := yieldWith x x.len s

/-- SSYNC (R43), base form: a convergence point of the squad. -/
def execSsync (s : State) : Out :=
  afterGang ssyncGang s.gang (simt .ssync .zero 4 false laneSsync s)

/-- SSYNC (R43), extended form. -/
def execSsyncExt (x : Ext) (s : State) : Out :=
  afterGang ssyncGang s.gang (simt .ssync x x.len false laneSsync s)

/-- TBAR (R212), base form: a barrier of the team. -/
def execTbar (s : State) : Out :=
  afterGang tbarGang s.gang (simt .tbar .zero 4 false laneTbar s)

/-- TBAR (R212), extended form. -/
def execTbarExt (x : Ext) (s : State) : Out :=
  afterGang tbarGang s.gang (simt .tbar x x.len false laneTbar s)

/-- SYSRD (R213), base form: a system value. -/
def execSysrd (i : BitVec 8) (d : BitVec 7) (s : State) : Out :=
  simt .sysrd (.bi i 0 d) 4 true laneSysrd s

/-- SYSRD (R213), extended form. -/
def execSysrdExt (x : Ext) (s : State) : Out := simt .sysrd x x.len true laneSysrd s

/-- CLOCK (R214), base form: core clocks or wafer time. -/
def execClock (d : BitVec 7) (s : State) : Out := simt .clock (.b2 0 d) 4 true laneClock s

/-- CLOCK (R214), extended form. -/
def execClockExt (x : Ext) (s : State) : Out := simt .clock x x.len true laneClock s

/-- REALIGN (R215), base form: the picker waits for a slot of wafer time. -/
def execRealign (i : BitVec 8) (s : State) : Out := simt .realign (.bi i 0 0) 4 true laneRealign s

/-- REALIGN (R215), extended form. -/
def execRealignExt (x : Ext) (s : State) : Out := simt .realign x x.len true laneRealign s

end Sys2Proof.Machine
end

