-- ==== Sys2Proof/Machine/DebugPort.lean ====
section
/-! DEFINITION. The debug port (R364, R365, R368): what it writes, and what it reads in each level and debug state. -/

namespace Sys2Proof.Machine

/-! ## Writes (R365) -/

/-- What the debug port may write (R365): under tenant-debug the state of in-scope cores' threads of TENANT, under
vendor-debug of any thread. -/
def State.mayWrite (s : State) (t : Tid) : Bool :=
  let c := s.coreOf t.sid
  s.haltCapable && (AMap.find? t s.threads).isSome &&
    (s.level == 2 || (s.inScope c && (s.launchOf t).tenant == s.dbgTenant))

/-- Whether the port may write a team's scratchpad. -/
def State.mayWriteTeam (s : State) (n half : Nat) : Bool :=
  let c := (s.team n).core + half
  s.haltCapable && (AMap.find? n s.teams).isSome &&
    (s.level == 2 || (s.inScope c && (s.teamLaunch n).tenant == s.dbgTenant))

/-- The register that is Nib's own (R364), which the port does not reach. -/
def nibRegister (r : DevReg) : Bool := r == .dbgstate

/-- Vendor-debug in a halt-capable state. -/
def State.vendorHalt (s : State) : Bool := s.haltCapable && s.level == 2

/-- One word of a thread's record (R333) written to the thread. What it waits for stays, but that ST makes it ready
or puts it in trap delivery.
DEDUCED (assumption 112). -/
def State.putThreadWord (s : State) (t : Tid) (word : Nat) (v : DWord) : State :=
  let l := s.launchOf t
  let rec_ := setBits (natOfBytes (s.threadRecord t)) (64 * word + 63) (64 * word) v.toNat
  let n := s.loadThread (s.coreOf t.sid) l rec_ l.regs s.serial
  let s := { s with serial := s.serial + 16 }
  s.modThread t fun th =>
    { th with
      pc := n.pc, regs := n.regs, preds := n.preds, fflags := n.fflags, rng := n.rng, depth := n.depth, hnd := n.hnd
      trapCause := n.trapCause, trapPc := n.trapPc, trapAddr := n.trapAddr, trapLanes := n.trapLanes
      windows := if 4 ≤ word ∧ word < 20 then n.windows else th.windows
      saved := if 4 ≤ word ∧ word < 20 then n.saved else th.saved
      waitLeft := if word = 2 then n.waitLeft else th.waitLeft
      status := if word ≠ 0 then th.status
        else match bitsOf v.toNat 63 60 with
          | 0 => .ready
          | 2 => .trapped
          | _ => th.status }

/-! ## Reads (R365) -/

/-- What a read brings. -/
def State.debugReply (s : State) (bs : List Byte) : State := { s with debugOut := s.debugOut ++ [bs] }

/-- Whether the port may read a slot of a stream: in trace-only and halt-capable states, of a stream whose filter
admits the port, under tenant-debug of TENANT's; under vendor-debug every stream.
DEDUCED (assumption 112). -/
def State.mayReadStream (s : State) (site strm : Nat) : Bool :=
  let t := (s.site site).stream strm
  decide (0 < s.dstate) && !(s.site site).off && t.isOpen &&
    (s.level == 2 || (t.cfg.getLsbD 61 && (s.level == 0 || t.tenant == s.dbgTenant)))

/-- The sixteen bytes of a slot that a stream holds. -/
def State.streamSlot (s : State) (site strm slot : Nat) : Option (List Byte) :=
  let t := (s.site site).stream strm
  if t.head.toNat ≤ slot ∧ slot < t.tail.toNat then
    some ((List.range 16).map fun i =>
      s.mem.get (site * 2 ^ 42 + bitsOf t.base.toNat 41 12 * 4096 + 16 * (slot % t.size) + i))
  else none

/-- The word of a physical core's DBGCORE (R368). -/
def State.dbgCore (s : State) (phys : Nat) : Nat :=
  let b := s.physBlockOf phys
  let (hreq, halted, cause) :=
    match s.coreOfPhys phys with
    | some c => ((s.core c).hreq, (s.core c).halted, (s.core c).hcause)
    | none =>
      match AMap.find? (physSlot phys) b.spareHalt with
      | some k => (true, b.power.on, k)
      | none => (false, false, 0)
  bit01 hreq * 2 ^ 31 + bit01 halted * 2 ^ 30 + bit01 (!b.power.on) * 2 ^ 29 + cause % 256 * 2 ^ 8

/-- Whether the port may read a physical core's DBGCORE: of an in-scope core, in halt-capable states. -/
def State.mayReadCore (s : State) (phys : Nat) : Bool :=
  s.mayHaltSpare phys && (match s.coreOfPhys phys with
    | some c => s.inScope c
    | none => true)

/-- Whether the port may read a thread's record: of a halted in-scope core; under vendor-debug of any. -/
def State.mayReadThread (s : State) (t : Tid) : Bool :=
  let c := s.coreOf t.sid
  s.haltCapable && (AMap.find? t s.threads).isSome && (s.level == 2 || ((s.core c).halted && s.inScope c))

/-- DEBUG_STATE_WRITE (R365): an access of the debug port; one that the level and the debug state do not permit has
no effect.
DEDUCED (assumption 112). -/
def execDebugStateWrite (w : DebugWrite) (s : State) : Out :=
  match w with
  | .reg t r v => .next (if s.mayWrite t then s.modThread t fun th => th.setX r v else s)
  | .pred t p v => .next (if s.mayWrite t then s.modThread t fun th => th.setP p v else s)
  | .pc t v => .next (if s.mayWrite t then s.goto t v else s)
  | .scratch n h o v =>
    .next (if s.mayWriteTeam n h && decide (o < (s.team n).scratchBytes) then
        s.writeLoc n (.scr h o) 1 v.toNat
      else s)
  | .device r v =>
    .next (if s.vendorHalt && !nibRegister r then
        { s with agenda := { at_ := 0, ev := .registerWrite r v } :: s.agenda }
      else s)
  | .thread t k v => .next (if s.vendorHalt && s.mayWrite t then s.putThreadWord t k v else s)
  | .readState => .next (s.debugReply (bytesOfNat 8 s.dbgstate.toNat))
  | .readIdentity => .next (s.debugReply (bytesOfNat 2 s.moduleId))
  | .readRecord n k i =>
    (match if s.mayReadStream n k then s.streamSlot n k i else none with
      | some bs => .next (s.debugReply bs)
      | none => .next s)
  | .readCore p => .next (if s.mayReadCore p then s.debugReply (bytesOfNat 8 (s.dbgCore p)) else s)
  | .readThread t => .next (if s.mayReadThread t then s.debugReply (s.threadRecord t) else s)
  | .readErrors n =>
    .next (if s.level == 2 && decide (0 < s.dstate) && !(s.site n).off then
        s.debugReply (s.site n).errorLog.flatten
      else s)
  | .readDevice r =>
    .next (if s.vendorHalt && !nibRegister r then s.debugReply (bytesOfNat 8 (s.devRead r)) else s)

end Sys2Proof.Machine
end

