-- ==== Sys2Proof/Machine/Float.lean ====
section
/-! DEFINITION. Floating-point and conversion instructions (R237-R251). -/

namespace Sys2Proof.Machine

/-- The width of one element of a floating type. -/
def elemBits (ty : Ty) : Nat := (fmtOf ty).width

/-- A lane's floating result written, its flags raised (R237, R238). -/
def State.writeF (s : State) (i : Issue) (t : Tid) (r : Res) : State :=
  (s.writeD i t i.x.type.regs r.bits).raiseFlags t r.flags

/-- A long-latency floating result (R182). -/
def laterF (i : Issue) (t : Tid) (s : State) (r : Res) : LaneOut :=
  s.later i t (regWrites i.x.d.toNat i.x.type.regs r.bits) [] r.flags

/-- A two-source operation element by element (R138). -/
def elems2 (ty : Ty) (f : Fmt → Nat → Nat → Res) (a b : Nat) : Res :=
  let w := elemBits ty
  perElem w (fun k => f (fmtOf ty) (elemOf w a k) (elemOf w b k)) ty.elems

/-- A one-source operation element by element (R138). -/
def elems1 (ty : Ty) (f : Fmt → Nat → Res) (a : Nat) : Res :=
  let w := elemBits ty
  perElem w (fun k => f (fmtOf ty) (elemOf w a k)) ty.elems

/-- FADD, FSUB, FMUL, FMIN and FMAX (R240, R241). -/
def laneF2 (f : Fmt → Nat → Nat → Res) (i : Issue) (t : Tid) (s : State) : LaneOut :=
  .next (s.writeF i t (elems2 i.x.type f (srcA s i t) (srcB s i t)))

/-- FDIV (R240): long-latency. -/
def laneFdiv (i : Issue) (t : Tid) (s : State) : LaneOut :=
  laterF i t s (elems2 i.x.type Fmt.div (srcA s i t) (srcB s i t))

/-- FSQRT and the approximate functions (R240, R244): long-latency. -/
def laneFfunc (f : Fmt → Nat → Res) (i : Issue) (t : Tid) (s : State) : LaneOut :=
  laterF i t s (elems1 i.x.type f (srcA s i t))

/-- FMA (R240). -/
def laneFma (i : Issue) (t : Tid) (s : State) : LaneOut :=
  let ty := i.x.type
  let w := elemBits ty
  let a := srcA s i t
  let b := srcB s i t
  let c := srcC s i t
  .next (s.writeF i t
    (perElem w (fun k => (fmtOf ty).fma (elemOf w a k) (elemOf w b k) (elemOf w c k)) ty.elems))

/-- FABS and FNEG (R241): the sign bit of each element cleared or inverted. -/
def Fmt.abs (f : Fmt) (a : Nat) : Res := ⟨a % 2 ^ (f.width - 1), 0⟩
def Fmt.negBits (f : Fmt) (a : Nat) : Res :=
  ⟨a % 2 ^ (f.width - 1) + f.signBit (!bitOf a (f.width - 1)), 0⟩

def laneF1 (f : Fmt → Nat → Res) (i : Issue) (t : Tid) (s : State) : LaneOut :=
  .next (s.writeF i t (elems1 i.x.type f (srcA s i t)))

/-- FCMP (R242): where D and E name one predicate, the negation stands.
DESIGN CHOICE (assumption 127). -/
def laneFcmp (i : Issue) (t : Tid) (s : State) : LaneOut :=
  let ty := i.x.type
  let w := elemBits ty
  let r := (fmtOf ty).compare i.x.sub.toNat (srcA s i t % 2 ^ w) (srcB s i t % 2 ^ w)
  .next ((s.modThread t fun th => (th.setP i.x.d.toNat r.1).setP i.x.e.toNat !r.1).raiseFlags t r.2)

/-- FCLASS (R243). -/
def laneFclass (i : Issue) (t : Tid) (s : State) : LaneOut :=
  let ty := i.x.type
  .next (s.writeD i t 1 ((fmtOf ty).classify (srcA s i t % 2 ^ elemBits ty)))

/-- FSCALE (R240): B is one word, taken as i32. -/
def laneFscale (i : Issue) (t : Tid) (s : State) : LaneOut :=
  let ty := i.x.type
  .next (s.writeF i t
    ((fmtOf ty).scale (srcA s i t % 2 ^ elemBits ty) (intVal true 32 (operandB s i.x t 1))))

/-- FRND (R245). -/
def laneFrnd (i : Issue) (t : Tid) (s : State) : LaneOut :=
  let mode := Mode.ofSub i.x.sub.toNat
  .next (s.writeF i t (elems1 i.x.type (fun f a => f.integral mode a) (srcA s i t)))

/-! ## Conversions (R246-R249) -/

/-- The value of a scalar source of CVT: an integer, a floating value, or a Q4 code under the scale byte
in X(C) (R246, R248). -/
def cvtSource (sty : Ty) (scale v : Nat) : FVal :=
  if sty = .q4 then q4Decode scale v
  else if sty.isInt then ofInteger (srcInt sty v)
  else (fmtOf sty).decode (v % 2 ^ elemBits sty)

/-- One scalar conversion (R246, R248). -/
def cvtScalar (sty dty : Ty) (mode : Mode) (scale v : Nat) : Res :=
  if dty = .q4 then q4Encode scale (cvtSource sty scale v)
  else if dty.isInt then
    (if sty.isInt then
      let r := clampTo (tySigned dty) (tyBits dty) (srcInt sty v)
      ⟨fillInt dty r.1, flagIf r.2 flagSAT⟩
    else
      let r := toInteger (tySigned dty) (tyBits dty) mode (cvtSource sty scale v)
      ⟨fillInt dty (intVal (tySigned dty) (tyBits dty) r.bits), r.flags⟩)
  else (fmtOf dty).convert mode (cvtSource sty scale v)

/-- The elements of a packed or scalar pairing: which source element becomes which destination element
(R247). -/
def cvtPairsOf (sty dty : Ty) (ei : Nat) : List (Nat × Nat) :=
  if sty.elems = 1 then [(0, if dty.elems = 1 then 0 else ei)]
  else if dty.elems = 1 then [(ei, 0)]
  else if sty.elems = dty.elems then (List.range sty.elems).map fun k => (k, k)
  else if sty.elems = 4 then [(2 * ei, 0), (2 * ei + 1, 1)]
  else [(0, 2 * ei), (1, 2 * ei + 1)]

/-- The element of a source value by number; a scalar is its own element 0. -/
def cvtElem (ty : Ty) (v k : Nat) : Nat := if ty.elems = 1 then v else elemOf (elemBits ty) v k

/-- A converted element put into a destination value. -/
def cvtPut (ty : Ty) (v k x : Nat) : Nat := if ty.elems = 1 then x else setElem (elemBits ty) v k x

/-- CVT on values: the elements of the pairing in ascending order, the flags combined. -/
def cvtAll (sty dty : Ty) (mode : Mode) (scale a : Nat) (r : Res) : List (Nat × Nat) → Res
  | [] => r
  | (k, j) :: ps =>
    let x := cvtScalar sty.elem dty.elem mode scale (cvtElem sty a k)
    cvtAll sty dty mode scale a ⟨cvtPut dty r.bits j x.bits, orFlags r.flags x.flags⟩ ps

/-- The value of field A of a conversion. -/
def cvtSrcA (s : State) (i : Issue) (t : Tid) (sty : Ty) : Nat :=
  (s.thread t).xs i.x.a.toNat sty.regs

/-- What the destination holds where it keeps some of its elements (R247). -/
def cvtOld (s : State) (i : Issue) (t : Tid) (sty : Ty) : Nat :=
  if cvtKeeps sty i.x.type then (s.thread t).xs i.x.d.toNat 1 else 0

/-- CVT (R246). -/
def laneCvt (i : Issue) (t : Tid) (s : State) : LaneOut :=
  let sty := i.x.sty.getD .b32
  let scale := ((s.thread t).x i.x.c.toNat).toNat % 256
  .next (s.writeF i t
    (cvtAll sty i.x.type (Mode.ofSub i.x.sub.toNat) scale (cvtSrcA s i t sty)
      ⟨cvtOld s i t sty, 0⟩ (cvtPairsOf sty i.x.type i.x.ei)))

/-- CVTSR on values, with the generator's state. -/
def cvtsrAll (sty dty : Ty) (a : Nat) (r : Res) (st : Word) : List (Nat × Nat) → Res × Word
  | [] => (r, st)
  | (k, j) :: ps =>
    let (x, st) := (fmtOf dty).stochastic st ((fmtOf sty).decode (cvtElem sty a k % 2 ^ elemBits sty))
    cvtsrAll sty dty a ⟨cvtPut dty r.bits j x.bits, orFlags r.flags x.flags⟩ st ps

/-- CVTSR (R249). -/
def laneCvtsr (i : Issue) (t : Tid) (s : State) : LaneOut :=
  let sty := i.x.sty.getD .b32
  let (r, st) := cvtsrAll sty i.x.type (cvtSrcA s i t sty) ⟨cvtOld s i t sty, 0⟩ (s.thread t).rng
    (cvtPairsOf sty i.x.type i.x.ei)
  .next ((s.writeF i t r).modThread t fun th => { th with rng := st })

/-! ## Dot products (R250) -/

/-- A + the products of two packed values, exact, rounded once to f32.
DEDUCED (assumption 52). -/
def dotProduct (fa fb : Fmt) (n a b c : Nat) : Res :=
  let prods := (List.range n).map fun k =>
    (fa.decode (elemOf fa.width a k)).mul (fb.decode (elemOf fb.width b k))
  let x := Fmt.f32.decode c
  Fmt.f32.ofExact .rn (sumTerms (x, x.isSnan) prods)

/-- The other FP8 type. -/
def otherFp8 : Ty → Ty
  | .e4m3x4 => .e5m2x4
  | _ => .e4m3x4

/-- DOT4 and DOT2 (R250). -/
def laneDot (i : Issue) (t : Tid) (s : State) : LaneOut :=
  let ty := i.x.type
  let bty := if i.x.sub = 1 then otherFp8 ty else ty
  let r := dotProduct (fmtOf ty) (fmtOf bty) ty.elems (srcA s i t) (operandB s i.x t 1)
    ((s.thread t).x i.x.c.toNat).toNat
  .next ((s.writeD i t 1 r.bits).raiseFlags t r.flags)

/-- FFLAGS (R251). -/
def laneFflags (i : Issue) (t : Tid) (s : State) : LaneOut :=
  let th := s.thread t
  let a := (th.x i.x.a.toNat).setWidth 6
  let rd := s.writeD i t 1 th.fflags.toNat
  match i.x.sub.toNat with
  | 0 => .next rd
  | 1 => .next (rd.modThread t fun th => { th with fflags := 0 })
  | 2 => .next (s.modThread t fun th => { th with fflags := th.fflags ||| a })
  | _ => .next (s.modThread t fun th => { th with fflags := a })

/-- FADD (R240), base form: a + b. -/
def execFadd (k : Bool) (b a d : BitVec 7) (s : State) : Out :=
  simt .fadd (.b3f k b a d) 4 true (laneF2 Fmt.add) s

/-- FADD (R240), extended form. -/
def execFaddExt (x : Ext) (s : State) : Out := simt .fadd x x.len true (laneF2 Fmt.add) s

/-- FSUB (R240), base form: a - b. -/
def execFsub (k : Bool) (b a d : BitVec 7) (s : State) : Out :=
  simt .fsub (.b3f k b a d) 4 true (laneF2 Fmt.sub) s

/-- FSUB (R240), extended form. -/
def execFsubExt (x : Ext) (s : State) : Out := simt .fsub x x.len true (laneF2 Fmt.sub) s

/-- FMUL (R240), base form: a x b. -/
def execFmul (k : Bool) (b a d : BitVec 7) (s : State) : Out :=
  simt .fmul (.b3f k b a d) 4 true (laneF2 Fmt.mul) s

/-- FMUL (R240), extended form. -/
def execFmulExt (x : Ext) (s : State) : Out := simt .fmul x x.len true (laneF2 Fmt.mul) s

/-- FMIN (R241), base form: the lesser. -/
def execFmin (k : Bool) (b a d : BitVec 7) (s : State) : Out :=
  simt .fmin (.b3f k b a d) 4 true (laneF2 fun f => f.minMax false) s

/-- FMIN (R241), extended form. -/
def execFminExt (x : Ext) (s : State) : Out :=
  simt .fmin x x.len true (laneF2 fun f => f.minMax false) s

/-- FMAX (R241), base form: the greater. -/
def execFmax (k : Bool) (b a d : BitVec 7) (s : State) : Out :=
  simt .fmax (.b3f k b a d) 4 true (laneF2 fun f => f.minMax true) s

/-- FMAX (R241), extended form. -/
def execFmaxExt (x : Ext) (s : State) : Out :=
  simt .fmax x x.len true (laneF2 fun f => f.minMax true) s

/-- FMA (R240): a x b + c with one rounding. -/
def execFma (x : Ext) (s : State) : Out := simt .fma x x.len true laneFma s

/-- FABS (R241), base form: the sign cleared. -/
def execFabs (a d : BitVec 7) (s : State) : Out := simt .fabs (.b2f a d) 4 true (laneF1 Fmt.abs) s

/-- FABS (R241), extended form. -/
def execFabsExt (x : Ext) (s : State) : Out := simt .fabs x x.len true (laneF1 Fmt.abs) s

/-- FNEG (R241), base form: the sign inverted. -/
def execFneg (a d : BitVec 7) (s : State) : Out :=
  simt .fneg (.b2f a d) 4 true (laneF1 Fmt.negBits) s

/-- FNEG (R241), extended form. -/
def execFnegExt (x : Ext) (s : State) : Out := simt .fneg x x.len true (laneF1 Fmt.negBits) s

/-- FCMP (R242): a comparison into two predicates. -/
def execFcmp (x : Ext) (s : State) : Out := simt .fcmp x x.len true laneFcmp s

/-- FCLASS (R243), base form: the class mask. -/
def execFclass (a d : BitVec 7) (s : State) : Out := simt .fclass (.b2f a d) 4 true laneFclass s

/-- FCLASS (R243), extended form. -/
def execFclassExt (x : Ext) (s : State) : Out := simt .fclass x x.len true laneFclass s

/-- FRCP (R244): an approximate function. -/
def execFrcp (x : Ext) (s : State) : Out :=
  simt .frcp x x.len true (laneFfunc fun f => f.func .rcp) s

/-- FRSQ (R244): an approximate function. -/
def execFrsq (x : Ext) (s : State) : Out :=
  simt .frsq x x.len true (laneFfunc fun f => f.func .rsq) s

/-- FEXP2 (R244): an approximate function. -/
def execFexp2 (x : Ext) (s : State) : Out :=
  simt .fexp2 x x.len true (laneFfunc fun f => f.func .exp2) s

/-- FLOG2 (R244): an approximate function. -/
def execFlog2 (x : Ext) (s : State) : Out :=
  simt .flog2 x x.len true (laneFfunc fun f => f.func .log2) s

/-- FDIV (R240): a divided by b. -/
def execFdiv (x : Ext) (s : State) : Out := simt .fdiv x x.len true laneFdiv s

/-- FSQRT (R240): the square root. -/
def execFsqrt (x : Ext) (s : State) : Out := simt .fsqrt x x.len true (laneFfunc Fmt.sqrt) s

/-- CVT (R246): a conversion. -/
def execCvt (x : Ext) (s : State) : Out := simt .cvt x x.len true laneCvt s

/-- CVTSR (R249): a stochastic conversion. -/
def execCvtsr (x : Ext) (s : State) : Out := simt .cvtsr x x.len true laneCvtsr s

/-- DOT4 (R250): four products and a sum, one rounding. -/
def execDot4 (x : Ext) (s : State) : Out := simt .dot4 x x.len true laneDot s

/-- DOT2 (R250): two products and a sum, one rounding. -/
def execDot2 (x : Ext) (s : State) : Out := simt .dot2 x x.len true laneDot s

/-- FSCALE (R240), base form: a scaled by a power of two. -/
def execFscale (k : Bool) (b a d : BitVec 7) (s : State) : Out :=
  simt .fscale (.b3f k b a d) 4 true laneFscale s

/-- FSCALE (R240), extended form. -/
def execFscaleExt (x : Ext) (s : State) : Out := simt .fscale x x.len true laneFscale s

/-- FRND (R245): an integral value. -/
def execFrnd (x : Ext) (s : State) : Out := simt .frnd x x.len true laneFrnd s

/-- FFLAGS (R251): the flag register. -/
def execFflags (x : Ext) (s : State) : Out := simt .fflags x x.len true laneFflags s

end Sys2Proof.Machine
end

