-- ==== Sys2Proof/Machine/Lookups.lean ====
section
/-! DEFINITION. TREV (R288) and XLOOK (R289). -/

namespace Sys2Proof.Machine

/-! ## TREV -/

/-- The code of a software event. -/
def trevCode (i : Issue) : Nat := 0xE000 + i.x.imm.toNat

/-- TREV (R288): one record of the lane, where the tenant's stream takes software events. -/
def laneTrev (i : Issue) (t : Tid) (s : State) : LaneOut :=
  let site := siteOf i.core
  let tenant := (s.launchOf t).tenant
  match (s.site site).streamOf tenant with
  | none => .trap Cause.traceDenied 0
  | some _ =>
    .next (s.emit site (trevCode i) 0 i.core tenant (((s.thread t).x i.x.a.toNat).toNat % 2 ^ 24))

/-- Whether some lane of the gang comes to its event point. -/
def trevEmits (i : Issue) (g : Gang) (s : State) : Bool :=
  g.members.any fun m =>
    laneActive i.x (s.thread m.2) && ((s.thread m.2).pendingTrap m.2).isNone &&
      !i.violates (s.thread m.2)

/-- TREV (R288): a software event. At the event point of a lossless stream at its watermark the core's
picker stalls, and the gang has not issued (R417). -/
def execTrev (x : Ext) (s : State) : Out :=
  match s.gang with
  | none => .fault .noAgent
  | some g =>
    let i : Issue := ⟨.trev, x, x.len, g.core, g.pc⟩
    let l := s.gangLaunch g
    if (issueCheck .trev x l).isNone && trevEmits i g s then
      match s.points g.core [s.event (siteOf g.core) (trevCode i) 0 g.core l.tenant 0 none] with
      | .stall s => .next s
      | .go _ => simt .trev x x.len true laneTrev s
    else simt .trev x x.len true laneTrev s

/-! ## XLOOK -/

/-- The i-th set bit of a mask, counted from bit r. -/
def nthBit (m : Nat) : (fuel r i : Nat) → Nat
  | 0, r, _ => r
  | fuel + 1, r, i =>
    if bitOf m r then (if i = 0 then r else nthBit m fuel (r + 1) (i - 1)) else nthBit m fuel (r + 1) i

/-- The number of replicas in service. -/
def replicas (live : Nat) : Nat := ((List.range 8).filter (bitOf live)).length

/-- The four words XLOOK returns (R289), and the counter's slot where it counts; zeros where no table
serves the lookup. -/
def State.xlook (s : State) (site lid e h : Nat) : Nat × Option Nat :=
  match s.lupOf lid with
  | none => (0, none)
  | some l =>
    let t := (s.site site).lupSite l
    let live := s.lupLive site l t.sel e
    if 4096 ≤ e ∨ t.version = 0 ∨ live = 0 then (0, none)
    else
      let r := nthBit live 8 0 (h % replicas live)
      let w := s.lupWord site l t.sel e (8 + r)
      (t.version + 2 ^ 32 * (w % 64 + 2 ^ 8 * r) + 2 ^ 64 * bitsOf w 47 24 + 2 ^ 96 * bitsOf w 63 48,
        some l)

/-- The entry that a lookup reads lies in a page that a flip or a flush holds. -/
def State.lookHeld (s : State) (site lid e : Nat) : Bool :=
  match s.lupOf lid with
  | some l => decide (e < 4096) && s.accessHeld (s.lupEntryPa site l ((s.site site).lupSite l).sel e)
  | none => false

/-- XLOOK (R289): the lookup, counted on the issuing reticle (R420). -/
def laneXlook (i : Issue) (t : Tid) (s : State) : LaneOut :=
  let site := siteOf i.core
  let th := s.thread t
  let e := (th.x i.x.a.toNat).toNat
  if s.lookHeld site (s.team t.team).lid e then .hold
  else
    let r := s.xlook site (s.team t.team).lid e (th.x i.x.c.toNat).toNat
    let s := match r.2 with
      | some l => s.modLupSite site l fun v =>
          { v with cnt := v.cnt.set e (min (AMap.getD v.cnt e 0 + 1) 0xFFFFFFFF) }
      | none => s
    s.later i t (regWrites i.x.d.toNat 4 r.1) [] 0

/-- XLOOK (R289): a lookup in the committed replica table. -/
def execXlook (x : Ext) (s : State) : Out := simt .xlook x x.len true laneXlook s

end Sys2Proof.Machine
end

