-- ==== Sys2Proof/Machine/Scribe.lean ====
section
/-! DEFINITION. The Scribe instructions (R301-R308). -/

namespace Sys2Proof.Machine

/-! ## Scalar instructions (R301, R302) -/

/-- The second operand of the scalar ALU: s(B) + SignExtend(IMM8, 8). -/
def ScribeCore.operand (c : ScribeCore) (w : SWord) : DWord := c.rs w.b + sext8 w.i

/-- A scalar result in sD. -/
def scribeAlu (w : SWord) (f : DWord → DWord → DWord) (s : State) : Out :=
  scribeRun w (fun sc c s => .next (s.modScribe sc fun c' => c'.setS w.d (f (c.rs w.a) (c.operand w)))) s

/-- SCMP's conditions (R301). -/
def scribeCond (code : Nat) (a b : DWord) : Bool :=
  match code with
  | 0 => a == b
  | 1 => a != b
  | 2 => decide (a.toInt < b.toInt)
  | 3 => decide (a.toInt ≤ b.toInt)
  | 4 => decide (b.toInt < a.toInt)
  | 5 => decide (b.toInt ≤ a.toInt)
  | 6 => decide (a.toNat < b.toNat)
  | _ => decide (b.toNat ≤ a.toNat)

/-- SMOV by its selector (R302). -/
def scribeSmov (w : SWord) (sc : Nat) (c : ScribeCore) (s : State) : ScribeOut :=
  let v := c.rs w.a
  let n := scribeSite sc
  let k := scribeStack sc
  let x := AMap.getD (s.site n).atomxf k 0
  match w.i.toNat with
  | 0 => .next (s.modScribe sc fun c => c.setS w.d v)
  | 1 => .next (s.modScribe sc fun c => c.setMask w.d.toNat (v.setWidth 16))
  | 2 => .next (s.modScribe sc fun c' => c'.setS w.d ((c.mask w.a.toNat).setWidth 64))
  | 3 => .next (s.modScribe sc fun c' => c'.setS w.d (c.flags.setWidth 64))
  | 4 => .next (s.modScribe sc fun c => { c with flags := v.setWidth 6 })
  | 5 => .next (s.modScribe sc fun c => c.setS w.d (x.setWidth 64))
  | _ => .next (s.modSite n fun st => { st with atomxf := st.atomxf.set k (x &&& ~~~(v.setWidth 6)) })

/-! ## Control transfer (R303) -/

/-- The target of a branch. -/
def scribeTarget (w : SWord) (pc : Nat) : Nat :=
  let off := w.b.toNat * 256 + w.i.toNat
  wrapTo 32 ((pc : Int) + 4 * intVal true 13 off)

/-- A branch taken where the condition on s(A) holds. -/
def scribeBranch (w : SWord) (f : DWord → Bool) (s : State) : Out :=
  scribeRun w (fun _ c s => if f (c.rs w.a) then .jump s (scribeTarget w c.pc) else .next s) s

/-! ## Loads and stores (R304) -/

/-- A displacement in units of `n` bytes. -/
def scribeDisp (w : SWord) (n : Nat) : DWord := sext8 w.i * .ofNat 64 n

/-- The lanes' addresses of VLD and VST, and of the indexed forms. -/
def laneAddrs (w : SWord) (c : ScribeCore) : List (Nat × DWord) :=
  (c.lanes w).map fun i => (i, c.rs w.a + scribeDisp w 64 + .ofNat 64 (4 * i))
def indexAddrs (w : SWord) (c : ScribeCore) : List (Nat × DWord) :=
  (c.lanes w).map fun i => (i, c.rs w.a + .ofNat 64 (4 * (c.lane w.b i).toNat))

/-- Lanes' accesses checked in order: their places, or what the first that cannot be made comes to. -/
def State.scribePlaces (s : State) (sc n : Nat) (kind : AccessKind) (whole : DWord → Bool) :
    List (Nat × DWord) → Except ScribeOut (List (Nat × SLoc) × State)
  | [] => .ok ([], s)
  | (i, a) :: as =>
    match s.scribeAccess sc a n kind (whole a) with
    | .trap c => .error (.trap c a)
    | .absent => .error (.stall a.toNat)
    | .held => .error .hold
    | .ok l s =>
      match s.scribePlaces sc n kind whole as with
      | .error e => .error e
      | .ok (ls, s) => .ok ((i, l) :: ls, s)

/-- The words at lanes' places, read in order. -/
def State.scribeWords (sc : Nat) : List (Nat × SLoc) → State → List (Nat × Word) × State
  | [], s => ([], s)
  | (i, l) :: ls, s =>
    let r := s.scribeRead sc l 4
    let q := State.scribeWords sc ls r.2
    ((i, .ofNat 32 r.1) :: q.1, q.2)

/-- A vector load: the active lanes take the words at their addresses. -/
def scribeVload (w : SWord) (as : ScribeCore → List (Nat × DWord)) (s : State) : Out :=
  scribeRun w (fun sc c s =>
    match s.scribePlaces sc 4 .read (fun _ => false) (as c) with
    | .error o => o
    | .ok (ls, s) =>
      let (ws, s) := State.scribeWords sc ls s
      let v := fun i => match AMap.find? i ws with
        | some v => v
        | none => c.lane w.d i
      .next ((s.modScribe sc fun c => c.setLanes w.d v).scribeLoading sc (32 + w.d.toNat))) s

/-- A store at a place; at a register it is one event, made before the core's next (R21). -/
def State.scribeStore (s : State) (sc : Nat) (update : Option Nat) (l : SLoc) (n v : Nat) : State :=
  match l with
  | .glob pa =>
    if isRegisterPa pa then s.registersWritten (s.scribeWrite sc update l n v) else s.scribeWrite sc update l n v
  | .sram _ => s.scribeWrite sc update l n v

/-- Whether the words at some addresses cover the granule of DRAM that one of them is in (R338). -/
def wholeGranule (as : List (Nat × DWord)) (a : DWord) : Bool :=
  (List.range 8).all fun k => as.any fun p => p.2.toNat == a.toNat / 32 * 32 + 4 * k

/-- The granules of DRAM that some stores cover good again (R338). -/
def State.healGranules (s : State) (ls : List (Nat × SLoc)) (as : List (Nat × DWord)) : State :=
  { s with
    badDram := s.badDram.filter fun g =>
      !((ls.zip as).any fun p => wholeGranule as p.2.2 && (match p.1.2 with
        | .glob pa => pa / 32 == g
        | .sram _ => false)) }

/-- A vector store, in ascending lane order. -/
def scribeVstore (w : SWord) (as : ScribeCore → List (Nat × DWord)) (s : State) : Out :=
  scribeRun w (fun sc c s =>
    match s.scribePlaces sc 4 .write (wholeGranule (as c)) (as c) with
    | .error o => o
    | .ok (ls, s) =>
      .next ((ls.foldl (fun s p => s.scribeStore sc none p.2 4 (c.lane w.d p.1).toNat) s).healGranules ls (as c))) s

/-- One lane of VAADD (R305), whose lanes are one update of each 256-byte line (R126). -/
def State.scribeAdd (s : State) (w : SWord) (sc update : Nat) (x : Word) (l : SLoc) : State :=
  let old := s.scribeNow sc l 4
  let r : Res := if w.i = 0 then Fmt.f32.add old x.toNat else ⟨(old + x.toNat) % 2 ^ 32, 0⟩
  let s := s.scribeStore sc (some update) l 4 r.bits
  match l with
  | .glob pa => s.addUnitFlags (unitOf pa) r.flags
  | .sram _ => s.modScribe sc fun c => c.raise r.flags

/-! ## Vector arithmetic (R306, R307) -/

/-- A lane-wise operation on the active lanes, its flags in SFLAGS. -/
def scribeLanes (w : SWord) (f : ScribeCore → Nat → Res) (s : State) : Out :=
  scribeRun w (fun sc c s =>
    let r := fun i => if c.active w i then f c i else ⟨(c.lane w.d i).toNat, 0⟩
    let flags := (List.range 16).foldl (fun n i => n ||| (r i).flags) 0
    .next (s.modScribe sc fun c => (c.setLanes w.d fun i => .ofNat 32 (r i).bits).raise flags)) s

/-- A two-source operation by the type in IMM8: f32, or i32. -/
def scribeTwo (w : SWord) (f : Nat → Nat → Res) (g : Word → Word → Word) (s : State) : Out :=
  scribeLanes w (fun c i =>
    let a := c.lane w.a i
    let b := c.lane w.b i
    if w.i = 0 then f a.toNat b.toNat else ⟨(g a b).toNat, 0⟩) s

/-- VCVT by its code (R307). -/
def scribeCvt (code : Nat) (a : Nat) : Res :=
  match code with
  | 0 => toInteger true 32 .rn (Fmt.f32.decode a)
  | 1 => Fmt.f32.convert .rn (ofInteger (intVal true 32 a))
  | 2 => Fmt.bf16.convert .rn (Fmt.f32.decode a)
  | 3 => Fmt.f32.convert .rn (Fmt.bf16.decode (a % 2 ^ 16))
  | 4 => Fmt.h16.convert .rn (Fmt.f32.decode a)
  | _ => Fmt.f32.convert .rn (Fmt.h16.decode (a % 2 ^ 16))

/-- VCMP's condition on one lane. -/
def scribeVcond (code : Nat) (a b : Word) : Bool × Nat :=
  if 8 ≤ code then
    (scribeCond (code % 8) (a.signExtend 64) (b.signExtend 64), 0)
  else Fmt.f32.compare code a.toNat b.toNat

/-- VRED's combination of two values. -/
def scribeCombine (op : Nat) (a b : Nat) : Res :=
  match op with
  | 0 => Fmt.f32.add a b
  | 1 => Fmt.f32.minMax false a b
  | 2 => Fmt.f32.minMax true a b
  | _ => ⟨(a + b) % 2 ^ 32, 0⟩

/-- VRED's value with no active lane. -/
def scribeEmpty (op : Nat) : Nat :=
  match op with
  | 0 => 0x80000000
  | 1 => 0x7F800000
  | 2 => 0xFF800000
  | _ => 0

/-- The values of the active lanes combined in ascending lane order; a single one passes as it is. -/
def scribeReduce (op : Nat) : List Nat → Res
  | [] => ⟨scribeEmpty op, 0⟩
  | v :: vs =>
    vs.foldl (fun r x =>
      let q := scribeCombine op r.bits x
      ⟨q.bits, r.flags ||| q.flags⟩) ⟨v, 0⟩

/-- VRED (R307). -/
def scribeVred (w : SWord) (sc : Nat) (c : ScribeCore) (s : State) : ScribeOut :=
  let op := w.i.toNat
  let r := scribeReduce op ((c.lanes w).map fun i => (c.lane w.a i).toNat)
  let v : DWord := if op = 3 then (BitVec.ofNat 32 r.bits).signExtend 64 else .ofNat 64 r.bits
  .next (s.modScribe sc fun c => (c.setS w.d v).raise r.flags)

/-- VMOVS (R307). -/
def scribeVmovs (w : SWord) (sc : Nat) (c : ScribeCore) (s : State) : ScribeOut :=
  let k := w.i.toNat % 16
  if bitOf w.i.toNat 4 then .next (s.modScribe sc fun c' => c'.setS w.d ((c.lane w.a k).setWidth 64))
  else
    .next (s.modScribe sc fun c' => c'.setLanes w.d fun i =>
      if i = k then (c.rs w.a).setWidth 32 else c.lane w.d i)

/-! ## Task control (R308) -/

/-- TDEC: the record global and 64-byte aligned, the event as R64 has it. Where it fills a ready queue to
the brim its effect is complete and the task ends (R66). -/
def scribeTdec (w : SWord) (sc : Nat) (c : ScribeCore) (s : State) : ScribeOut :=
  let s := s.completeWrites (.scribe sc)
  let a := c.rs w.a
  let d := if w.b = 0 then w.i.toNat else (c.rs w.b).toNat % 2 ^ 32
  if a.toNat / 2 ^ 56 ≠ 0 then .trap Cause.addressForm a
  else
    match s.scribeAccess sc a 64 .atomic with
    | .trap e => .trap e a
    | .absent => .stall a.toNat
    | .held => .hold
    | .ok (.sram _) _ => .trap Cause.addressForm a
    | .ok (.glob pa) s =>
      if 0x80000000 ≤ d then .trap Cause.taskRecordInvalid 0
      else
        match s.countDown (.scribe sc) pa d with
        | .trap e => .trap e 0
        | .done s false => .next s
        | .done s true =>
          let r := s.ready (.scribe sc) pa
          if r.2 then .stop (r.1.scribeTrap sc Cause.readyQueueOverflow 0) else .next r.1

/-! ## The meanings -/

/-- SADD (R301): a + b. -/
def execSadd (i : BitVec 8) (b a d : BitVec 5) (s : State) : Out :=
  scribeAlu ⟨0x01, 0, i, b, a, d⟩ (· + ·) s

/-- SSUB (R301): a − b. -/
def execSsub (i : BitVec 8) (b a d : BitVec 5) (s : State) : Out :=
  scribeAlu ⟨0x02, 0, i, b, a, d⟩ (· - ·) s

/-- SMUL (R301): the low 64 bits of a × b. -/
def execSmul (i : BitVec 8) (b a d : BitVec 5) (s : State) : Out :=
  scribeAlu ⟨0x03, 0, i, b, a, d⟩ (· * ·) s

/-- SAND (R301): a and b. -/
def execSand (i : BitVec 8) (b a d : BitVec 5) (s : State) : Out :=
  scribeAlu ⟨0x04, 0, i, b, a, d⟩ (· &&& ·) s

/-- SOR (R301): a or b. -/
def execSor (i : BitVec 8) (b a d : BitVec 5) (s : State) : Out :=
  scribeAlu ⟨0x05, 0, i, b, a, d⟩ (· ||| ·) s

/-- SXOR (R301): a xor b. -/
def execSxor (i : BitVec 8) (b a d : BitVec 5) (s : State) : Out :=
  scribeAlu ⟨0x06, 0, i, b, a, d⟩ (· ^^^ ·) s

/-- SSHL (R301): a shifted left by b mod 64. -/
def execSshl (i : BitVec 8) (b a d : BitVec 5) (s : State) : Out :=
  scribeAlu ⟨0x07, 0, i, b, a, d⟩ (fun a b => a <<< (b.toNat % 64)) s

/-- SSHR (R301): a shifted right by b mod 64, zero fill. -/
def execSshr (i : BitVec 8) (b a d : BitVec 5) (s : State) : Out :=
  scribeAlu ⟨0x08, 0, i, b, a, d⟩ (fun a b => a >>> (b.toNat % 64)) s

/-- SLDI (R301): a constant built eight bits at a time. -/
def execSldi (i : BitVec 8) (a d : BitVec 5) (s : State) : Out :=
  scribeRun ⟨0x09, 0, i, 0, a, d⟩ (fun sc c s =>
    .next (s.modScribe sc fun c' => c'.setS d ((c.rs a <<< 8) ||| i.setWidth 64))) s

/-- SLDK (R301): a k register of the task's launch.
DEDUCED (assumption 51). -/
def execSldk (i : BitVec 8) (d : BitVec 5) (s : State) : Out :=
  scribeRun ⟨0x0A, 0, i, 0, 0, d⟩ (fun sc c s =>
    let lid := match c.task with | some p => p.2 | none => 0
    .next (s.modScribe sc fun c => c.setS d ((s.launch lid).k lid s.moduleId i.toNat))) s

/-- SMOV (R302): moves between register kinds. -/
def execSmov (i : BitVec 8) (a d : BitVec 5) (s : State) : Out :=
  scribeRun ⟨0x0B, 0, i, 0, a, d⟩ (scribeSmov ⟨0x0B, 0, i, 0, a, d⟩) s

/-- SCMP (R301): 1 where the condition holds, else 0. -/
def execScmp (i : BitVec 8) (b a d : BitVec 5) (s : State) : Out :=
  scribeRun ⟨0x0C, 0, i, b, a, d⟩ (fun sc c s =>
    .next (s.modScribe sc fun c' => c'.setS d (.ofNat 64 (bit01 (scribeCond i.toNat (c.rs a) (c.rs b)))))) s

/-- JMP (R303). -/
def execJmp (i : BitVec 8) (b : BitVec 5) (s : State) : Out :=
  scribeBranch ⟨0x10, 0, i, b, 0, 0⟩ (fun _ => true) s

/-- JZ (R303): branches when s(A) = 0. -/
def execJz (i : BitVec 8) (b a : BitVec 5) (s : State) : Out :=
  scribeBranch ⟨0x11, 0, i, b, a, 0⟩ (· == 0) s

/-- JNZ (R303): branches when s(A) ≠ 0. -/
def execJnz (i : BitVec 8) (b a : BitVec 5) (s : State) : Out :=
  scribeBranch ⟨0x12, 0, i, b, a, 0⟩ (· != 0) s

/-- LOOP (R303): s(A) counts down, and a nonzero count branches. s0 keeps reading zero, and the result
is what was computed. -/
def execScribeLoop (i : BitVec 8) (b a : BitVec 5) (s : State) : Out :=
  scribeRun ⟨0x13, 0, i, b, a, 0⟩ (fun sc c s =>
    let v := c.rs a - 1
    let s := s.modScribe sc fun c => c.setS a v
    if v = 0 then .next s else .jump s (scribeTarget ⟨0x13, 0, i, b, a, 0⟩ c.pc)) s

/-- CALL (R303): pushes onto the return stack of 16 entries. -/
def execScribeCall (i : BitVec 8) (b : BitVec 5) (s : State) : Out :=
  scribeRun ⟨0x14, 0, i, b, 0, 0⟩ (fun sc c s =>
    if 16 ≤ c.stack.length then .trap Cause.callStackOverflow 0
    else
      .jump (s.modScribe sc fun c => { c with stack := (c.pc + 4) % 2 ^ 32 :: c.stack })
        (scribeTarget ⟨0x14, 0, i, b, 0, 0⟩ c.pc)) s

/-- RET (R303): pops the return stack. -/
def execScribeRet (s : State) : Out :=
  scribeRun ⟨0x15, 0, 0, 0, 0, 0⟩ (fun sc c s =>
    match c.stack with
    | [] => .trap Cause.callStackOverflow 0
    | pc :: rest => .jump (s.modScribe sc fun c => { c with stack := rest }) pc) s

/-- SLD (R304): an 8-byte load. -/
def execSld (i : BitVec 8) (a d : BitVec 5) (s : State) : Out :=
  scribeRun ⟨0x18, 0, i, 0, a, d⟩ (fun sc c s =>
    let addr := c.rs a + scribeDisp ⟨0x18, 0, i, 0, a, d⟩ 8
    match s.scribeAccess sc addr 8 .read with
    | .trap e => .trap e addr
    | .absent => .stall addr.toNat
    | .held => .hold
    | .ok l s =>
      let (v, s) := s.scribeRead sc l 8
      .next ((s.modScribe sc fun c => c.setS d (.ofNat 64 v)).scribeLoading sc d.toNat)) s

/-- SST (R304): an 8-byte store. -/
def execSst (i : BitVec 8) (a d : BitVec 5) (s : State) : Out :=
  scribeRun ⟨0x19, 0, i, 0, a, d⟩ (fun sc c s =>
    let addr := c.rs a + scribeDisp ⟨0x19, 0, i, 0, a, d⟩ 8
    match s.scribeAccess sc addr 8 .write with
    | .trap e => .trap e addr
    | .absent => .stall addr.toNat
    | .held => .hold
    | .ok l s => .next (s.scribeStore sc none l 8 (c.rs d).toNat)) s

/-- VLD (R304): a vector load of 16 words. -/
def execVld (m : BitVec 3) (i : BitVec 8) (a d : BitVec 5) (s : State) : Out :=
  scribeVload ⟨0x1A, m, i, 0, a, d⟩ (laneAddrs ⟨0x1A, m, i, 0, a, d⟩) s

/-- VST (R304): a vector store. -/
def execVst (m : BitVec 3) (i : BitVec 8) (a d : BitVec 5) (s : State) : Out :=
  scribeVstore ⟨0x1B, m, i, 0, a, d⟩ (laneAddrs ⟨0x1B, m, i, 0, a, d⟩) s

/-- VGATHER (R304): an indexed vector load. -/
def execVgather (m : BitVec 3) (b a d : BitVec 5) (s : State) : Out :=
  scribeVload ⟨0x1C, m, 0, b, a, d⟩ (indexAddrs ⟨0x1C, m, 0, b, a, d⟩) s

/-- VSCATTER (R304): an indexed vector store. -/
def execVscatter (m : BitVec 3) (b a d : BitVec 5) (s : State) : Out :=
  scribeVstore ⟨0x1D, m, 0, b, a, d⟩ (indexAddrs ⟨0x1D, m, 0, b, a, d⟩) s

/-- VAADD (R305): an indexed atomic add, lane by lane. -/
def execVaadd (m : BitVec 3) (i : BitVec 8) (b a d : BitVec 5) (s : State) : Out :=
  scribeRun ⟨0x1E, m, i, b, a, d⟩ (fun sc c s =>
    match s.scribePlaces sc 4 .atomic (fun _ => false) (indexAddrs ⟨0x1E, m, i, b, a, d⟩ c) with
    | .error o => o
    | .ok (ls, s) =>
      .next (ls.foldl (fun s' p => s'.scribeAdd ⟨0x1E, m, i, b, a, d⟩ sc s.writes (c.lane d p.1) p.2) s)) s

/-- VADD (R306): a + b, as f32 or i32. -/
def execVadd (m : BitVec 3) (i : BitVec 8) (b a d : BitVec 5) (s : State) : Out :=
  scribeTwo ⟨0x20, m, i, b, a, d⟩ Fmt.f32.add (· + ·) s

/-- VSUB (R306): a − b, as f32 or i32. -/
def execVsub (m : BitVec 3) (i : BitVec 8) (b a d : BitVec 5) (s : State) : Out :=
  scribeTwo ⟨0x21, m, i, b, a, d⟩ Fmt.f32.sub (· - ·) s

/-- VMUL (R306): a × b, as f32 or i32. -/
def execVmul (m : BitVec 3) (i : BitVec 8) (b a d : BitVec 5) (s : State) : Out :=
  scribeTwo ⟨0x22, m, i, b, a, d⟩ Fmt.f32.mul (· * ·) s

/-- VMIN (R306): the lesser, as f32 or i32. -/
def execVmin (m : BitVec 3) (i : BitVec 8) (b a d : BitVec 5) (s : State) : Out :=
  scribeTwo ⟨0x24, m, i, b, a, d⟩ (Fmt.f32.minMax false) (fun a b => if a.toInt ≤ b.toInt then a else b) s

/-- VMAX (R306): the greater, as f32 or i32. -/
def execVmax (m : BitVec 3) (i : BitVec 8) (b a d : BitVec 5) (s : State) : Out :=
  scribeTwo ⟨0x25, m, i, b, a, d⟩ (Fmt.f32.minMax true) (fun a b => if a.toInt ≤ b.toInt then b else a) s

/-- VFMA (R306): a × b + d, rounded once. -/
def execVfma (m : BitVec 3) (b a d : BitVec 5) (s : State) : Out :=
  scribeLanes ⟨0x23, m, 0, b, a, d⟩ (fun c i =>
    Fmt.f32.fma (c.lane a i).toNat (c.lane b i).toNat (c.lane d i).toNat) s

/-- VDIV (R306): a ÷ b, correctly rounded. -/
def execVdiv (m : BitVec 3) (b a d : BitVec 5) (s : State) : Out :=
  scribeLanes ⟨0x26, m, 0, b, a, d⟩ (fun c i =>
    Fmt.f32.div (c.lane a i).toNat (c.lane b i).toNat) s

/-- VSQRT (R306): the square root, correctly rounded. -/
def execVsqrt (m : BitVec 3) (a d : BitVec 5) (s : State) : Out :=
  scribeLanes ⟨0x27, m, 0, 0, a, d⟩ (fun c i => Fmt.f32.sqrt (c.lane a i).toNat) s

/-- VRSQ (R306): the bits FRSQ gives. -/
def execVrsq (m : BitVec 3) (a d : BitVec 5) (s : State) : Out :=
  scribeLanes ⟨0x28, m, 0, 0, a, d⟩ (fun c i => Fmt.f32.func .rsq (c.lane a i).toNat) s

/-- VABS (R306): the sign bit cleared, or the wrapping absolute value. -/
def execVabs (m : BitVec 3) (i : BitVec 8) (a d : BitVec 5) (s : State) : Out :=
  scribeLanes ⟨0x29, m, i, 0, a, d⟩ (fun c k =>
    let v := c.lane a k
    if i = 0 then Fmt.f32.abs v.toNat else ⟨(if v.toInt < 0 then -v else v).toNat, 0⟩) s

/-- VCVT (R307): a conversion. -/
def execVcvt (m : BitVec 3) (i : BitVec 8) (a d : BitVec 5) (s : State) : Out :=
  scribeLanes ⟨0x2A, m, i, 0, a, d⟩ (fun c k => scribeCvt i.toNat (c.lane a k).toNat) s

/-- VSEL (R307): selection by a mask. -/
def execVsel (m : BitVec 3) (i : BitVec 8) (b a d : BitVec 5) (s : State) : Out :=
  scribeLanes ⟨0x2B, m, i, b, a, d⟩ (fun c k =>
    ⟨(if (c.mask i.toNat).getLsbD k then c.lane a k else c.lane b k).toNat, 0⟩) s

/-- VCMP (R307): a comparison into a mask; inactive lanes give 0. -/
def execVcmp (m : BitVec 3) (i : BitVec 8) (b a d : BitVec 5) (s : State) : Out :=
  scribeRun ⟨0x2C, m, i, b, a, d⟩ (fun sc c s =>
    let r := fun k =>
      if c.active ⟨0x2C, m, i, b, a, d⟩ k then scribeVcond i.toNat (c.lane a k) (c.lane b k) else (false, 0)
    let bits := ((List.range 16).map fun k => bit01 (r k).1 * 2 ^ k).sum
    let flags := (List.range 16).foldl (fun n k => n ||| (r k).2) 0
    .next (s.modScribe sc fun c => (c.setMask d.toNat (.ofNat 16 bits)).raise flags)) s

/-- VRED (R307): a reduction into a scalar. -/
def execVred (m : BitVec 3) (i : BitVec 8) (a d : BitVec 5) (s : State) : Out :=
  scribeRun ⟨0x2D, m, i, 0, a, d⟩ (scribeVred ⟨0x2D, m, i, 0, a, d⟩) s

/-- VBCAST (R307): a scalar to every active lane. -/
def execVbcast (m : BitVec 3) (a d : BitVec 5) (s : State) : Out :=
  scribeLanes ⟨0x2E, m, 0, 0, a, d⟩ (fun c _ => ⟨(c.rs a).toNat % 2 ^ 32, 0⟩) s

/-- VMOVS (R307): one lane to or from a scalar. -/
def execVmovs (i : BitVec 8) (a d : BitVec 5) (s : State) : Out :=
  scribeRun ⟨0x2F, 0, i, 0, a, d⟩ (scribeVmovs ⟨0x2F, 0, i, 0, a, d⟩) s

/-- TDEC (R308): a task record counted down.
DEDUCED (assumption 60). -/
def execScribeTdec (i : BitVec 8) (b a : BitVec 5) (s : State) : Out :=
  scribeRun ⟨0x38, 0, i, b, a, 0⟩ (scribeTdec ⟨0x38, 0, i, b, a, 0⟩) s

/-- FENCE (R117, R124, R308): every earlier write of the core has been performed, and the fence X>n acts. -/
def execScribeFence (i : BitVec 8) (s : State) : Out :=
  scribeRun ⟨0x39, 0, i, 0, 0, 0⟩ (fun sc _ s =>
    .next ((s.completeWrites (.scribe sc)).fence ⟨i.setWidth 5, 8, (i >>> 5).toNat⟩ (.scribe sc))) s

/-- TEXIT (R308): the task passes to DONE. -/
def execTexit (s : State) : Out :=
  scribeRun ⟨0x3A, 0, 0, 0, 0, 0⟩ (fun sc _ s => .stop ((s.completeWrites (.scribe sc)).scribeEnd sc 0)) s

/-- SCRIBE_ILLEGAL_OPCODE (R295, R299): a fetch out of bounds, or a word that does not decode.
DEDUCED (assumption 88). -/
def execScribeIllegalOpcode (cause : BitVec 8) (s : State) : Out :=
  match s.scribe with
  | none => .fault .noAgent
  | some sc => .next ({ s with scribe := none }.scribeTrap sc cause.toNat 0)

end Sys2Proof.Machine
end

