-- ==== Sys2Proof/Machine/Sealed.lean ====
section
/-! DEFINITION. SEALPUT, SEALGET, SEALREF and SEALSWAP (R286), lane by lane over the sealed store. -/

namespace Sys2Proof.Machine

/-- XQ(i) of a lane: a seal in four registers (R152). -/
def Thread.xq (th : Thread) (i : Nat) : Nat := th.xs i 4

/-- R165: the scratchpad block of 256 bytes of SEALPUT and SEALGET. -/
def sealBlock (i : Issue) (t : Tid) (s : State) (kind : AccessKind) : Access :=
  let a := effAddr s i t
  if !isScratch a then .out (.trap Cause.addressForm a)
  else
    match s.checkAddr i.core t.team (s.launchOf t).space a 256 256 kind with
    | .ok l s => .go l s
    | .trap c => .out (.trap c a)
    | .absent => .out (.trap Cause.nonresident a)
    | .held => .out .hold

/-- SEALPUT (R159).
DEDUCED (assumption 43). -/
def laneSealput (i : Issue) (t : Tid) (s : State) : LaneOut :=
  let a := effAddr s i t
  let cls := ((s.thread t).x i.x.c.toNat).toNat % 256
  match sealBlock i t s .read with
  | .out o => o
  | .absent s => .next s
  | .go l s =>
    onPresent s t l 256
      (if s.badLoc t.team l 256 then s.laterFault i t Cause.dataUncorrectable a
      else if 1 < cls then s.laterFault i t Cause.sealInvalid a
      else
        let r := s.seen .t (s.party t) t.team l 256
        match r.2.sealPut cls r.1 with
        | .ok v s => s.later i t (regWrites i.x.d.toNat 4 v) (residency i false) 0
        | .trap c => s.laterFault i t c a)

/-- SEALGET (R165): the content written as a thread's stores.
DEDUCED (assumption 43). -/
def laneSealget (i : Issue) (t : Tid) (s : State) : LaneOut :=
  let a := effAddr s i t
  let v := (s.thread t).xq i.x.c.toNat
  match sealBlock i t s .write with
  | .out o => o
  | .absent s => .next s
  | .go l s =>
    let put := fun content =>
      if s.badLoc t.team l 256 then LaneOut.trap Cause.dataUncorrectable a
      else (s.threadWrite t l 256 content).later i t [] (residency i false) 0
    if v = 0 then put 0
    else
      match s.sealLine v with
      | some line => put line.content
      | none => s.laterFault i t Cause.sealInvalid a

/-- SEALREF's effect on a count (R162): the value returned, or the cause of its trap. -/
def State.sealRef (s : State) (mode v : Nat) : Except Nat (Nat × State) :=
  if v = 0 then .ok (0, s)
  else
    match s.sealLine v with
    | none => if mode = 2 then .ok (0, s) else .error Cause.sealInvalid
    | some l =>
      if mode = 1 then .ok (l.count - 1, s.sealDrop v)
      else if l.count = sealMax then
        (if mode = 2 then .ok (0, s) else .error Cause.sealRefOverflow)
      else .ok (l.count + 1, s.sealAdd v)

/-- SEALREF (R162).
DEDUCED (assumption 43). -/
def laneSealref (i : Issue) (t : Tid) (s : State) : LaneOut :=
  match s.sealRef i.x.sub.toNat ((s.thread t).xq i.x.c.toNat) with
  | .ok (n, s) => s.later i t (regWrites i.x.d.toNat 1 n) [] 0
  | .error c => s.laterFault i t c 0

/-- SealSwap at a location by a party (R164, R167): the old value, and the state after it.
DEDUCED (assumption 43). -/
def State.sealSwap (s : State) (a : Party) (team : Nat) (l : Loc) (e n : Nat) : Nat × State :=
  let old := s.readLoc team l 16
  if old = e then
    let s := s.updateLoc a team l 16 n
    (old, if old ≠ 0 then s.sealDrop old else s)
  else (old, s)

/-- SEALSWAP (R164). Where the value to drop names no live line, it traps SEAL_INVALID as a drop does
(R162), and nothing changes. On a cell in an absent scratchpad line it parks as the accesses of R87 do.
DEDUCED (assumption 43). DESIGN CHOICE (assumption 126). -/
def laneSealswap (i : Issue) (t : Tid) (s : State) : LaneOut :=
  let a := effAddr s i t
  let e := (s.thread t).xq i.x.c.toNat
  let n := (s.thread t).xq i.x.e.toNat
  let d := i.x.d.toNat
  match access i t s 16 .atomic with
  | .out o => o
  | .absent s => s.later i t (regWrites d 4 0) (residency i true) 0
  | .go l s =>
    if n ≠ 0 ∧ !s.sealLive n then s.laterFault i t Cause.sealInvalid a
    else onPresent s t l 16
      (if s.badLoc t.team l 16 then s.laterFault i t Cause.dataUncorrectable a
      else if s.readLoc t.team l 16 = e ∧ e ≠ 0 ∧ !s.sealLive e then
        s.laterFault i t Cause.sealInvalid a
      else
        let r := (s.atomicAt i t l).sealSwap (s.party t) t.team l e n
        (r.2.sees (s.party t) t.team l 16).later i t (regWrites d 4 r.1) (residency i false) 0)

/-! ## The meanings -/

/-- SEALPUT (R159): a line made or shared. -/
def execSealput (x : Ext) (s : State) : Out := simt .sealput x x.len true laneSealput s

/-- SEALGET (R165): a line read. -/
def execSealget (x : Ext) (s : State) : Out := simt .sealget x x.len true laneSealget s

/-- SEALSWAP (R164): a root cell swapped. -/
def execSealswap (x : Ext) (s : State) : Out := simt .sealswap x x.len true laneSealswap s

/-- SEALREF (R162): references counted. -/
def execSealref (x : Ext) (s : State) : Out := simt .sealref x x.len true laneSealref s

end Sys2Proof.Machine
end

