-- ==== Sys2Proof/Machine/Dispatch.lean ====
section
/-! DEFINITION. The dispatcher: one arm per constructor of Instr, each one call of its meaning. -/

namespace Sys2Proof.Machine

def exec (i : Instr) (s : State) : Host.Outcome State Fault Refusal :=
  match i with
  | .add k b a d => Sys2Proof.Machine.execAdd k b a d s
  | .addExt x => Sys2Proof.Machine.execAddExt x s
  | .sub k b a d => Sys2Proof.Machine.execSub k b a d s
  | .subExt x => Sys2Proof.Machine.execSubExt x s
  | .mul k b a d => Sys2Proof.Machine.execMul k b a d s
  | .mulExt x => Sys2Proof.Machine.execMulExt x s
  | .mulh k b a d => Sys2Proof.Machine.execMulh k b a d s
  | .mulhExt x => Sys2Proof.Machine.execMulhExt x s
  | .mad x => Sys2Proof.Machine.execMad x s
  | .adds k b a d => Sys2Proof.Machine.execAdds k b a d s
  | .addsExt x => Sys2Proof.Machine.execAddsExt x s
  | .subs k b a d => Sys2Proof.Machine.execSubs k b a d s
  | .subsExt x => Sys2Proof.Machine.execSubsExt x s
  | .and k b a d => Sys2Proof.Machine.execAnd k b a d s
  | .andExt x => Sys2Proof.Machine.execAndExt x s
  | .or k b a d => Sys2Proof.Machine.execOr k b a d s
  | .orExt x => Sys2Proof.Machine.execOrExt x s
  | .xor k b a d => Sys2Proof.Machine.execXor k b a d s
  | .xorExt x => Sys2Proof.Machine.execXorExt x s
  | .andn k b a d => Sys2Proof.Machine.execAndn k b a d s
  | .andnExt x => Sys2Proof.Machine.execAndnExt x s
  | .shl k b a d => Sys2Proof.Machine.execShl k b a d s
  | .shlExt x => Sys2Proof.Machine.execShlExt x s
  | .shr k b a d => Sys2Proof.Machine.execShr k b a d s
  | .shrExt x => Sys2Proof.Machine.execShrExt x s
  | .sar k b a d => Sys2Proof.Machine.execSar k b a d s
  | .sarExt x => Sys2Proof.Machine.execSarExt x s
  | .rol k b a d => Sys2Proof.Machine.execRol k b a d s
  | .rolExt x => Sys2Proof.Machine.execRolExt x s
  | .min k b a d => Sys2Proof.Machine.execMin k b a d s
  | .minExt x => Sys2Proof.Machine.execMinExt x s
  | .max k b a d => Sys2Proof.Machine.execMax k b a d s
  | .maxExt x => Sys2Proof.Machine.execMaxExt x s
  | .abs a d => Sys2Proof.Machine.execAbs a d s
  | .absExt x => Sys2Proof.Machine.execAbsExt x s
  | .neg a d => Sys2Proof.Machine.execNeg a d s
  | .negExt x => Sys2Proof.Machine.execNegExt x s
  | .clz a d => Sys2Proof.Machine.execClz a d s
  | .clzExt x => Sys2Proof.Machine.execClzExt x s
  | .popc a d => Sys2Proof.Machine.execPopc a d s
  | .popcExt x => Sys2Proof.Machine.execPopcExt x s
  | .brev a d => Sys2Proof.Machine.execBrev a d s
  | .brevExt x => Sys2Proof.Machine.execBrevExt x s
  | .bfx x => Sys2Proof.Machine.execBfx x s
  | .bfi x => Sys2Proof.Machine.execBfi x s
  | .sel x => Sys2Proof.Machine.execSel x s
  | .mov a d => Sys2Proof.Machine.execMov a d s
  | .movExt x => Sys2Proof.Machine.execMovExt x s
  | .ldi im d => Sys2Proof.Machine.execLdi im d s
  | .ldiExt x => Sys2Proof.Machine.execLdiExt x s
  | .lea x => Sys2Proof.Machine.execLea x s
  | .cmp x => Sys2Proof.Machine.execCmp x s
  | .div x => Sys2Proof.Machine.execDiv x s
  | .rem x => Sys2Proof.Machine.execRem x s
  | .br o n g => Sys2Proof.Machine.execBr o n g s
  | .brExt x => Sys2Proof.Machine.execBrExt x s
  | .bri a => Sys2Proof.Machine.execBri a s
  | .briExt x => Sys2Proof.Machine.execBriExt x s
  | .call o n g => Sys2Proof.Machine.execCall o n g s
  | .callExt x => Sys2Proof.Machine.execCallExt x s
  | .calli a => Sys2Proof.Machine.execCalli a s
  | .calliExt x => Sys2Proof.Machine.execCalliExt x s
  | .ret => Sys2Proof.Machine.execRet s
  | .retExt x => Sys2Proof.Machine.execRetExt x s
  | .exit => Sys2Proof.Machine.execExit s
  | .exitExt x => Sys2Proof.Machine.execExitExt x s
  | .yield => Sys2Proof.Machine.execYield s
  | .yieldExt x => Sys2Proof.Machine.execYieldExt x s
  | .nop => Sys2Proof.Machine.execNop s
  | .nopExt x => Sys2Proof.Machine.execNopExt x s
  | .loop x => Sys2Proof.Machine.execLoop x s
  | .pand b a d => Sys2Proof.Machine.execPand b a d s
  | .pandExt x => Sys2Proof.Machine.execPandExt x s
  | .por b a d => Sys2Proof.Machine.execPor b a d s
  | .porExt x => Sys2Proof.Machine.execPorExt x s
  | .pxor b a d => Sys2Proof.Machine.execPxor b a d s
  | .pxorExt x => Sys2Proof.Machine.execPxorExt x s
  | .pnot a d => Sys2Proof.Machine.execPnot a d s
  | .pnotExt x => Sys2Proof.Machine.execPnotExt x s
  | .pset a d => Sys2Proof.Machine.execPset a d s
  | .psetExt x => Sys2Proof.Machine.execPsetExt x s
  | .pget a d => Sys2Proof.Machine.execPget a d s
  | .pgetExt x => Sys2Proof.Machine.execPgetExt x s
  | .vote x => Sys2Proof.Machine.execVote x s
  | .shfl x => Sys2Proof.Machine.execShfl x s
  | .sred x => Sys2Proof.Machine.execSred x s
  | .sscan x => Sys2Proof.Machine.execSscan x s
  | .ssync => Sys2Proof.Machine.execSsync s
  | .ssyncExt x => Sys2Proof.Machine.execSsyncExt x s
  | .elect x => Sys2Proof.Machine.execElect x s
  | .match x => Sys2Proof.Machine.execMatch x s
  | .tbar => Sys2Proof.Machine.execTbar s
  | .tbarExt x => Sys2Proof.Machine.execTbarExt x s
  | .sysrd im d => Sys2Proof.Machine.execSysrd im d s
  | .sysrdExt x => Sys2Proof.Machine.execSysrdExt x s
  | .clock d => Sys2Proof.Machine.execClock d s
  | .clockExt x => Sys2Proof.Machine.execClockExt x s
  | .realign im => Sys2Proof.Machine.execRealign im s
  | .realignExt x => Sys2Proof.Machine.execRealignExt x s
  | .fadd k b a d => Sys2Proof.Machine.execFadd k b a d s
  | .faddExt x => Sys2Proof.Machine.execFaddExt x s
  | .fsub k b a d => Sys2Proof.Machine.execFsub k b a d s
  | .fsubExt x => Sys2Proof.Machine.execFsubExt x s
  | .fmul k b a d => Sys2Proof.Machine.execFmul k b a d s
  | .fmulExt x => Sys2Proof.Machine.execFmulExt x s
  | .fma x => Sys2Proof.Machine.execFma x s
  | .fmin k b a d => Sys2Proof.Machine.execFmin k b a d s
  | .fminExt x => Sys2Proof.Machine.execFminExt x s
  | .fmax k b a d => Sys2Proof.Machine.execFmax k b a d s
  | .fmaxExt x => Sys2Proof.Machine.execFmaxExt x s
  | .fabs a d => Sys2Proof.Machine.execFabs a d s
  | .fabsExt x => Sys2Proof.Machine.execFabsExt x s
  | .fneg a d => Sys2Proof.Machine.execFneg a d s
  | .fnegExt x => Sys2Proof.Machine.execFnegExt x s
  | .fcmp x => Sys2Proof.Machine.execFcmp x s
  | .fclass a d => Sys2Proof.Machine.execFclass a d s
  | .fclassExt x => Sys2Proof.Machine.execFclassExt x s
  | .frcp x => Sys2Proof.Machine.execFrcp x s
  | .frsq x => Sys2Proof.Machine.execFrsq x s
  | .fexp2 x => Sys2Proof.Machine.execFexp2 x s
  | .flog2 x => Sys2Proof.Machine.execFlog2 x s
  | .fdiv x => Sys2Proof.Machine.execFdiv x s
  | .fsqrt x => Sys2Proof.Machine.execFsqrt x s
  | .cvt x => Sys2Proof.Machine.execCvt x s
  | .cvtsr x => Sys2Proof.Machine.execCvtsr x s
  | .dot4 x => Sys2Proof.Machine.execDot4 x s
  | .dot2 x => Sys2Proof.Machine.execDot2 x s
  | .fscale k b a d => Sys2Proof.Machine.execFscale k b a d s
  | .fscaleExt x => Sys2Proof.Machine.execFscaleExt x s
  | .frnd x => Sys2Proof.Machine.execFrnd x s
  | .fflags x => Sys2Proof.Machine.execFflags x s
  | .ld x => Sys2Proof.Machine.execLd x s
  | .st im a d => Sys2Proof.Machine.execSt im a d s
  | .stExt x => Sys2Proof.Machine.execStExt x s
  | .atom x => Sys2Proof.Machine.execAtom x s
  | .red x => Sys2Proof.Machine.execRed x s
  | .cas x => Sys2Proof.Machine.execCas x s
  | .faddw x => Sys2Proof.Machine.execFaddw x s
  | .waitw x => Sys2Proof.Machine.execWaitw x s
  | .pref im a => Sys2Proof.Machine.execPref im a s
  | .prefExt x => Sys2Proof.Machine.execPrefExt x s
  | .pagereq x => Sys2Proof.Machine.execPagereq x s
  | .clhint x => Sys2Proof.Machine.execClhint x s
  | .fence x => Sys2Proof.Machine.execFence x s
  | .tspawn x => Sys2Proof.Machine.execTspawn x s
  | .tdec x => Sys2Proof.Machine.execTdec x s
  | .tinc x => Sys2Proof.Machine.execTinc x s
  | .defer x => Sys2Proof.Machine.execDefer x s
  | .rwait x => Sys2Proof.Machine.execRwait x s
  | .rpop im => Sys2Proof.Machine.execRpop im s
  | .rpopExt x => Sys2Proof.Machine.execRpopExt x s
  | .obres x => Sys2Proof.Machine.execObres x s
  | .obrel x => Sys2Proof.Machine.execObrel x s
  | .obld x => Sys2Proof.Machine.execObld x s
  | .mma x => Sys2Proof.Machine.execMma x s
  | .mmap x => Sys2Proof.Machine.execMmap x s
  | .mzero x => Sys2Proof.Machine.execMzero x s
  | .mdrain x => Sys2Proof.Machine.execMdrain x s
  | .mlease x => Sys2Proof.Machine.execMlease x s
  | .mfree x => Sys2Proof.Machine.execMfree x s
  | .quant x => Sys2Proof.Machine.execQuant x s
  | .mrd x => Sys2Proof.Machine.execMrd x s
  | .mwr x => Sys2Proof.Machine.execMwr x s
  | .cpy x => Sys2Proof.Machine.execCpy x s
  | .tcopy x => Sys2Proof.Machine.execTcopy x s
  | .put x => Sys2Proof.Machine.execPut x s
  | .get x => Sys2Proof.Machine.execGet x s
  | .msg x => Sys2Proof.Machine.execMsg x s
  | .nmcmd x => Sys2Proof.Machine.execNmcmd x s
  | .sealput x => Sys2Proof.Machine.execSealput x s
  | .sealget x => Sys2Proof.Machine.execSealget x s
  | .sealswap x => Sys2Proof.Machine.execSealswap x s
  | .sealref x => Sys2Proof.Machine.execSealref x s
  | .unseal x => Sys2Proof.Machine.execUnseal x s
  | .trev x => Sys2Proof.Machine.execTrev x s
  | .xlook x => Sys2Proof.Machine.execXlook x s
  | .trap im => Sys2Proof.Machine.execTrap im s
  | .trapExt x => Sys2Proof.Machine.execTrapExt x s
  | .rett => Sys2Proof.Machine.execRett s
  | .rettExt x => Sys2Proof.Machine.execRettExt x s
  | .csrrd im d => Sys2Proof.Machine.execCsrrd im d s
  | .csrrdExt x => Sys2Proof.Machine.execCsrrdExt x s
  | .csrwr im a => Sys2Proof.Machine.execCsrwr im a s
  | .csrwrExt x => Sys2Proof.Machine.execCsrwrExt x s
  | .tlbinv x => Sys2Proof.Machine.execTlbinv x s
  | .bkpt => Sys2Proof.Machine.execBkpt s
  | .bkptExt x => Sys2Proof.Machine.execBkptExt x s
  | .halt => Sys2Proof.Machine.execHalt s
  | .haltExt x => Sys2Proof.Machine.execHaltExt x s
  | .ctxsave x => Sys2Proof.Machine.execCtxsave x s
  | .ctxload x => Sys2Proof.Machine.execCtxload x s
  | .sadd im b a d => Sys2Proof.Machine.execSadd im b a d s
  | .ssub im b a d => Sys2Proof.Machine.execSsub im b a d s
  | .smul im b a d => Sys2Proof.Machine.execSmul im b a d s
  | .sand im b a d => Sys2Proof.Machine.execSand im b a d s
  | .sor im b a d => Sys2Proof.Machine.execSor im b a d s
  | .sxor im b a d => Sys2Proof.Machine.execSxor im b a d s
  | .sshl im b a d => Sys2Proof.Machine.execSshl im b a d s
  | .sshr im b a d => Sys2Proof.Machine.execSshr im b a d s
  | .sldi im a d => Sys2Proof.Machine.execSldi im a d s
  | .sldk im d => Sys2Proof.Machine.execSldk im d s
  | .smov im a d => Sys2Proof.Machine.execSmov im a d s
  | .scmp im b a d => Sys2Proof.Machine.execScmp im b a d s
  | .jmp l h => Sys2Proof.Machine.execJmp l h s
  | .jz l h a => Sys2Proof.Machine.execJz l h a s
  | .jnz l h a => Sys2Proof.Machine.execJnz l h a s
  | .scribeLoop l h a => Sys2Proof.Machine.execScribeLoop l h a s
  | .scribeCall l h => Sys2Proof.Machine.execScribeCall l h s
  | .scribeRet => Sys2Proof.Machine.execScribeRet s
  | .sld im a d => Sys2Proof.Machine.execSld im a d s
  | .sst im a d => Sys2Proof.Machine.execSst im a d s
  | .vld m im a d => Sys2Proof.Machine.execVld m im a d s
  | .vst m im a d => Sys2Proof.Machine.execVst m im a d s
  | .vgather m b a d => Sys2Proof.Machine.execVgather m b a d s
  | .vscatter m b a d => Sys2Proof.Machine.execVscatter m b a d s
  | .vaadd m im b a d => Sys2Proof.Machine.execVaadd m im b a d s
  | .vadd m im b a d => Sys2Proof.Machine.execVadd m im b a d s
  | .vsub m im b a d => Sys2Proof.Machine.execVsub m im b a d s
  | .vmul m im b a d => Sys2Proof.Machine.execVmul m im b a d s
  | .vfma m b a d => Sys2Proof.Machine.execVfma m b a d s
  | .vmin m im b a d => Sys2Proof.Machine.execVmin m im b a d s
  | .vmax m im b a d => Sys2Proof.Machine.execVmax m im b a d s
  | .vdiv m b a d => Sys2Proof.Machine.execVdiv m b a d s
  | .vsqrt m a d => Sys2Proof.Machine.execVsqrt m a d s
  | .vrsq m a d => Sys2Proof.Machine.execVrsq m a d s
  | .vabs m im a d => Sys2Proof.Machine.execVabs m im a d s
  | .vcvt m im a d => Sys2Proof.Machine.execVcvt m im a d s
  | .vsel m im b a d => Sys2Proof.Machine.execVsel m im b a d s
  | .vcmp m im b a d => Sys2Proof.Machine.execVcmp m im b a d s
  | .vred m im a d => Sys2Proof.Machine.execVred m im a d s
  | .vbcast m a d => Sys2Proof.Machine.execVbcast m a d s
  | .vmovs im a d => Sys2Proof.Machine.execVmovs im a d s
  | .scribeTdec im b a => Sys2Proof.Machine.execScribeTdec im b a s
  | .scribeFence im => Sys2Proof.Machine.execScribeFence im s
  | .texit => Sys2Proof.Machine.execTexit s
  | .illegalOpcode zero => Sys2Proof.Machine.execIllegalOpcode zero s
  | .codeBounds => Sys2Proof.Machine.execCodeBounds s
  | .scribeIllegalOpcode cause => Sys2Proof.Machine.execScribeIllegalOpcode cause s
  | .realignResume core => Sys2Proof.Machine.execRealignResume core s
  | .waitwWake t => Sys2Proof.Machine.execWaitwWake t s
  | .waitwTimeout t => Sys2Proof.Machine.execWaitwTimeout t s
  | .pagereqComplete req => Sys2Proof.Machine.execPagereqComplete req s
  | .matrixOpComplete core => Sys2Proof.Machine.execMatrixOpComplete core s
  | .sealWalkerDrop site => Sys2Proof.Machine.execSealWalkerDrop site s
  | .longLatencyComplete t w => Sys2Proof.Machine.execLongLatencyComplete t w s
  | .longLatencyFault t w cause addr => Sys2Proof.Machine.execLongLatencyFault t w cause addr s
  | .convergenceTimeout q => Sys2Proof.Machine.execConvergenceTimeout q s
  | .watchdog t => Sys2Proof.Machine.execWatchdog t s
  | .exitTrackerResume q => Sys2Proof.Machine.execExitTrackerResume q s
  | .commandComplete c => Sys2Proof.Machine.execCommandComplete c s
  | .copyLineDelivered c half line => Sys2Proof.Machine.execCopyLineDelivered c half line s
  | .lqtailWrite q v => Sys2Proof.Machine.execLqtailWrite q v s
  | .lqcfgWrite q v => Sys2Proof.Machine.execLqcfgWrite q v s
  | .launchRecordRead q => Sys2Proof.Machine.execLaunchRecordRead q s
  | .launchPageResume q => Sys2Proof.Machine.execLaunchPageResume q s
  | .launchComplete lid => Sys2Proof.Machine.execLaunchComplete lid s
  | .teamPlace lid => Sys2Proof.Machine.execTeamPlace lid s
  | .teamRelease team => Sys2Proof.Machine.execTeamRelease team s
  | .taskDispatch site => Sys2Proof.Machine.execTaskDispatch site s
  | .leaseGrant core => Sys2Proof.Machine.execLeaseGrant core s
  | .leaseIdleExpiry core => Sys2Proof.Machine.execLeaseIdleExpiry core s
  | .congestionSample site occ => Sys2Proof.Machine.execCongestionSample site occ s
  | .ringAppend p => Sys2Proof.Machine.execRingAppend p s
  | .putArrive p => Sys2Proof.Machine.execPutArrive p s
  | .putAck p => Sys2Proof.Machine.execPutAck p s
  | .getRequestArrive p => Sys2Proof.Machine.execGetRequestArrive p s
  | .getReplyArrive p => Sys2Proof.Machine.execGetReplyArrive p s
  | .nakReceive p => Sys2Proof.Machine.execNakReceive p s
  | .packetHop p => Sys2Proof.Machine.execPacketHop p s
  | .nmcmdPacketArrive c site stack => Sys2Proof.Machine.execNmcmdPacketArrive c site stack s
  | .trapReport site => Sys2Proof.Machine.execTrapReport site s
  | .trapqheadWrite site v => Sys2Proof.Machine.execTrapqheadWrite site v s
  | .trapactResume site idx => Sys2Proof.Machine.execTrapactResume site idx s
  | .trapactForward site idx => Sys2Proof.Machine.execTrapactForward site idx s
  | .trapactEndThreads site idx => Sys2Proof.Machine.execTrapactEndThreads site idx s
  | .trapactEndLaunch site idx => Sys2Proof.Machine.execTrapactEndLaunch site idx s
  | .l2cfgWrite site v => Sys2Proof.Machine.execL2cfgWrite site v s
  | .l2FlushDone site => Sys2Proof.Machine.execL2FlushDone site s
  | .l2liveWrite site v => Sys2Proof.Machine.execL2liveWrite site v s
  | .chremapWrite site v => Sys2Proof.Machine.execChremapWrite site v s
  | .chremapCopyDone site => Sys2Proof.Machine.execChremapCopyDone site s
  | .biasToHost site v => Sys2Proof.Machine.execBiasToHost site v s
  | .biasToHostDone site => Sys2Proof.Machine.execBiasToHostDone site s
  | .biasToDevice site v => Sys2Proof.Machine.execBiasToDevice site v s
  | .biasToDeviceDone site ok => Sys2Proof.Machine.execBiasToDeviceDone site ok s
  | .hostMemAccess off a => Sys2Proof.Machine.execHostMemAccess off a s
  | .scribePageResume sc => Sys2Proof.Machine.execScribePageResume sc s
  | .boot => Sys2Proof.Machine.execBoot s
  | .attestationQuote nonce => Sys2Proof.Machine.execAttestationQuote nonce s
  | .tenantDebugGrant env => Sys2Proof.Machine.execTenantDebugGrant env s
  | .tenantDebugRevoke => Sys2Proof.Machine.execTenantDebugRevoke s
  | .dstateRaise d => Sys2Proof.Machine.execDstateRaise d s
  | .dstateLower d => Sys2Proof.Machine.execDstateLower d s
  | .debugHaltRequest phys => Sys2Proof.Machine.execDebugHaltRequest phys s
  | .debugResume phys => Sys2Proof.Machine.execDebugResume phys s
  | .slotRetire site block slot => Sys2Proof.Machine.execSlotRetire site block slot s
  | .blockRouterFail site block => Sys2Proof.Machine.execBlockRouterFail site block s
  | .blockRecompact site block => Sys2Proof.Machine.execBlockRecompact site block s
  | .reticleOut site => Sys2Proof.Machine.execReticleOut site s
  | .linkDelayMeasure site edge ps => Sys2Proof.Machine.execLinkDelayMeasure site edge ps s
  | .timeTreeReparent site parent => Sys2Proof.Machine.execTimeTreeReparent site parent s
  | .ptpSync offset => Sys2Proof.Machine.execPtpSync offset s
  | .linkDead site edge => Sys2Proof.Machine.execLinkDead site edge s
  | .linkDeadTimeout site edge => Sys2Proof.Machine.execLinkDeadTimeout site edge s
  | .netverWrite site v => Sys2Proof.Machine.execNetverWrite site v s
  | .netcommitWrite site v => Sys2Proof.Machine.execNetcommitWrite site v s
  | .commitRequestServe => Sys2Proof.Machine.execCommitRequestServe s
  | .commitBroadcast site => Sys2Proof.Machine.execCommitBroadcast site s
  | .versionHoldTimeout p => Sys2Proof.Machine.execVersionHoldTimeout p s
  | .occupancyReport site occ => Sys2Proof.Machine.execOccupancyReport site occ s
  | .steerInterval site demand agree => Sys2Proof.Machine.execSteerInterval site demand agree s
  | .laneMove site => Sys2Proof.Machine.execLaneMove site s
  | .laneSkewMeasure site w inBound => Sys2Proof.Machine.execLaneSkewMeasure site w inBound s
  | .carrierLoss site w => Sys2Proof.Machine.execCarrierLoss site w s
  | .portLoss site serving => Sys2Proof.Machine.execPortLoss site serving s
  | .replayEntryExpire site key => Sys2Proof.Machine.execReplayEntryExpire site key s
  | .ackTimeout p => Sys2Proof.Machine.execAckTimeout p s
  | .replayFullRetry p => Sys2Proof.Machine.execReplayFullRetry p s
  | .bltcfgWrite site strm v => Sys2Proof.Machine.execBltcfgWrite site strm v s
  | .bltheadWrite site strm v => Sys2Proof.Machine.execBltheadWrite site strm v s
  | .blotterStallTimeout site strm => Sys2Proof.Machine.execBlotterStallTimeout site strm s
  | .lupcfgWrite l v => Sys2Proof.Machine.execLupcfgWrite l v s
  | .lineupReview l => Sys2Proof.Machine.execLineupReview l s
  | .lineupCopiesDone l failed => Sys2Proof.Machine.execLineupCopiesDone l failed s
  | .lineupPrepare l => Sys2Proof.Machine.execLineupPrepare l s
  | .lineupPrepareTimeout l => Sys2Proof.Machine.execLineupPrepareTimeout l s
  | .lineupCommit l site => Sys2Proof.Machine.execLineupCommit l site s
  | .lineupCommitAcked l => Sys2Proof.Machine.execLineupCommitAcked l s
  | .lineupHeartbeat l arrives => Sys2Proof.Machine.execLineupHeartbeat l arrives s
  | .lineupTakeover l => Sys2Proof.Machine.execLineupTakeover l s
  | .blockIdle site block => Sys2Proof.Machine.execBlockIdle site block s
  | .blockGate site block => Sys2Proof.Machine.execBlockGate site block s
  | .blockPowerOnCheck site block amps => Sys2Proof.Machine.execBlockPowerOnCheck site block amps s
  | .powerGateStep site block => Sys2Proof.Machine.execPowerGateStep site block s
  | .reticleOff site => Sys2Proof.Machine.execReticleOff site s
  | .reticleOn site => Sys2Proof.Machine.execReticleOn site s
  | .powerLimitThrottle watts => Sys2Proof.Machine.execPowerLimitThrottle watts s
  | .thermalLimit site celsius => Sys2Proof.Machine.execThermalLimit site celsius s
  | .registerWrite r v => Sys2Proof.Machine.execRegisterWrite r v s
  | .rootDecrementResume lid => Sys2Proof.Machine.execRootDecrementResume lid s
  | .scribeLoadReturn sc => Sys2Proof.Machine.execScribeLoadReturn sc s
  | .tlbinvComplete id => Sys2Proof.Machine.execTlbinvComplete id s
  | .ctxsaveCtxloadCompletion id => Sys2Proof.Machine.execCtxsaveCtxloadCompletion id s
  | .scribeCoreDead site k => Sys2Proof.Machine.execScribeCoreDead site k s
  | .softError e => Sys2Proof.Machine.execSoftError e s
  | .ptpHoldover => Sys2Proof.Machine.execPtpHoldover s
  | .debugStateWrite w => Sys2Proof.Machine.execDebugStateWrite w s
  | .steeringRequest site w src dst => Sys2Proof.Machine.execSteeringRequest site w src dst s

end Sys2Proof.Machine
end

