-- ==== Sys2Proof/Machine/Events.lean ====
section
/-! DEFINITION. The steps of the module that no instruction word names, run from the agenda: each is
the meaning that `exec` gives the instruction of the same name. -/

namespace Sys2Proof.Machine

/-- One step of the module from the agenda.
DEDUCED (assumption 99). -/
def runEv (e : Ev) (s : State) : Out :=
  match e with
  | .illegalOpcode zero => execIllegalOpcode zero s
  | .codeBounds => execCodeBounds s
  | .scribeIllegalOpcode cause => execScribeIllegalOpcode cause s
  | .realignResume core => execRealignResume core s
  | .waitwWake t => execWaitwWake t s
  | .waitwTimeout t => execWaitwTimeout t s
  | .pagereqComplete req => execPagereqComplete req s
  | .matrixOpComplete core => execMatrixOpComplete core s
  | .sealWalkerDrop site => execSealWalkerDrop site s
  | .longLatencyComplete t w => execLongLatencyComplete t w s
  | .longLatencyFault t w cause addr => execLongLatencyFault t w cause addr s
  | .convergenceTimeout q => execConvergenceTimeout q s
  | .watchdog t => execWatchdog t s
  | .exitTrackerResume q => execExitTrackerResume q s
  | .commandComplete c => execCommandComplete c s
  | .copyLineDelivered c half line => execCopyLineDelivered c half line s
  | .lqtailWrite q v => execLqtailWrite q v s
  | .lqcfgWrite q v => execLqcfgWrite q v s
  | .launchRecordRead q => execLaunchRecordRead q s
  | .launchPageResume q => execLaunchPageResume q s
  | .launchComplete lid => execLaunchComplete lid s
  | .teamPlace lid => execTeamPlace lid s
  | .teamRelease team => execTeamRelease team s
  | .taskDispatch site => execTaskDispatch site s
  | .leaseGrant core => execLeaseGrant core s
  | .leaseIdleExpiry core => execLeaseIdleExpiry core s
  | .congestionSample site occ => execCongestionSample site occ s
  | .ringAppend p => execRingAppend p s
  | .putArrive p => execPutArrive p s
  | .putAck p => execPutAck p s
  | .getRequestArrive p => execGetRequestArrive p s
  | .getReplyArrive p => execGetReplyArrive p s
  | .nakReceive p => execNakReceive p s
  | .packetHop p => execPacketHop p s
  | .nmcmdPacketArrive c site stack => execNmcmdPacketArrive c site stack s
  | .trapReport site => execTrapReport site s
  | .trapqheadWrite site v => execTrapqheadWrite site v s
  | .trapactResume site idx => execTrapactResume site idx s
  | .trapactForward site idx => execTrapactForward site idx s
  | .trapactEndThreads site idx => execTrapactEndThreads site idx s
  | .trapactEndLaunch site idx => execTrapactEndLaunch site idx s
  | .l2cfgWrite site v => execL2cfgWrite site v s
  | .l2FlushDone site => execL2FlushDone site s
  | .l2liveWrite site v => execL2liveWrite site v s
  | .chremapWrite site v => execChremapWrite site v s
  | .chremapCopyDone site => execChremapCopyDone site s
  | .biasToHost site v => execBiasToHost site v s
  | .biasToHostDone site => execBiasToHostDone site s
  | .biasToDevice site v => execBiasToDevice site v s
  | .biasToDeviceDone site ok => execBiasToDeviceDone site ok s
  | .hostMemAccess off a => execHostMemAccess off a s
  | .scribePageResume sc => execScribePageResume sc s
  | .boot => execBoot s
  | .attestationQuote nonce => execAttestationQuote nonce s
  | .tenantDebugGrant env => execTenantDebugGrant env s
  | .tenantDebugRevoke => execTenantDebugRevoke s
  | .dstateRaise d => execDstateRaise d s
  | .dstateLower d => execDstateLower d s
  | .debugHaltRequest phys => execDebugHaltRequest phys s
  | .debugResume phys => execDebugResume phys s
  | .slotRetire site block slot => execSlotRetire site block slot s
  | .blockRouterFail site block => execBlockRouterFail site block s
  | .blockRecompact site block => execBlockRecompact site block s
  | .reticleOut site => execReticleOut site s
  | .linkDelayMeasure site edge ps => execLinkDelayMeasure site edge ps s
  | .timeTreeReparent site parent => execTimeTreeReparent site parent s
  | .ptpSync offset => execPtpSync offset s
  | .linkDead site edge => execLinkDead site edge s
  | .linkDeadTimeout site edge => execLinkDeadTimeout site edge s
  | .netverWrite site v => execNetverWrite site v s
  | .netcommitWrite site v => execNetcommitWrite site v s
  | .commitRequestServe => execCommitRequestServe s
  | .commitBroadcast site => execCommitBroadcast site s
  | .versionHoldTimeout p => execVersionHoldTimeout p s
  | .occupancyReport site occ => execOccupancyReport site occ s
  | .steerInterval site demand agree => execSteerInterval site demand agree s
  | .laneMove site => execLaneMove site s
  | .laneSkewMeasure site w inBound => execLaneSkewMeasure site w inBound s
  | .carrierLoss site w => execCarrierLoss site w s
  | .portLoss site serving => execPortLoss site serving s
  | .replayEntryExpire site key => execReplayEntryExpire site key s
  | .ackTimeout p => execAckTimeout p s
  | .replayFullRetry p => execReplayFullRetry p s
  | .bltcfgWrite site strm v => execBltcfgWrite site strm v s
  | .bltheadWrite site strm v => execBltheadWrite site strm v s
  | .blotterStallTimeout site strm => execBlotterStallTimeout site strm s
  | .lupcfgWrite l v => execLupcfgWrite l v s
  | .lineupReview l => execLineupReview l s
  | .lineupCopiesDone l failed => execLineupCopiesDone l failed s
  | .lineupPrepare l => execLineupPrepare l s
  | .lineupPrepareTimeout l => execLineupPrepareTimeout l s
  | .lineupCommit l site => execLineupCommit l site s
  | .lineupCommitAcked l => execLineupCommitAcked l s
  | .lineupHeartbeat l arrives => execLineupHeartbeat l arrives s
  | .lineupTakeover l => execLineupTakeover l s
  | .blockIdle site block => execBlockIdle site block s
  | .blockGate site block => execBlockGate site block s
  | .blockPowerOnCheck site block amps => execBlockPowerOnCheck site block amps s
  | .powerGateStep site block => execPowerGateStep site block s
  | .reticleOff site => execReticleOff site s
  | .reticleOn site => execReticleOn site s
  | .powerLimitThrottle watts => execPowerLimitThrottle watts s
  | .thermalLimit site celsius => execThermalLimit site celsius s
  | .registerWrite r v => execRegisterWrite r v s
  | .rootDecrementResume lid => execRootDecrementResume lid s
  | .scribeLoadReturn sc => execScribeLoadReturn sc s
  | .tlbinvComplete id => execTlbinvComplete id s
  | .ctxsaveCtxloadCompletion id => execCtxsaveCtxloadCompletion id s
  | .scribeCoreDead site k => execScribeCoreDead site k s
  | .softError e => execSoftError e s
  | .ptpHoldover => execPtpHoldover s
  | .debugStateWrite w => execDebugStateWrite w s
  | .steeringRequest site w src dst => execSteeringRequest site w src dst s

end Sys2Proof.Machine
end

