-- ==== Sys2Proof/Machine/Turn.lean ====
section
/-! DEFINITION. What a step of the module does next: the agenda's next due entry, else the turn of the
round's next agent, else the end of the round of core clocks. -/

namespace Sys2Proof.Machine

/-- The earliest time in a list of agenda entries. -/
def earliest : List Due → Option Nat
  | [] => none
  | d :: ds =>
    match earliest ds with
    | none => some d.at_
    | some t => some (min d.at_ t)

/-- The first entry of a time in a list of agenda entries, and the list without it. -/
def takeAt (t : Nat) : List Due → Option (Ev × List Due)
  | [] => none
  | d :: ds => if d.at_ = t then some (d.ev, ds) else (takeAt t ds).map fun p => (p.1, d :: p.2)

/-- The agenda entry to run now: the first of the earliest, if it is due.
DESIGN CHOICE (assumption 2). -/
def State.dueNow (s : State) : Option (Ev × List Due) :=
  match earliest s.agenda with
  | none => none
  | some t => if t ≤ s.tick then takeAt t s.agenda else none

/-- The agents of a round: the cores whose clock has an edge in it, then the Scribe cores. One that has nothing to issue
when its turn comes does nothing.
DESIGN CHOICE (assumption 2). DESIGN CHOICE (assumption 30). -/
def State.agents (s : State) : List Agent :=
  ((s.cores.filter fun p => !s.skips (siteOf p.1)).map fun p => Agent.core p.1) ++ s.scribes.map fun p => Agent.scribe p.1

/-- The core clocks in which wafer time is corrected by one eighth of a nanosecond, at 50 ppm (R386). -/
def slewClocks : Nat := 4000

/-- What is due at a wafer time (R215), due at another tick. -/
def retime (f : Nat → Nat) (d : Due) : Due :=
  match d.ev with
  | .realignResume _ => { d with at_ := f d.at_ }
  | _ => d

/-- Wafer time corrected by one eighth of a nanosecond, while a correction is left (R386).
DESIGN CHOICE (assumption 69). -/
def State.slewTime (s : State) : State :=
  if (s.clock + 1) % slewClocks ≠ 0 then s
  else if 0 < s.slew then
    { s with timeBase := s.timeBase + 1, slew := s.slew - 1, agenda := s.agenda.map (retime (· - 1)) }
  else if s.slew < 0 ∧ 0 < s.timeBase then
    { s with timeBase := s.timeBase - 1, slew := s.slew + 1, agenda := s.agenda.map (retime (· + 1)) }
  else s

/-- The threads that have become ready since their core's turn, held or leading in this clock where they are to be
(R40-R42, R50).
DEDUCED (assumption 28). -/
def State.settleCores (s : State) : State :=
  (s.cores.filter fun p => !p.2.stopped && !s.skips (siteOf p.1)).foldl (fun s p => s.settleCore p.1) s

/-- A core whose clock had no edge in the round that ends: as a picker that stood still for a clock (R430). -/
def State.lagCore (s : State) (c : Nat) : State :=
  if (s.core c).stopped then s
  else (s.core c).order.foldl (fun s q => s.shiftSquad (s.clock - 1) s.clock q) s

/-- The blocks of a reticle whose clock had no edge: their cores have counted none (R214). -/
def Site.lagBlocks (st : Site) : Site :=
  { st with blocks := st.blocks.map fun p => (p.1, if p.2.power = .active then { p.2 with born := p.2.born + 1 } else p.2) }

/-- The clocks of the reticles in the round that begins: what a slow clock falls behind (R430), and the caps of a window
that begins (R73).
DESIGN CHOICE (assumption 12). DESIGN CHOICE (assumption 123). -/
def State.tickSites (s : State) : State :=
  { s with
    sites := s.sites.map fun p =>
      (p.1, { (if 1600 ≤ p.2.lag then p.2.lagBlocks else p.2) with
        lag := p.2.lag % 1600 + (1600 - p.2.mhz)
        windowCap := if s.clock % 64 = 0 then p.2.cap else p.2.windowCap }) }

/-- The end of a round: one core clock passes, and every agent has a turn again.
DESIGN CHOICE (assumption 2). DESIGN CHOICE (assumption 12). DESIGN CHOICE (assumption 30). -/
def State.endRound (s : State) : State :=
  let slow := s.cores.keys.filter fun c => s.skips (siteOf c)
  let s := s.settleCores
  let s := { s.slewTime with clock := s.clock + 1, tick := s.tick + coreTicks }
  let s := (slow.foldl State.lagCore s).tickSites
  { s with todo := s.agents }

/-- What the next step does: an entry of the agenda, an instruction, a trap of a fetched instruction on
its whole gang, or nothing but the state's own change. -/
inductive Plan where
  | event (e : Ev) (s : State)
  | run (i : Instr) (s : State)
  | trap (cause : Nat) (addr : DWord) (s : State)
  | quiet (s : State)

/-- A gang whose fetch a flip or a flush holds issues nothing (R98, R352), and lets the squads behind it issue (R355).
DESIGN CHOICE (assumption 79). -/
def State.holdGang (s : State) : State :=
  match s.gang with
  | some g => { (g.members.foldl (fun s m => s.holdThread m.2) s).toBack g.core g.move.toList with gang := none }
  | none => s

/-- The plan for what a gang has fetched (R181 steps 1 to 7, R185).
DEDUCED (assumption 34). DEDUCED (assumption 88). -/
def planFetched : Fetched → Plan
  | .trap c a s =>
    if c = heldCause then .quiet s.holdGang
    else if c = Cause.codeBounds then .run .codeBounds s
    else .trap c a s
  | .ok w s =>
    match decodeSimt w with
    | .ok i _ => .run i s
    | .trap c =>
      if c = Cause.zeroWord then .run (.illegalOpcode true) s
      else if c = Cause.illegalOpcode then .run (.illegalOpcode false) s
      else .trap c 0 s

/-- The plan for a core's turn (R38): threads the watchdog has reached come first (R47); a core whose
picker stands still, or with no thread to issue, does nothing. -/
def State.planCore (s : State) (c : Nat) (rest : List Agent) : Plan :=
  if (s.core c).stopped then .quiet { s with todo := rest }
  else
    match s.watched c with
    | t :: _ => .event (.watchdog t) s
    | [] =>
      let s1 := { s.choose c with todo := rest }
      match s1.gang with
      | none => .quiet s1
      | some g => planFetched (s1.fetchAt c (s1.gangCode g) g.pc)

/-- The plan for a Scribe core's turn (R294, R299): its next word, or the trap or stall of its fetch. -/
def State.planScribe (s : State) (sc : Nat) (rest : List Agent) : Plan :=
  let s := { s with todo := rest }
  let c := s.scribeCore sc
  if c.task.isNone || c.stall.isSome then .quiet s
  else
    match s.scribeWord sc with
    | .error (e, va) =>
      if e = Cause.codeBounds then .run (.scribeIllegalOpcode (.ofNat 8 e)) { s with scribe := some sc }
      else if e = Cause.nonresident then .quiet (s.scribeStall sc va)
      else if e = heldCause then .quiet s
      else .quiet (s.scribeTrap sc e (.ofNat 64 va))
    | .ok (w, s) =>
      match decodeScribe w with
      | .ok i _ => .run i { s with scribe := some sc }
      | .trap e => .run (.scribeIllegalOpcode (.ofNat 8 e)) { s with scribe := some sc }

/-- The plan of the next step.
DESIGN CHOICE (assumption 2). -/
def State.plan (s : State) : Plan :=
  match s.dueNow with
  | some (e, rest) => .event e { s with agenda := rest }
  | none =>
    match s.todo with
    | .core c :: rest => s.planCore c rest
    | .scribe sc :: rest => s.planScribe sc rest
    | [] =>
      match s.windowsOver with
      | q :: _ => .event (.convergenceTimeout q) s
      | [] => .quiet s.endRound

end Sys2Proof.Machine
end

