-- ==== Sys2Proof/Machine/Place.lean ====
section
/-! DEFINITION. One instruction placed where the module runs it next: a resident squad of a privileged
launch on core 0 that stands at it, or Scribe core 0 with a task that stands at it. -/

namespace Sys2Proof.Machine

/-- The number of threads placed: the narrowest squad (R28). -/
def placedWidth : Nat := 8

/-- Where the placed page tables and the placed code stand: physical and virtual addresses are equal. -/
def placedRoot : Nat := 0x10000
def placedTable : Nat := 0x20000
def placedCode : Nat := 0x10000000

/-- The launch that holds the placed instruction: 128 registers, every right, a call stack. -/
def placedLaunch : Launch :=
  { Launch.blank with
    codeBase := .ofNat 64 placedCode, codeLen := 0x10000, regs := 128, width := placedWidth,
    lease := 8, depth := 8, part := 0x040404, sqn := 1, teams := 1, asn := 0, tableRoot := placedRoot,
    system := true, sysSpace := true, nextTeam := 1 }

/-- A thread that stands at the placed instruction, its registers zero. -/
def placedThread (clock : Nat) : Thread :=
  { Thread.blank with
    pc := .ofNat 64 placedCode, regs := (List.range 128).map fun r => (r, 0#32), status := .ready,
    since := clock }

/-- The state with memory that maps the placed page and holds the placed instruction's bytes (R341). -/
def State.placeCode (s : State) (bytes : List Byte) : State :=
  let m := s.mem.writeNat placedRoot 8 (placedTable + 3)
  let m := m.writeNat (placedTable + 8) 8 (placedCode + 0xFF)
  { s with mem := m.write placedCode bytes }

/-- A SIMT instruction placed on core 0.
DESIGN CHOICE (assumption 17). -/
def State.placeSimt (s : State) (bytes : List Byte) : State :=
  let s := (s.placeCode bytes).activate 0
  { s with
    threads := (List.range placedWidth).map fun l => (⟨1, 0, l⟩, placedThread s.clock)
    squads := [(⟨1, 0⟩, { Squad.blank with lead := some 0, code := .ofNat 64 placedCode })]
    teams := [(1, { Team.blank with lid := 1, part := 0x040404 })]
    launches := [(1, placedLaunch)]
    cores := [(0, { Core.reset with order := [⟨1, 0⟩], slots := [(0, 1)] })]
    serial := 2
    agenda := []
    todo := [.core 0]
    gang := none }

/-- The record of the task that holds a placed Scribe word. -/
def placedRecord : Nat := 0x10008000

/-- A Scribe word placed behind an image header (R295), as the first word of a running task of Scribe core
0.
DESIGN CHOICE (assumption 17). -/
def State.placeScribe (s : State) (bytes : List Byte) : State :=
  let s := s.placeCode (bytesOfNat 64 (scribeTag * 2 ^ 32 + 0x100) ++ bytes)
  { s with
    mem := s.mem.writeNat placedRecord 8 (3 * 2 ^ 32)
    launches := [(1, placedLaunch)]
    tasks := [(placedRecord, placedRecord, 1)]
    scribes := [(0, { ScribeCore.reset with task := some (placedRecord, 1), image := placedCode })]
    agenda := []
    todo := [.scribe 0]
    scribe := none }

/-- An instruction in the opcode table's numbering, placed for the very next step.
DESIGN CHOICE (assumption 17). -/
def State.placeWord (s : State) (nbits w : Nat) : State :=
  if tableSimt nbits w then s.placeSimt (bytesOfNat 20 w) else s.placeScribe (bytesOfNat 4 w)

end Sys2Proof.Machine
end

