-- ==== Sys2Proof/Machine/Step.lean ====
section
/-! DEFINITION. One step of the module, and a state with an instruction placed for the next step. -/

namespace Sys2Proof.Machine

/-- The state of a plan. -/
def Plan.state : Plan → State
  | .event _ s | .run _ s | .trap _ _ s | .quiet s => s

/-- A turn in whose preparation an engine must stall at an event point: nothing of it is done, and the turn is over
(R417).
DEDUCED (assumption 44). -/
def State.turnHeld (s : State) (ps : List (Nat × Nat × Nat)) : State :=
  { s.stallEmitters ps with todo := s.todo.tail, gang := none, scribe := none }

/-- One step: the next due entry of the agenda, or the next agent's turn, which runs the instruction at
hand, takes the trap of its fetch, or does nothing but pass on. A step whose engine must stall at an event point
is held (R417).
DESIGN CHOICE (assumption 2). -/
def step (s : State) : Host.Outcome State Fault Refusal :=
  if !s.plan.state.stops.isEmpty then .next (s.turnHeld s.plan.state.stops)
  else
  match s.plan with
  | .event e s' => s'.atPoints (some e) (runEv e s')
  | .run i s' => s'.atPoints none (exec i s')
  | .trap c a s' => fetchTrap c a s'
  | .quiet s' => .next s'

/-- A state with an instruction placed where the very next step fetches it.
DESIGN CHOICE (assumption 17). -/
def State.withFetchWord (s : State) (nbits w : Nat) : State :=
  s.placeWord nbits w

end Sys2Proof.Machine
end

