-- ==== Sys2Proof/Laws/State.lean ====
section
/-! SUPPORT. What each named update of the state leaves as it was: one lemma per field per update. -/

namespace Sys2Proof.Machine

variable (s : State)

/-! setThread -/

@[simp] theorem State.setThread_squads (t : Tid) (v : Thread) : (s.setThread t v).squads = s.squads := rfl
@[simp] theorem State.setThread_teams (t : Tid) (v : Thread) : (s.setThread t v).teams = s.teams := rfl
@[simp] theorem State.setThread_launches (t : Tid) (v : Thread) : (s.setThread t v).launches = s.launches := rfl
@[simp] theorem State.setThread_cores (t : Tid) (v : Thread) : (s.setThread t v).cores = s.cores := rfl
@[simp] theorem State.setThread_sites (t : Tid) (v : Thread) : (s.setThread t v).sites = s.sites := rfl
@[simp] theorem State.setThread_scribes (t : Tid) (v : Thread) : (s.setThread t v).scribes = s.scribes := rfl
@[simp] theorem State.setThread_queues (t : Tid) (v : Thread) : (s.setThread t v).queues = s.queues := rfl
@[simp] theorem State.setThread_commands (t : Tid) (v : Thread) : (s.setThread t v).commands = s.commands := rfl
@[simp] theorem State.setThread_packets (t : Tid) (v : Thread) : (s.setThread t v).packets = s.packets := rfl
@[simp] theorem State.setThread_outbox (t : Tid) (v : Thread) : (s.setThread t v).outbox = s.outbox := rfl
@[simp] theorem State.setThread_pageReqs (t : Tid) (v : Thread) : (s.setThread t v).pageReqs = s.pageReqs := rfl
@[simp] theorem State.setThread_tasks (t : Tid) (v : Thread) : (s.setThread t v).tasks = s.tasks := rfl
@[simp] theorem State.setThread_seals (t : Tid) (v : Thread) : (s.setThread t v).seals = s.seals := rfl
@[simp] theorem State.setThread_sealHome (t : Tid) (v : Thread) : (s.setThread t v).sealHome = s.sealHome := rfl
@[simp] theorem State.setThread_sent (t : Tid) (v : Thread) : (s.setThread t v).sent = s.sent := rfl
@[simp] theorem State.setThread_arrivals (t : Tid) (v : Thread) : (s.setThread t v).arrivals = s.arrivals := rfl
@[simp] theorem State.setThread_commits (t : Tid) (v : Thread) : (s.setThread t v).commits = s.commits := rfl
@[simp] theorem State.setThread_netroot (t : Tid) (v : Thread) : (s.setThread t v).netroot = s.netroot := rfl
@[simp] theorem State.setThread_invalidations (t : Tid) (v : Thread) : (s.setThread t v).invalidations = s.invalidations := rfl
@[simp] theorem State.setThread_contexts (t : Tid) (v : Thread) : (s.setThread t v).contexts = s.contexts := rfl
@[simp] theorem State.setThread_heldSignals (t : Tid) (v : Thread) : (s.setThread t v).heldSignals = s.heldSignals := rfl
@[simp] theorem State.setThread_lups (t : Tid) (v : Thread) : (s.setThread t v).lups = s.lups := rfl
@[simp] theorem State.setThread_flash (t : Tid) (v : Thread) : (s.setThread t v).flash = s.flash := rfl
@[simp] theorem State.setThread_bootStage (t : Tid) (v : Thread) : (s.setThread t v).bootStage = s.bootStage := rfl
@[simp] theorem State.setThread_dbgstate (t : Tid) (v : Thread) : (s.setThread t v).dbgstate = s.dbgstate := rfl
@[simp] theorem State.setThread_hostLink (t : Tid) (v : Thread) : (s.setThread t v).hostLink = s.hostLink := rfl
@[simp] theorem State.setThread_hostOut (t : Tid) (v : Thread) : (s.setThread t v).hostOut = s.hostOut := rfl
@[simp] theorem State.setThread_debugOut (t : Tid) (v : Thread) : (s.setThread t v).debugOut = s.debugOut := rfl
@[simp] theorem State.setThread_dmapgen (t : Tid) (v : Thread) : (s.setThread t v).dmapgen = s.dmapgen := rfl
@[simp] theorem State.setThread_wtstatus (t : Tid) (v : Thread) : (s.setThread t v).wtstatus = s.wtstatus := rfl
@[simp] theorem State.setThread_mem (t : Tid) (v : Thread) : (s.setThread t v).mem = s.mem := rfl
@[simp] theorem State.setThread_unseen (t : Tid) (v : Thread) : (s.setThread t v).unseen = s.unseen := rfl
@[simp] theorem State.setThread_writes (t : Tid) (v : Thread) : (s.setThread t v).writes = s.writes := rfl
@[simp] theorem State.setThread_fences (t : Tid) (v : Thread) : (s.setThread t v).fences = s.fences := rfl
@[simp] theorem State.setThread_badDram (t : Tid) (v : Thread) : (s.setThread t v).badDram = s.badDram := rfl
@[simp] theorem State.setThread_moduleId (t : Tid) (v : Thread) : (s.setThread t v).moduleId = s.moduleId := rfl
@[simp] theorem State.setThread_nextLid (t : Tid) (v : Thread) : (s.setThread t v).nextLid = s.nextLid := rfl
@[simp] theorem State.setThread_stampSeq (t : Tid) (v : Thread) : (s.setThread t v).stampSeq = s.stampSeq := rfl
@[simp] theorem State.setThread_pastStamps (t : Tid) (v : Thread) : (s.setThread t v).pastStamps = s.pastStamps := rfl
@[simp] theorem State.setThread_clock (t : Tid) (v : Thread) : (s.setThread t v).clock = s.clock := rfl
@[simp] theorem State.setThread_tick (t : Tid) (v : Thread) : (s.setThread t v).tick = s.tick := rfl
@[simp] theorem State.setThread_timeBase (t : Tid) (v : Thread) : (s.setThread t v).timeBase = s.timeBase := rfl
@[simp] theorem State.setThread_slew (t : Tid) (v : Thread) : (s.setThread t v).slew = s.slew := rfl
@[simp] theorem State.setThread_agenda (t : Tid) (v : Thread) : (s.setThread t v).agenda = s.agenda := rfl
@[simp] theorem State.setThread_todo (t : Tid) (v : Thread) : (s.setThread t v).todo = s.todo := rfl
@[simp] theorem State.setThread_gang (t : Tid) (v : Thread) : (s.setThread t v).gang = s.gang := rfl
@[simp] theorem State.setThread_scribe (t : Tid) (v : Thread) : (s.setThread t v).scribe = s.scribe := rfl
@[simp] theorem State.setThread_stops (t : Tid) (v : Thread) : (s.setThread t v).stops = s.stops := rfl
@[simp] theorem State.setThread_serial (t : Tid) (v : Thread) : (s.setThread t v).serial = s.serial := rfl
@[simp] theorem State.setThread_free (t : Tid) (v : Thread) : (s.setThread t v).free = s.free := rfl

/-! setSquad -/

@[simp] theorem State.setSquad_threads (q : Sid) (v : Squad) : (s.setSquad q v).threads = s.threads := rfl
@[simp] theorem State.setSquad_teams (q : Sid) (v : Squad) : (s.setSquad q v).teams = s.teams := rfl
@[simp] theorem State.setSquad_launches (q : Sid) (v : Squad) : (s.setSquad q v).launches = s.launches := rfl
@[simp] theorem State.setSquad_cores (q : Sid) (v : Squad) : (s.setSquad q v).cores = s.cores := rfl
@[simp] theorem State.setSquad_sites (q : Sid) (v : Squad) : (s.setSquad q v).sites = s.sites := rfl
@[simp] theorem State.setSquad_scribes (q : Sid) (v : Squad) : (s.setSquad q v).scribes = s.scribes := rfl
@[simp] theorem State.setSquad_queues (q : Sid) (v : Squad) : (s.setSquad q v).queues = s.queues := rfl
@[simp] theorem State.setSquad_commands (q : Sid) (v : Squad) : (s.setSquad q v).commands = s.commands := rfl
@[simp] theorem State.setSquad_packets (q : Sid) (v : Squad) : (s.setSquad q v).packets = s.packets := rfl
@[simp] theorem State.setSquad_outbox (q : Sid) (v : Squad) : (s.setSquad q v).outbox = s.outbox := rfl
@[simp] theorem State.setSquad_pageReqs (q : Sid) (v : Squad) : (s.setSquad q v).pageReqs = s.pageReqs := rfl
@[simp] theorem State.setSquad_tasks (q : Sid) (v : Squad) : (s.setSquad q v).tasks = s.tasks := rfl
@[simp] theorem State.setSquad_seals (q : Sid) (v : Squad) : (s.setSquad q v).seals = s.seals := rfl
@[simp] theorem State.setSquad_sealHome (q : Sid) (v : Squad) : (s.setSquad q v).sealHome = s.sealHome := rfl
@[simp] theorem State.setSquad_sent (q : Sid) (v : Squad) : (s.setSquad q v).sent = s.sent := rfl
@[simp] theorem State.setSquad_arrivals (q : Sid) (v : Squad) : (s.setSquad q v).arrivals = s.arrivals := rfl
@[simp] theorem State.setSquad_commits (q : Sid) (v : Squad) : (s.setSquad q v).commits = s.commits := rfl
@[simp] theorem State.setSquad_netroot (q : Sid) (v : Squad) : (s.setSquad q v).netroot = s.netroot := rfl
@[simp] theorem State.setSquad_invalidations (q : Sid) (v : Squad) : (s.setSquad q v).invalidations = s.invalidations := rfl
@[simp] theorem State.setSquad_contexts (q : Sid) (v : Squad) : (s.setSquad q v).contexts = s.contexts := rfl
@[simp] theorem State.setSquad_heldSignals (q : Sid) (v : Squad) : (s.setSquad q v).heldSignals = s.heldSignals := rfl
@[simp] theorem State.setSquad_lups (q : Sid) (v : Squad) : (s.setSquad q v).lups = s.lups := rfl
@[simp] theorem State.setSquad_flash (q : Sid) (v : Squad) : (s.setSquad q v).flash = s.flash := rfl
@[simp] theorem State.setSquad_bootStage (q : Sid) (v : Squad) : (s.setSquad q v).bootStage = s.bootStage := rfl
@[simp] theorem State.setSquad_dbgstate (q : Sid) (v : Squad) : (s.setSquad q v).dbgstate = s.dbgstate := rfl
@[simp] theorem State.setSquad_hostLink (q : Sid) (v : Squad) : (s.setSquad q v).hostLink = s.hostLink := rfl
@[simp] theorem State.setSquad_hostOut (q : Sid) (v : Squad) : (s.setSquad q v).hostOut = s.hostOut := rfl
@[simp] theorem State.setSquad_debugOut (q : Sid) (v : Squad) : (s.setSquad q v).debugOut = s.debugOut := rfl
@[simp] theorem State.setSquad_dmapgen (q : Sid) (v : Squad) : (s.setSquad q v).dmapgen = s.dmapgen := rfl
@[simp] theorem State.setSquad_wtstatus (q : Sid) (v : Squad) : (s.setSquad q v).wtstatus = s.wtstatus := rfl
@[simp] theorem State.setSquad_mem (q : Sid) (v : Squad) : (s.setSquad q v).mem = s.mem := rfl
@[simp] theorem State.setSquad_unseen (q : Sid) (v : Squad) : (s.setSquad q v).unseen = s.unseen := rfl
@[simp] theorem State.setSquad_writes (q : Sid) (v : Squad) : (s.setSquad q v).writes = s.writes := rfl
@[simp] theorem State.setSquad_fences (q : Sid) (v : Squad) : (s.setSquad q v).fences = s.fences := rfl
@[simp] theorem State.setSquad_badDram (q : Sid) (v : Squad) : (s.setSquad q v).badDram = s.badDram := rfl
@[simp] theorem State.setSquad_moduleId (q : Sid) (v : Squad) : (s.setSquad q v).moduleId = s.moduleId := rfl
@[simp] theorem State.setSquad_nextLid (q : Sid) (v : Squad) : (s.setSquad q v).nextLid = s.nextLid := rfl
@[simp] theorem State.setSquad_stampSeq (q : Sid) (v : Squad) : (s.setSquad q v).stampSeq = s.stampSeq := rfl
@[simp] theorem State.setSquad_pastStamps (q : Sid) (v : Squad) : (s.setSquad q v).pastStamps = s.pastStamps := rfl
@[simp] theorem State.setSquad_clock (q : Sid) (v : Squad) : (s.setSquad q v).clock = s.clock := rfl
@[simp] theorem State.setSquad_tick (q : Sid) (v : Squad) : (s.setSquad q v).tick = s.tick := rfl
@[simp] theorem State.setSquad_timeBase (q : Sid) (v : Squad) : (s.setSquad q v).timeBase = s.timeBase := rfl
@[simp] theorem State.setSquad_slew (q : Sid) (v : Squad) : (s.setSquad q v).slew = s.slew := rfl
@[simp] theorem State.setSquad_agenda (q : Sid) (v : Squad) : (s.setSquad q v).agenda = s.agenda := rfl
@[simp] theorem State.setSquad_todo (q : Sid) (v : Squad) : (s.setSquad q v).todo = s.todo := rfl
@[simp] theorem State.setSquad_gang (q : Sid) (v : Squad) : (s.setSquad q v).gang = s.gang := rfl
@[simp] theorem State.setSquad_scribe (q : Sid) (v : Squad) : (s.setSquad q v).scribe = s.scribe := rfl
@[simp] theorem State.setSquad_stops (q : Sid) (v : Squad) : (s.setSquad q v).stops = s.stops := rfl
@[simp] theorem State.setSquad_serial (q : Sid) (v : Squad) : (s.setSquad q v).serial = s.serial := rfl
@[simp] theorem State.setSquad_free (q : Sid) (v : Squad) : (s.setSquad q v).free = s.free := rfl

/-! setTeam -/

@[simp] theorem State.setTeam_threads (n : Nat) (v : Team) : (s.setTeam n v).threads = s.threads := rfl
@[simp] theorem State.setTeam_squads (n : Nat) (v : Team) : (s.setTeam n v).squads = s.squads := rfl
@[simp] theorem State.setTeam_launches (n : Nat) (v : Team) : (s.setTeam n v).launches = s.launches := rfl
@[simp] theorem State.setTeam_cores (n : Nat) (v : Team) : (s.setTeam n v).cores = s.cores := rfl
@[simp] theorem State.setTeam_sites (n : Nat) (v : Team) : (s.setTeam n v).sites = s.sites := rfl
@[simp] theorem State.setTeam_scribes (n : Nat) (v : Team) : (s.setTeam n v).scribes = s.scribes := rfl
@[simp] theorem State.setTeam_queues (n : Nat) (v : Team) : (s.setTeam n v).queues = s.queues := rfl
@[simp] theorem State.setTeam_commands (n : Nat) (v : Team) : (s.setTeam n v).commands = s.commands := rfl
@[simp] theorem State.setTeam_packets (n : Nat) (v : Team) : (s.setTeam n v).packets = s.packets := rfl
@[simp] theorem State.setTeam_outbox (n : Nat) (v : Team) : (s.setTeam n v).outbox = s.outbox := rfl
@[simp] theorem State.setTeam_pageReqs (n : Nat) (v : Team) : (s.setTeam n v).pageReqs = s.pageReqs := rfl
@[simp] theorem State.setTeam_tasks (n : Nat) (v : Team) : (s.setTeam n v).tasks = s.tasks := rfl
@[simp] theorem State.setTeam_seals (n : Nat) (v : Team) : (s.setTeam n v).seals = s.seals := rfl
@[simp] theorem State.setTeam_sealHome (n : Nat) (v : Team) : (s.setTeam n v).sealHome = s.sealHome := rfl
@[simp] theorem State.setTeam_sent (n : Nat) (v : Team) : (s.setTeam n v).sent = s.sent := rfl
@[simp] theorem State.setTeam_arrivals (n : Nat) (v : Team) : (s.setTeam n v).arrivals = s.arrivals := rfl
@[simp] theorem State.setTeam_commits (n : Nat) (v : Team) : (s.setTeam n v).commits = s.commits := rfl
@[simp] theorem State.setTeam_netroot (n : Nat) (v : Team) : (s.setTeam n v).netroot = s.netroot := rfl
@[simp] theorem State.setTeam_invalidations (n : Nat) (v : Team) : (s.setTeam n v).invalidations = s.invalidations := rfl
@[simp] theorem State.setTeam_contexts (n : Nat) (v : Team) : (s.setTeam n v).contexts = s.contexts := rfl
@[simp] theorem State.setTeam_heldSignals (n : Nat) (v : Team) : (s.setTeam n v).heldSignals = s.heldSignals := rfl
@[simp] theorem State.setTeam_lups (n : Nat) (v : Team) : (s.setTeam n v).lups = s.lups := rfl
@[simp] theorem State.setTeam_flash (n : Nat) (v : Team) : (s.setTeam n v).flash = s.flash := rfl
@[simp] theorem State.setTeam_bootStage (n : Nat) (v : Team) : (s.setTeam n v).bootStage = s.bootStage := rfl
@[simp] theorem State.setTeam_dbgstate (n : Nat) (v : Team) : (s.setTeam n v).dbgstate = s.dbgstate := rfl
@[simp] theorem State.setTeam_hostLink (n : Nat) (v : Team) : (s.setTeam n v).hostLink = s.hostLink := rfl
@[simp] theorem State.setTeam_hostOut (n : Nat) (v : Team) : (s.setTeam n v).hostOut = s.hostOut := rfl
@[simp] theorem State.setTeam_debugOut (n : Nat) (v : Team) : (s.setTeam n v).debugOut = s.debugOut := rfl
@[simp] theorem State.setTeam_dmapgen (n : Nat) (v : Team) : (s.setTeam n v).dmapgen = s.dmapgen := rfl
@[simp] theorem State.setTeam_wtstatus (n : Nat) (v : Team) : (s.setTeam n v).wtstatus = s.wtstatus := rfl
@[simp] theorem State.setTeam_mem (n : Nat) (v : Team) : (s.setTeam n v).mem = s.mem := rfl
@[simp] theorem State.setTeam_unseen (n : Nat) (v : Team) : (s.setTeam n v).unseen = s.unseen := rfl
@[simp] theorem State.setTeam_writes (n : Nat) (v : Team) : (s.setTeam n v).writes = s.writes := rfl
@[simp] theorem State.setTeam_fences (n : Nat) (v : Team) : (s.setTeam n v).fences = s.fences := rfl
@[simp] theorem State.setTeam_badDram (n : Nat) (v : Team) : (s.setTeam n v).badDram = s.badDram := rfl
@[simp] theorem State.setTeam_moduleId (n : Nat) (v : Team) : (s.setTeam n v).moduleId = s.moduleId := rfl
@[simp] theorem State.setTeam_nextLid (n : Nat) (v : Team) : (s.setTeam n v).nextLid = s.nextLid := rfl
@[simp] theorem State.setTeam_stampSeq (n : Nat) (v : Team) : (s.setTeam n v).stampSeq = s.stampSeq := rfl
@[simp] theorem State.setTeam_pastStamps (n : Nat) (v : Team) : (s.setTeam n v).pastStamps = s.pastStamps := rfl
@[simp] theorem State.setTeam_clock (n : Nat) (v : Team) : (s.setTeam n v).clock = s.clock := rfl
@[simp] theorem State.setTeam_tick (n : Nat) (v : Team) : (s.setTeam n v).tick = s.tick := rfl
@[simp] theorem State.setTeam_timeBase (n : Nat) (v : Team) : (s.setTeam n v).timeBase = s.timeBase := rfl
@[simp] theorem State.setTeam_slew (n : Nat) (v : Team) : (s.setTeam n v).slew = s.slew := rfl
@[simp] theorem State.setTeam_agenda (n : Nat) (v : Team) : (s.setTeam n v).agenda = s.agenda := rfl
@[simp] theorem State.setTeam_todo (n : Nat) (v : Team) : (s.setTeam n v).todo = s.todo := rfl
@[simp] theorem State.setTeam_gang (n : Nat) (v : Team) : (s.setTeam n v).gang = s.gang := rfl
@[simp] theorem State.setTeam_scribe (n : Nat) (v : Team) : (s.setTeam n v).scribe = s.scribe := rfl
@[simp] theorem State.setTeam_stops (n : Nat) (v : Team) : (s.setTeam n v).stops = s.stops := rfl
@[simp] theorem State.setTeam_serial (n : Nat) (v : Team) : (s.setTeam n v).serial = s.serial := rfl
@[simp] theorem State.setTeam_free (n : Nat) (v : Team) : (s.setTeam n v).free = s.free := rfl

/-! setLaunch -/

@[simp] theorem State.setLaunch_threads (l : Nat) (v : Launch) : (s.setLaunch l v).threads = s.threads := rfl
@[simp] theorem State.setLaunch_squads (l : Nat) (v : Launch) : (s.setLaunch l v).squads = s.squads := rfl
@[simp] theorem State.setLaunch_teams (l : Nat) (v : Launch) : (s.setLaunch l v).teams = s.teams := rfl
@[simp] theorem State.setLaunch_cores (l : Nat) (v : Launch) : (s.setLaunch l v).cores = s.cores := rfl
@[simp] theorem State.setLaunch_sites (l : Nat) (v : Launch) : (s.setLaunch l v).sites = s.sites := rfl
@[simp] theorem State.setLaunch_scribes (l : Nat) (v : Launch) : (s.setLaunch l v).scribes = s.scribes := rfl
@[simp] theorem State.setLaunch_queues (l : Nat) (v : Launch) : (s.setLaunch l v).queues = s.queues := rfl
@[simp] theorem State.setLaunch_commands (l : Nat) (v : Launch) : (s.setLaunch l v).commands = s.commands := rfl
@[simp] theorem State.setLaunch_packets (l : Nat) (v : Launch) : (s.setLaunch l v).packets = s.packets := rfl
@[simp] theorem State.setLaunch_outbox (l : Nat) (v : Launch) : (s.setLaunch l v).outbox = s.outbox := rfl
@[simp] theorem State.setLaunch_pageReqs (l : Nat) (v : Launch) : (s.setLaunch l v).pageReqs = s.pageReqs := rfl
@[simp] theorem State.setLaunch_tasks (l : Nat) (v : Launch) : (s.setLaunch l v).tasks = s.tasks := rfl
@[simp] theorem State.setLaunch_seals (l : Nat) (v : Launch) : (s.setLaunch l v).seals = s.seals := rfl
@[simp] theorem State.setLaunch_sealHome (l : Nat) (v : Launch) : (s.setLaunch l v).sealHome = s.sealHome := rfl
@[simp] theorem State.setLaunch_sent (l : Nat) (v : Launch) : (s.setLaunch l v).sent = s.sent := rfl
@[simp] theorem State.setLaunch_arrivals (l : Nat) (v : Launch) : (s.setLaunch l v).arrivals = s.arrivals := rfl
@[simp] theorem State.setLaunch_commits (l : Nat) (v : Launch) : (s.setLaunch l v).commits = s.commits := rfl
@[simp] theorem State.setLaunch_netroot (l : Nat) (v : Launch) : (s.setLaunch l v).netroot = s.netroot := rfl
@[simp] theorem State.setLaunch_invalidations (l : Nat) (v : Launch) : (s.setLaunch l v).invalidations = s.invalidations := rfl
@[simp] theorem State.setLaunch_contexts (l : Nat) (v : Launch) : (s.setLaunch l v).contexts = s.contexts := rfl
@[simp] theorem State.setLaunch_heldSignals (l : Nat) (v : Launch) : (s.setLaunch l v).heldSignals = s.heldSignals := rfl
@[simp] theorem State.setLaunch_lups (l : Nat) (v : Launch) : (s.setLaunch l v).lups = s.lups := rfl
@[simp] theorem State.setLaunch_flash (l : Nat) (v : Launch) : (s.setLaunch l v).flash = s.flash := rfl
@[simp] theorem State.setLaunch_bootStage (l : Nat) (v : Launch) : (s.setLaunch l v).bootStage = s.bootStage := rfl
@[simp] theorem State.setLaunch_dbgstate (l : Nat) (v : Launch) : (s.setLaunch l v).dbgstate = s.dbgstate := rfl
@[simp] theorem State.setLaunch_hostLink (l : Nat) (v : Launch) : (s.setLaunch l v).hostLink = s.hostLink := rfl
@[simp] theorem State.setLaunch_hostOut (l : Nat) (v : Launch) : (s.setLaunch l v).hostOut = s.hostOut := rfl
@[simp] theorem State.setLaunch_debugOut (l : Nat) (v : Launch) : (s.setLaunch l v).debugOut = s.debugOut := rfl
@[simp] theorem State.setLaunch_dmapgen (l : Nat) (v : Launch) : (s.setLaunch l v).dmapgen = s.dmapgen := rfl
@[simp] theorem State.setLaunch_wtstatus (l : Nat) (v : Launch) : (s.setLaunch l v).wtstatus = s.wtstatus := rfl
@[simp] theorem State.setLaunch_mem (l : Nat) (v : Launch) : (s.setLaunch l v).mem = s.mem := rfl
@[simp] theorem State.setLaunch_unseen (l : Nat) (v : Launch) : (s.setLaunch l v).unseen = s.unseen := rfl
@[simp] theorem State.setLaunch_writes (l : Nat) (v : Launch) : (s.setLaunch l v).writes = s.writes := rfl
@[simp] theorem State.setLaunch_fences (l : Nat) (v : Launch) : (s.setLaunch l v).fences = s.fences := rfl
@[simp] theorem State.setLaunch_badDram (l : Nat) (v : Launch) : (s.setLaunch l v).badDram = s.badDram := rfl
@[simp] theorem State.setLaunch_moduleId (l : Nat) (v : Launch) : (s.setLaunch l v).moduleId = s.moduleId := rfl
@[simp] theorem State.setLaunch_nextLid (l : Nat) (v : Launch) : (s.setLaunch l v).nextLid = s.nextLid := rfl
@[simp] theorem State.setLaunch_stampSeq (l : Nat) (v : Launch) : (s.setLaunch l v).stampSeq = s.stampSeq := rfl
@[simp] theorem State.setLaunch_pastStamps (l : Nat) (v : Launch) : (s.setLaunch l v).pastStamps = s.pastStamps := rfl
@[simp] theorem State.setLaunch_clock (l : Nat) (v : Launch) : (s.setLaunch l v).clock = s.clock := rfl
@[simp] theorem State.setLaunch_tick (l : Nat) (v : Launch) : (s.setLaunch l v).tick = s.tick := rfl
@[simp] theorem State.setLaunch_timeBase (l : Nat) (v : Launch) : (s.setLaunch l v).timeBase = s.timeBase := rfl
@[simp] theorem State.setLaunch_slew (l : Nat) (v : Launch) : (s.setLaunch l v).slew = s.slew := rfl
@[simp] theorem State.setLaunch_agenda (l : Nat) (v : Launch) : (s.setLaunch l v).agenda = s.agenda := rfl
@[simp] theorem State.setLaunch_todo (l : Nat) (v : Launch) : (s.setLaunch l v).todo = s.todo := rfl
@[simp] theorem State.setLaunch_gang (l : Nat) (v : Launch) : (s.setLaunch l v).gang = s.gang := rfl
@[simp] theorem State.setLaunch_scribe (l : Nat) (v : Launch) : (s.setLaunch l v).scribe = s.scribe := rfl
@[simp] theorem State.setLaunch_stops (l : Nat) (v : Launch) : (s.setLaunch l v).stops = s.stops := rfl
@[simp] theorem State.setLaunch_serial (l : Nat) (v : Launch) : (s.setLaunch l v).serial = s.serial := rfl
@[simp] theorem State.setLaunch_free (l : Nat) (v : Launch) : (s.setLaunch l v).free = s.free := rfl

/-! setCore -/

@[simp] theorem State.setCore_threads (c : Nat) (v : Core) : (s.setCore c v).threads = s.threads := rfl
@[simp] theorem State.setCore_squads (c : Nat) (v : Core) : (s.setCore c v).squads = s.squads := rfl
@[simp] theorem State.setCore_teams (c : Nat) (v : Core) : (s.setCore c v).teams = s.teams := rfl
@[simp] theorem State.setCore_launches (c : Nat) (v : Core) : (s.setCore c v).launches = s.launches := rfl
@[simp] theorem State.setCore_sites (c : Nat) (v : Core) : (s.setCore c v).sites = s.sites := rfl
@[simp] theorem State.setCore_scribes (c : Nat) (v : Core) : (s.setCore c v).scribes = s.scribes := rfl
@[simp] theorem State.setCore_queues (c : Nat) (v : Core) : (s.setCore c v).queues = s.queues := rfl
@[simp] theorem State.setCore_commands (c : Nat) (v : Core) : (s.setCore c v).commands = s.commands := rfl
@[simp] theorem State.setCore_packets (c : Nat) (v : Core) : (s.setCore c v).packets = s.packets := rfl
@[simp] theorem State.setCore_outbox (c : Nat) (v : Core) : (s.setCore c v).outbox = s.outbox := rfl
@[simp] theorem State.setCore_pageReqs (c : Nat) (v : Core) : (s.setCore c v).pageReqs = s.pageReqs := rfl
@[simp] theorem State.setCore_tasks (c : Nat) (v : Core) : (s.setCore c v).tasks = s.tasks := rfl
@[simp] theorem State.setCore_seals (c : Nat) (v : Core) : (s.setCore c v).seals = s.seals := rfl
@[simp] theorem State.setCore_sealHome (c : Nat) (v : Core) : (s.setCore c v).sealHome = s.sealHome := rfl
@[simp] theorem State.setCore_sent (c : Nat) (v : Core) : (s.setCore c v).sent = s.sent := rfl
@[simp] theorem State.setCore_arrivals (c : Nat) (v : Core) : (s.setCore c v).arrivals = s.arrivals := rfl
@[simp] theorem State.setCore_commits (c : Nat) (v : Core) : (s.setCore c v).commits = s.commits := rfl
@[simp] theorem State.setCore_netroot (c : Nat) (v : Core) : (s.setCore c v).netroot = s.netroot := rfl
@[simp] theorem State.setCore_invalidations (c : Nat) (v : Core) : (s.setCore c v).invalidations = s.invalidations := rfl
@[simp] theorem State.setCore_contexts (c : Nat) (v : Core) : (s.setCore c v).contexts = s.contexts := rfl
@[simp] theorem State.setCore_heldSignals (c : Nat) (v : Core) : (s.setCore c v).heldSignals = s.heldSignals := rfl
@[simp] theorem State.setCore_lups (c : Nat) (v : Core) : (s.setCore c v).lups = s.lups := rfl
@[simp] theorem State.setCore_flash (c : Nat) (v : Core) : (s.setCore c v).flash = s.flash := rfl
@[simp] theorem State.setCore_bootStage (c : Nat) (v : Core) : (s.setCore c v).bootStage = s.bootStage := rfl
@[simp] theorem State.setCore_dbgstate (c : Nat) (v : Core) : (s.setCore c v).dbgstate = s.dbgstate := rfl
@[simp] theorem State.setCore_hostLink (c : Nat) (v : Core) : (s.setCore c v).hostLink = s.hostLink := rfl
@[simp] theorem State.setCore_hostOut (c : Nat) (v : Core) : (s.setCore c v).hostOut = s.hostOut := rfl
@[simp] theorem State.setCore_debugOut (c : Nat) (v : Core) : (s.setCore c v).debugOut = s.debugOut := rfl
@[simp] theorem State.setCore_dmapgen (c : Nat) (v : Core) : (s.setCore c v).dmapgen = s.dmapgen := rfl
@[simp] theorem State.setCore_wtstatus (c : Nat) (v : Core) : (s.setCore c v).wtstatus = s.wtstatus := rfl
@[simp] theorem State.setCore_mem (c : Nat) (v : Core) : (s.setCore c v).mem = s.mem := rfl
@[simp] theorem State.setCore_unseen (c : Nat) (v : Core) : (s.setCore c v).unseen = s.unseen := rfl
@[simp] theorem State.setCore_writes (c : Nat) (v : Core) : (s.setCore c v).writes = s.writes := rfl
@[simp] theorem State.setCore_fences (c : Nat) (v : Core) : (s.setCore c v).fences = s.fences := rfl
@[simp] theorem State.setCore_badDram (c : Nat) (v : Core) : (s.setCore c v).badDram = s.badDram := rfl
@[simp] theorem State.setCore_moduleId (c : Nat) (v : Core) : (s.setCore c v).moduleId = s.moduleId := rfl
@[simp] theorem State.setCore_nextLid (c : Nat) (v : Core) : (s.setCore c v).nextLid = s.nextLid := rfl
@[simp] theorem State.setCore_stampSeq (c : Nat) (v : Core) : (s.setCore c v).stampSeq = s.stampSeq := rfl
@[simp] theorem State.setCore_pastStamps (c : Nat) (v : Core) : (s.setCore c v).pastStamps = s.pastStamps := rfl
@[simp] theorem State.setCore_clock (c : Nat) (v : Core) : (s.setCore c v).clock = s.clock := rfl
@[simp] theorem State.setCore_tick (c : Nat) (v : Core) : (s.setCore c v).tick = s.tick := rfl
@[simp] theorem State.setCore_timeBase (c : Nat) (v : Core) : (s.setCore c v).timeBase = s.timeBase := rfl
@[simp] theorem State.setCore_slew (c : Nat) (v : Core) : (s.setCore c v).slew = s.slew := rfl
@[simp] theorem State.setCore_agenda (c : Nat) (v : Core) : (s.setCore c v).agenda = s.agenda := rfl
@[simp] theorem State.setCore_todo (c : Nat) (v : Core) : (s.setCore c v).todo = s.todo := rfl
@[simp] theorem State.setCore_gang (c : Nat) (v : Core) : (s.setCore c v).gang = s.gang := rfl
@[simp] theorem State.setCore_scribe (c : Nat) (v : Core) : (s.setCore c v).scribe = s.scribe := rfl
@[simp] theorem State.setCore_stops (c : Nat) (v : Core) : (s.setCore c v).stops = s.stops := rfl
@[simp] theorem State.setCore_serial (c : Nat) (v : Core) : (s.setCore c v).serial = s.serial := rfl
@[simp] theorem State.setCore_free (c : Nat) (v : Core) : (s.setCore c v).free = s.free := rfl

/-! setSite -/

@[simp] theorem State.setSite_threads (n : Nat) (v : Site) : (s.setSite n v).threads = s.threads := rfl
@[simp] theorem State.setSite_squads (n : Nat) (v : Site) : (s.setSite n v).squads = s.squads := rfl
@[simp] theorem State.setSite_teams (n : Nat) (v : Site) : (s.setSite n v).teams = s.teams := rfl
@[simp] theorem State.setSite_launches (n : Nat) (v : Site) : (s.setSite n v).launches = s.launches := rfl
@[simp] theorem State.setSite_cores (n : Nat) (v : Site) : (s.setSite n v).cores = s.cores := rfl
@[simp] theorem State.setSite_scribes (n : Nat) (v : Site) : (s.setSite n v).scribes = s.scribes := rfl
@[simp] theorem State.setSite_queues (n : Nat) (v : Site) : (s.setSite n v).queues = s.queues := rfl
@[simp] theorem State.setSite_commands (n : Nat) (v : Site) : (s.setSite n v).commands = s.commands := rfl
@[simp] theorem State.setSite_packets (n : Nat) (v : Site) : (s.setSite n v).packets = s.packets := rfl
@[simp] theorem State.setSite_outbox (n : Nat) (v : Site) : (s.setSite n v).outbox = s.outbox := rfl
@[simp] theorem State.setSite_pageReqs (n : Nat) (v : Site) : (s.setSite n v).pageReqs = s.pageReqs := rfl
@[simp] theorem State.setSite_tasks (n : Nat) (v : Site) : (s.setSite n v).tasks = s.tasks := rfl
@[simp] theorem State.setSite_seals (n : Nat) (v : Site) : (s.setSite n v).seals = s.seals := rfl
@[simp] theorem State.setSite_sealHome (n : Nat) (v : Site) : (s.setSite n v).sealHome = s.sealHome := rfl
@[simp] theorem State.setSite_sent (n : Nat) (v : Site) : (s.setSite n v).sent = s.sent := rfl
@[simp] theorem State.setSite_arrivals (n : Nat) (v : Site) : (s.setSite n v).arrivals = s.arrivals := rfl
@[simp] theorem State.setSite_commits (n : Nat) (v : Site) : (s.setSite n v).commits = s.commits := rfl
@[simp] theorem State.setSite_netroot (n : Nat) (v : Site) : (s.setSite n v).netroot = s.netroot := rfl
@[simp] theorem State.setSite_invalidations (n : Nat) (v : Site) : (s.setSite n v).invalidations = s.invalidations := rfl
@[simp] theorem State.setSite_contexts (n : Nat) (v : Site) : (s.setSite n v).contexts = s.contexts := rfl
@[simp] theorem State.setSite_heldSignals (n : Nat) (v : Site) : (s.setSite n v).heldSignals = s.heldSignals := rfl
@[simp] theorem State.setSite_lups (n : Nat) (v : Site) : (s.setSite n v).lups = s.lups := rfl
@[simp] theorem State.setSite_flash (n : Nat) (v : Site) : (s.setSite n v).flash = s.flash := rfl
@[simp] theorem State.setSite_bootStage (n : Nat) (v : Site) : (s.setSite n v).bootStage = s.bootStage := rfl
@[simp] theorem State.setSite_dbgstate (n : Nat) (v : Site) : (s.setSite n v).dbgstate = s.dbgstate := rfl
@[simp] theorem State.setSite_hostLink (n : Nat) (v : Site) : (s.setSite n v).hostLink = s.hostLink := rfl
@[simp] theorem State.setSite_hostOut (n : Nat) (v : Site) : (s.setSite n v).hostOut = s.hostOut := rfl
@[simp] theorem State.setSite_debugOut (n : Nat) (v : Site) : (s.setSite n v).debugOut = s.debugOut := rfl
@[simp] theorem State.setSite_dmapgen (n : Nat) (v : Site) : (s.setSite n v).dmapgen = s.dmapgen := rfl
@[simp] theorem State.setSite_wtstatus (n : Nat) (v : Site) : (s.setSite n v).wtstatus = s.wtstatus := rfl
@[simp] theorem State.setSite_mem (n : Nat) (v : Site) : (s.setSite n v).mem = s.mem := rfl
@[simp] theorem State.setSite_unseen (n : Nat) (v : Site) : (s.setSite n v).unseen = s.unseen := rfl
@[simp] theorem State.setSite_writes (n : Nat) (v : Site) : (s.setSite n v).writes = s.writes := rfl
@[simp] theorem State.setSite_fences (n : Nat) (v : Site) : (s.setSite n v).fences = s.fences := rfl
@[simp] theorem State.setSite_badDram (n : Nat) (v : Site) : (s.setSite n v).badDram = s.badDram := rfl
@[simp] theorem State.setSite_moduleId (n : Nat) (v : Site) : (s.setSite n v).moduleId = s.moduleId := rfl
@[simp] theorem State.setSite_nextLid (n : Nat) (v : Site) : (s.setSite n v).nextLid = s.nextLid := rfl
@[simp] theorem State.setSite_stampSeq (n : Nat) (v : Site) : (s.setSite n v).stampSeq = s.stampSeq := rfl
@[simp] theorem State.setSite_pastStamps (n : Nat) (v : Site) : (s.setSite n v).pastStamps = s.pastStamps := rfl
@[simp] theorem State.setSite_clock (n : Nat) (v : Site) : (s.setSite n v).clock = s.clock := rfl
@[simp] theorem State.setSite_tick (n : Nat) (v : Site) : (s.setSite n v).tick = s.tick := rfl
@[simp] theorem State.setSite_timeBase (n : Nat) (v : Site) : (s.setSite n v).timeBase = s.timeBase := rfl
@[simp] theorem State.setSite_slew (n : Nat) (v : Site) : (s.setSite n v).slew = s.slew := rfl
@[simp] theorem State.setSite_agenda (n : Nat) (v : Site) : (s.setSite n v).agenda = s.agenda := rfl
@[simp] theorem State.setSite_todo (n : Nat) (v : Site) : (s.setSite n v).todo = s.todo := rfl
@[simp] theorem State.setSite_gang (n : Nat) (v : Site) : (s.setSite n v).gang = s.gang := rfl
@[simp] theorem State.setSite_scribe (n : Nat) (v : Site) : (s.setSite n v).scribe = s.scribe := rfl
@[simp] theorem State.setSite_stops (n : Nat) (v : Site) : (s.setSite n v).stops = s.stops := rfl
@[simp] theorem State.setSite_serial (n : Nat) (v : Site) : (s.setSite n v).serial = s.serial := rfl
@[simp] theorem State.setSite_free (n : Nat) (v : Site) : (s.setSite n v).free = s.free := rfl

/-! setScribe -/

@[simp] theorem State.setScribe_threads (n : Nat) (v : ScribeCore) : (s.setScribe n v).threads = s.threads := rfl
@[simp] theorem State.setScribe_squads (n : Nat) (v : ScribeCore) : (s.setScribe n v).squads = s.squads := rfl
@[simp] theorem State.setScribe_teams (n : Nat) (v : ScribeCore) : (s.setScribe n v).teams = s.teams := rfl
@[simp] theorem State.setScribe_launches (n : Nat) (v : ScribeCore) : (s.setScribe n v).launches = s.launches := rfl
@[simp] theorem State.setScribe_cores (n : Nat) (v : ScribeCore) : (s.setScribe n v).cores = s.cores := rfl
@[simp] theorem State.setScribe_sites (n : Nat) (v : ScribeCore) : (s.setScribe n v).sites = s.sites := rfl
@[simp] theorem State.setScribe_queues (n : Nat) (v : ScribeCore) : (s.setScribe n v).queues = s.queues := rfl
@[simp] theorem State.setScribe_commands (n : Nat) (v : ScribeCore) : (s.setScribe n v).commands = s.commands := rfl
@[simp] theorem State.setScribe_packets (n : Nat) (v : ScribeCore) : (s.setScribe n v).packets = s.packets := rfl
@[simp] theorem State.setScribe_outbox (n : Nat) (v : ScribeCore) : (s.setScribe n v).outbox = s.outbox := rfl
@[simp] theorem State.setScribe_pageReqs (n : Nat) (v : ScribeCore) : (s.setScribe n v).pageReqs = s.pageReqs := rfl
@[simp] theorem State.setScribe_tasks (n : Nat) (v : ScribeCore) : (s.setScribe n v).tasks = s.tasks := rfl
@[simp] theorem State.setScribe_seals (n : Nat) (v : ScribeCore) : (s.setScribe n v).seals = s.seals := rfl
@[simp] theorem State.setScribe_sealHome (n : Nat) (v : ScribeCore) : (s.setScribe n v).sealHome = s.sealHome := rfl
@[simp] theorem State.setScribe_sent (n : Nat) (v : ScribeCore) : (s.setScribe n v).sent = s.sent := rfl
@[simp] theorem State.setScribe_arrivals (n : Nat) (v : ScribeCore) : (s.setScribe n v).arrivals = s.arrivals := rfl
@[simp] theorem State.setScribe_commits (n : Nat) (v : ScribeCore) : (s.setScribe n v).commits = s.commits := rfl
@[simp] theorem State.setScribe_netroot (n : Nat) (v : ScribeCore) : (s.setScribe n v).netroot = s.netroot := rfl
@[simp] theorem State.setScribe_invalidations (n : Nat) (v : ScribeCore) : (s.setScribe n v).invalidations = s.invalidations := rfl
@[simp] theorem State.setScribe_contexts (n : Nat) (v : ScribeCore) : (s.setScribe n v).contexts = s.contexts := rfl
@[simp] theorem State.setScribe_heldSignals (n : Nat) (v : ScribeCore) : (s.setScribe n v).heldSignals = s.heldSignals := rfl
@[simp] theorem State.setScribe_lups (n : Nat) (v : ScribeCore) : (s.setScribe n v).lups = s.lups := rfl
@[simp] theorem State.setScribe_flash (n : Nat) (v : ScribeCore) : (s.setScribe n v).flash = s.flash := rfl
@[simp] theorem State.setScribe_bootStage (n : Nat) (v : ScribeCore) : (s.setScribe n v).bootStage = s.bootStage := rfl
@[simp] theorem State.setScribe_dbgstate (n : Nat) (v : ScribeCore) : (s.setScribe n v).dbgstate = s.dbgstate := rfl
@[simp] theorem State.setScribe_hostLink (n : Nat) (v : ScribeCore) : (s.setScribe n v).hostLink = s.hostLink := rfl
@[simp] theorem State.setScribe_hostOut (n : Nat) (v : ScribeCore) : (s.setScribe n v).hostOut = s.hostOut := rfl
@[simp] theorem State.setScribe_debugOut (n : Nat) (v : ScribeCore) : (s.setScribe n v).debugOut = s.debugOut := rfl
@[simp] theorem State.setScribe_dmapgen (n : Nat) (v : ScribeCore) : (s.setScribe n v).dmapgen = s.dmapgen := rfl
@[simp] theorem State.setScribe_wtstatus (n : Nat) (v : ScribeCore) : (s.setScribe n v).wtstatus = s.wtstatus := rfl
@[simp] theorem State.setScribe_mem (n : Nat) (v : ScribeCore) : (s.setScribe n v).mem = s.mem := rfl
@[simp] theorem State.setScribe_unseen (n : Nat) (v : ScribeCore) : (s.setScribe n v).unseen = s.unseen := rfl
@[simp] theorem State.setScribe_writes (n : Nat) (v : ScribeCore) : (s.setScribe n v).writes = s.writes := rfl
@[simp] theorem State.setScribe_fences (n : Nat) (v : ScribeCore) : (s.setScribe n v).fences = s.fences := rfl
@[simp] theorem State.setScribe_badDram (n : Nat) (v : ScribeCore) : (s.setScribe n v).badDram = s.badDram := rfl
@[simp] theorem State.setScribe_moduleId (n : Nat) (v : ScribeCore) : (s.setScribe n v).moduleId = s.moduleId := rfl
@[simp] theorem State.setScribe_nextLid (n : Nat) (v : ScribeCore) : (s.setScribe n v).nextLid = s.nextLid := rfl
@[simp] theorem State.setScribe_stampSeq (n : Nat) (v : ScribeCore) : (s.setScribe n v).stampSeq = s.stampSeq := rfl
@[simp] theorem State.setScribe_pastStamps (n : Nat) (v : ScribeCore) : (s.setScribe n v).pastStamps = s.pastStamps := rfl
@[simp] theorem State.setScribe_clock (n : Nat) (v : ScribeCore) : (s.setScribe n v).clock = s.clock := rfl
@[simp] theorem State.setScribe_tick (n : Nat) (v : ScribeCore) : (s.setScribe n v).tick = s.tick := rfl
@[simp] theorem State.setScribe_timeBase (n : Nat) (v : ScribeCore) : (s.setScribe n v).timeBase = s.timeBase := rfl
@[simp] theorem State.setScribe_slew (n : Nat) (v : ScribeCore) : (s.setScribe n v).slew = s.slew := rfl
@[simp] theorem State.setScribe_agenda (n : Nat) (v : ScribeCore) : (s.setScribe n v).agenda = s.agenda := rfl
@[simp] theorem State.setScribe_todo (n : Nat) (v : ScribeCore) : (s.setScribe n v).todo = s.todo := rfl
@[simp] theorem State.setScribe_gang (n : Nat) (v : ScribeCore) : (s.setScribe n v).gang = s.gang := rfl
@[simp] theorem State.setScribe_scribe (n : Nat) (v : ScribeCore) : (s.setScribe n v).scribe = s.scribe := rfl
@[simp] theorem State.setScribe_stops (n : Nat) (v : ScribeCore) : (s.setScribe n v).stops = s.stops := rfl
@[simp] theorem State.setScribe_serial (n : Nat) (v : ScribeCore) : (s.setScribe n v).serial = s.serial := rfl
@[simp] theorem State.setScribe_free (n : Nat) (v : ScribeCore) : (s.setScribe n v).free = s.free := rfl

/-! setQueue -/

@[simp] theorem State.setQueue_threads (q : Nat) (v : LaunchQueue) : (s.setQueue q v).threads = s.threads := rfl
@[simp] theorem State.setQueue_squads (q : Nat) (v : LaunchQueue) : (s.setQueue q v).squads = s.squads := rfl
@[simp] theorem State.setQueue_teams (q : Nat) (v : LaunchQueue) : (s.setQueue q v).teams = s.teams := rfl
@[simp] theorem State.setQueue_launches (q : Nat) (v : LaunchQueue) : (s.setQueue q v).launches = s.launches := rfl
@[simp] theorem State.setQueue_cores (q : Nat) (v : LaunchQueue) : (s.setQueue q v).cores = s.cores := rfl
@[simp] theorem State.setQueue_sites (q : Nat) (v : LaunchQueue) : (s.setQueue q v).sites = s.sites := rfl
@[simp] theorem State.setQueue_scribes (q : Nat) (v : LaunchQueue) : (s.setQueue q v).scribes = s.scribes := rfl
@[simp] theorem State.setQueue_commands (q : Nat) (v : LaunchQueue) : (s.setQueue q v).commands = s.commands := rfl
@[simp] theorem State.setQueue_packets (q : Nat) (v : LaunchQueue) : (s.setQueue q v).packets = s.packets := rfl
@[simp] theorem State.setQueue_outbox (q : Nat) (v : LaunchQueue) : (s.setQueue q v).outbox = s.outbox := rfl
@[simp] theorem State.setQueue_pageReqs (q : Nat) (v : LaunchQueue) : (s.setQueue q v).pageReqs = s.pageReqs := rfl
@[simp] theorem State.setQueue_tasks (q : Nat) (v : LaunchQueue) : (s.setQueue q v).tasks = s.tasks := rfl
@[simp] theorem State.setQueue_seals (q : Nat) (v : LaunchQueue) : (s.setQueue q v).seals = s.seals := rfl
@[simp] theorem State.setQueue_sealHome (q : Nat) (v : LaunchQueue) : (s.setQueue q v).sealHome = s.sealHome := rfl
@[simp] theorem State.setQueue_sent (q : Nat) (v : LaunchQueue) : (s.setQueue q v).sent = s.sent := rfl
@[simp] theorem State.setQueue_arrivals (q : Nat) (v : LaunchQueue) : (s.setQueue q v).arrivals = s.arrivals := rfl
@[simp] theorem State.setQueue_commits (q : Nat) (v : LaunchQueue) : (s.setQueue q v).commits = s.commits := rfl
@[simp] theorem State.setQueue_netroot (q : Nat) (v : LaunchQueue) : (s.setQueue q v).netroot = s.netroot := rfl
@[simp] theorem State.setQueue_invalidations (q : Nat) (v : LaunchQueue) : (s.setQueue q v).invalidations = s.invalidations := rfl
@[simp] theorem State.setQueue_contexts (q : Nat) (v : LaunchQueue) : (s.setQueue q v).contexts = s.contexts := rfl
@[simp] theorem State.setQueue_heldSignals (q : Nat) (v : LaunchQueue) : (s.setQueue q v).heldSignals = s.heldSignals := rfl
@[simp] theorem State.setQueue_lups (q : Nat) (v : LaunchQueue) : (s.setQueue q v).lups = s.lups := rfl
@[simp] theorem State.setQueue_flash (q : Nat) (v : LaunchQueue) : (s.setQueue q v).flash = s.flash := rfl
@[simp] theorem State.setQueue_bootStage (q : Nat) (v : LaunchQueue) : (s.setQueue q v).bootStage = s.bootStage := rfl
@[simp] theorem State.setQueue_dbgstate (q : Nat) (v : LaunchQueue) : (s.setQueue q v).dbgstate = s.dbgstate := rfl
@[simp] theorem State.setQueue_hostLink (q : Nat) (v : LaunchQueue) : (s.setQueue q v).hostLink = s.hostLink := rfl
@[simp] theorem State.setQueue_hostOut (q : Nat) (v : LaunchQueue) : (s.setQueue q v).hostOut = s.hostOut := rfl
@[simp] theorem State.setQueue_debugOut (q : Nat) (v : LaunchQueue) : (s.setQueue q v).debugOut = s.debugOut := rfl
@[simp] theorem State.setQueue_dmapgen (q : Nat) (v : LaunchQueue) : (s.setQueue q v).dmapgen = s.dmapgen := rfl
@[simp] theorem State.setQueue_wtstatus (q : Nat) (v : LaunchQueue) : (s.setQueue q v).wtstatus = s.wtstatus := rfl
@[simp] theorem State.setQueue_mem (q : Nat) (v : LaunchQueue) : (s.setQueue q v).mem = s.mem := rfl
@[simp] theorem State.setQueue_unseen (q : Nat) (v : LaunchQueue) : (s.setQueue q v).unseen = s.unseen := rfl
@[simp] theorem State.setQueue_writes (q : Nat) (v : LaunchQueue) : (s.setQueue q v).writes = s.writes := rfl
@[simp] theorem State.setQueue_fences (q : Nat) (v : LaunchQueue) : (s.setQueue q v).fences = s.fences := rfl
@[simp] theorem State.setQueue_badDram (q : Nat) (v : LaunchQueue) : (s.setQueue q v).badDram = s.badDram := rfl
@[simp] theorem State.setQueue_moduleId (q : Nat) (v : LaunchQueue) : (s.setQueue q v).moduleId = s.moduleId := rfl
@[simp] theorem State.setQueue_nextLid (q : Nat) (v : LaunchQueue) : (s.setQueue q v).nextLid = s.nextLid := rfl
@[simp] theorem State.setQueue_stampSeq (q : Nat) (v : LaunchQueue) : (s.setQueue q v).stampSeq = s.stampSeq := rfl
@[simp] theorem State.setQueue_pastStamps (q : Nat) (v : LaunchQueue) : (s.setQueue q v).pastStamps = s.pastStamps := rfl
@[simp] theorem State.setQueue_clock (q : Nat) (v : LaunchQueue) : (s.setQueue q v).clock = s.clock := rfl
@[simp] theorem State.setQueue_tick (q : Nat) (v : LaunchQueue) : (s.setQueue q v).tick = s.tick := rfl
@[simp] theorem State.setQueue_timeBase (q : Nat) (v : LaunchQueue) : (s.setQueue q v).timeBase = s.timeBase := rfl
@[simp] theorem State.setQueue_slew (q : Nat) (v : LaunchQueue) : (s.setQueue q v).slew = s.slew := rfl
@[simp] theorem State.setQueue_agenda (q : Nat) (v : LaunchQueue) : (s.setQueue q v).agenda = s.agenda := rfl
@[simp] theorem State.setQueue_todo (q : Nat) (v : LaunchQueue) : (s.setQueue q v).todo = s.todo := rfl
@[simp] theorem State.setQueue_gang (q : Nat) (v : LaunchQueue) : (s.setQueue q v).gang = s.gang := rfl
@[simp] theorem State.setQueue_scribe (q : Nat) (v : LaunchQueue) : (s.setQueue q v).scribe = s.scribe := rfl
@[simp] theorem State.setQueue_stops (q : Nat) (v : LaunchQueue) : (s.setQueue q v).stops = s.stops := rfl
@[simp] theorem State.setQueue_serial (q : Nat) (v : LaunchQueue) : (s.setQueue q v).serial = s.serial := rfl
@[simp] theorem State.setQueue_free (q : Nat) (v : LaunchQueue) : (s.setQueue q v).free = s.free := rfl

/-! setCommand -/

@[simp] theorem State.setCommand_threads (c : Nat) (v : Command) : (s.setCommand c v).threads = s.threads := rfl
@[simp] theorem State.setCommand_squads (c : Nat) (v : Command) : (s.setCommand c v).squads = s.squads := rfl
@[simp] theorem State.setCommand_teams (c : Nat) (v : Command) : (s.setCommand c v).teams = s.teams := rfl
@[simp] theorem State.setCommand_launches (c : Nat) (v : Command) : (s.setCommand c v).launches = s.launches := rfl
@[simp] theorem State.setCommand_cores (c : Nat) (v : Command) : (s.setCommand c v).cores = s.cores := rfl
@[simp] theorem State.setCommand_sites (c : Nat) (v : Command) : (s.setCommand c v).sites = s.sites := rfl
@[simp] theorem State.setCommand_scribes (c : Nat) (v : Command) : (s.setCommand c v).scribes = s.scribes := rfl
@[simp] theorem State.setCommand_queues (c : Nat) (v : Command) : (s.setCommand c v).queues = s.queues := rfl
@[simp] theorem State.setCommand_packets (c : Nat) (v : Command) : (s.setCommand c v).packets = s.packets := rfl
@[simp] theorem State.setCommand_outbox (c : Nat) (v : Command) : (s.setCommand c v).outbox = s.outbox := rfl
@[simp] theorem State.setCommand_pageReqs (c : Nat) (v : Command) : (s.setCommand c v).pageReqs = s.pageReqs := rfl
@[simp] theorem State.setCommand_tasks (c : Nat) (v : Command) : (s.setCommand c v).tasks = s.tasks := rfl
@[simp] theorem State.setCommand_seals (c : Nat) (v : Command) : (s.setCommand c v).seals = s.seals := rfl
@[simp] theorem State.setCommand_sealHome (c : Nat) (v : Command) : (s.setCommand c v).sealHome = s.sealHome := rfl
@[simp] theorem State.setCommand_sent (c : Nat) (v : Command) : (s.setCommand c v).sent = s.sent := rfl
@[simp] theorem State.setCommand_arrivals (c : Nat) (v : Command) : (s.setCommand c v).arrivals = s.arrivals := rfl
@[simp] theorem State.setCommand_commits (c : Nat) (v : Command) : (s.setCommand c v).commits = s.commits := rfl
@[simp] theorem State.setCommand_netroot (c : Nat) (v : Command) : (s.setCommand c v).netroot = s.netroot := rfl
@[simp] theorem State.setCommand_invalidations (c : Nat) (v : Command) : (s.setCommand c v).invalidations = s.invalidations := rfl
@[simp] theorem State.setCommand_contexts (c : Nat) (v : Command) : (s.setCommand c v).contexts = s.contexts := rfl
@[simp] theorem State.setCommand_heldSignals (c : Nat) (v : Command) : (s.setCommand c v).heldSignals = s.heldSignals := rfl
@[simp] theorem State.setCommand_lups (c : Nat) (v : Command) : (s.setCommand c v).lups = s.lups := rfl
@[simp] theorem State.setCommand_flash (c : Nat) (v : Command) : (s.setCommand c v).flash = s.flash := rfl
@[simp] theorem State.setCommand_bootStage (c : Nat) (v : Command) : (s.setCommand c v).bootStage = s.bootStage := rfl
@[simp] theorem State.setCommand_dbgstate (c : Nat) (v : Command) : (s.setCommand c v).dbgstate = s.dbgstate := rfl
@[simp] theorem State.setCommand_hostLink (c : Nat) (v : Command) : (s.setCommand c v).hostLink = s.hostLink := rfl
@[simp] theorem State.setCommand_hostOut (c : Nat) (v : Command) : (s.setCommand c v).hostOut = s.hostOut := rfl
@[simp] theorem State.setCommand_debugOut (c : Nat) (v : Command) : (s.setCommand c v).debugOut = s.debugOut := rfl
@[simp] theorem State.setCommand_dmapgen (c : Nat) (v : Command) : (s.setCommand c v).dmapgen = s.dmapgen := rfl
@[simp] theorem State.setCommand_wtstatus (c : Nat) (v : Command) : (s.setCommand c v).wtstatus = s.wtstatus := rfl
@[simp] theorem State.setCommand_mem (c : Nat) (v : Command) : (s.setCommand c v).mem = s.mem := rfl
@[simp] theorem State.setCommand_unseen (c : Nat) (v : Command) : (s.setCommand c v).unseen = s.unseen := rfl
@[simp] theorem State.setCommand_writes (c : Nat) (v : Command) : (s.setCommand c v).writes = s.writes := rfl
@[simp] theorem State.setCommand_fences (c : Nat) (v : Command) : (s.setCommand c v).fences = s.fences := rfl
@[simp] theorem State.setCommand_badDram (c : Nat) (v : Command) : (s.setCommand c v).badDram = s.badDram := rfl
@[simp] theorem State.setCommand_moduleId (c : Nat) (v : Command) : (s.setCommand c v).moduleId = s.moduleId := rfl
@[simp] theorem State.setCommand_nextLid (c : Nat) (v : Command) : (s.setCommand c v).nextLid = s.nextLid := rfl
@[simp] theorem State.setCommand_stampSeq (c : Nat) (v : Command) : (s.setCommand c v).stampSeq = s.stampSeq := rfl
@[simp] theorem State.setCommand_pastStamps (c : Nat) (v : Command) : (s.setCommand c v).pastStamps = s.pastStamps := rfl
@[simp] theorem State.setCommand_clock (c : Nat) (v : Command) : (s.setCommand c v).clock = s.clock := rfl
@[simp] theorem State.setCommand_tick (c : Nat) (v : Command) : (s.setCommand c v).tick = s.tick := rfl
@[simp] theorem State.setCommand_timeBase (c : Nat) (v : Command) : (s.setCommand c v).timeBase = s.timeBase := rfl
@[simp] theorem State.setCommand_slew (c : Nat) (v : Command) : (s.setCommand c v).slew = s.slew := rfl
@[simp] theorem State.setCommand_agenda (c : Nat) (v : Command) : (s.setCommand c v).agenda = s.agenda := rfl
@[simp] theorem State.setCommand_todo (c : Nat) (v : Command) : (s.setCommand c v).todo = s.todo := rfl
@[simp] theorem State.setCommand_gang (c : Nat) (v : Command) : (s.setCommand c v).gang = s.gang := rfl
@[simp] theorem State.setCommand_scribe (c : Nat) (v : Command) : (s.setCommand c v).scribe = s.scribe := rfl
@[simp] theorem State.setCommand_stops (c : Nat) (v : Command) : (s.setCommand c v).stops = s.stops := rfl
@[simp] theorem State.setCommand_serial (c : Nat) (v : Command) : (s.setCommand c v).serial = s.serial := rfl
@[simp] theorem State.setCommand_free (c : Nat) (v : Command) : (s.setCommand c v).free = s.free := rfl

/-! modThread -/

@[simp] theorem State.modThread_squads (t : Tid) (f : Thread → Thread) : (s.modThread t f).squads = s.squads := rfl
@[simp] theorem State.modThread_teams (t : Tid) (f : Thread → Thread) : (s.modThread t f).teams = s.teams := rfl
@[simp] theorem State.modThread_launches (t : Tid) (f : Thread → Thread) : (s.modThread t f).launches = s.launches := rfl
@[simp] theorem State.modThread_cores (t : Tid) (f : Thread → Thread) : (s.modThread t f).cores = s.cores := rfl
@[simp] theorem State.modThread_sites (t : Tid) (f : Thread → Thread) : (s.modThread t f).sites = s.sites := rfl
@[simp] theorem State.modThread_scribes (t : Tid) (f : Thread → Thread) : (s.modThread t f).scribes = s.scribes := rfl
@[simp] theorem State.modThread_queues (t : Tid) (f : Thread → Thread) : (s.modThread t f).queues = s.queues := rfl
@[simp] theorem State.modThread_commands (t : Tid) (f : Thread → Thread) : (s.modThread t f).commands = s.commands := rfl
@[simp] theorem State.modThread_packets (t : Tid) (f : Thread → Thread) : (s.modThread t f).packets = s.packets := rfl
@[simp] theorem State.modThread_outbox (t : Tid) (f : Thread → Thread) : (s.modThread t f).outbox = s.outbox := rfl
@[simp] theorem State.modThread_pageReqs (t : Tid) (f : Thread → Thread) : (s.modThread t f).pageReqs = s.pageReqs := rfl
@[simp] theorem State.modThread_tasks (t : Tid) (f : Thread → Thread) : (s.modThread t f).tasks = s.tasks := rfl
@[simp] theorem State.modThread_seals (t : Tid) (f : Thread → Thread) : (s.modThread t f).seals = s.seals := rfl
@[simp] theorem State.modThread_sealHome (t : Tid) (f : Thread → Thread) : (s.modThread t f).sealHome = s.sealHome := rfl
@[simp] theorem State.modThread_sent (t : Tid) (f : Thread → Thread) : (s.modThread t f).sent = s.sent := rfl
@[simp] theorem State.modThread_arrivals (t : Tid) (f : Thread → Thread) : (s.modThread t f).arrivals = s.arrivals := rfl
@[simp] theorem State.modThread_commits (t : Tid) (f : Thread → Thread) : (s.modThread t f).commits = s.commits := rfl
@[simp] theorem State.modThread_netroot (t : Tid) (f : Thread → Thread) : (s.modThread t f).netroot = s.netroot := rfl
@[simp] theorem State.modThread_invalidations (t : Tid) (f : Thread → Thread) : (s.modThread t f).invalidations = s.invalidations := rfl
@[simp] theorem State.modThread_contexts (t : Tid) (f : Thread → Thread) : (s.modThread t f).contexts = s.contexts := rfl
@[simp] theorem State.modThread_heldSignals (t : Tid) (f : Thread → Thread) : (s.modThread t f).heldSignals = s.heldSignals := rfl
@[simp] theorem State.modThread_lups (t : Tid) (f : Thread → Thread) : (s.modThread t f).lups = s.lups := rfl
@[simp] theorem State.modThread_flash (t : Tid) (f : Thread → Thread) : (s.modThread t f).flash = s.flash := rfl
@[simp] theorem State.modThread_bootStage (t : Tid) (f : Thread → Thread) : (s.modThread t f).bootStage = s.bootStage := rfl
@[simp] theorem State.modThread_dbgstate (t : Tid) (f : Thread → Thread) : (s.modThread t f).dbgstate = s.dbgstate := rfl
@[simp] theorem State.modThread_hostLink (t : Tid) (f : Thread → Thread) : (s.modThread t f).hostLink = s.hostLink := rfl
@[simp] theorem State.modThread_hostOut (t : Tid) (f : Thread → Thread) : (s.modThread t f).hostOut = s.hostOut := rfl
@[simp] theorem State.modThread_debugOut (t : Tid) (f : Thread → Thread) : (s.modThread t f).debugOut = s.debugOut := rfl
@[simp] theorem State.modThread_dmapgen (t : Tid) (f : Thread → Thread) : (s.modThread t f).dmapgen = s.dmapgen := rfl
@[simp] theorem State.modThread_wtstatus (t : Tid) (f : Thread → Thread) : (s.modThread t f).wtstatus = s.wtstatus := rfl
@[simp] theorem State.modThread_mem (t : Tid) (f : Thread → Thread) : (s.modThread t f).mem = s.mem := rfl
@[simp] theorem State.modThread_unseen (t : Tid) (f : Thread → Thread) : (s.modThread t f).unseen = s.unseen := rfl
@[simp] theorem State.modThread_writes (t : Tid) (f : Thread → Thread) : (s.modThread t f).writes = s.writes := rfl
@[simp] theorem State.modThread_fences (t : Tid) (f : Thread → Thread) : (s.modThread t f).fences = s.fences := rfl
@[simp] theorem State.modThread_badDram (t : Tid) (f : Thread → Thread) : (s.modThread t f).badDram = s.badDram := rfl
@[simp] theorem State.modThread_moduleId (t : Tid) (f : Thread → Thread) : (s.modThread t f).moduleId = s.moduleId := rfl
@[simp] theorem State.modThread_nextLid (t : Tid) (f : Thread → Thread) : (s.modThread t f).nextLid = s.nextLid := rfl
@[simp] theorem State.modThread_stampSeq (t : Tid) (f : Thread → Thread) : (s.modThread t f).stampSeq = s.stampSeq := rfl
@[simp] theorem State.modThread_pastStamps (t : Tid) (f : Thread → Thread) : (s.modThread t f).pastStamps = s.pastStamps := rfl
@[simp] theorem State.modThread_clock (t : Tid) (f : Thread → Thread) : (s.modThread t f).clock = s.clock := rfl
@[simp] theorem State.modThread_tick (t : Tid) (f : Thread → Thread) : (s.modThread t f).tick = s.tick := rfl
@[simp] theorem State.modThread_timeBase (t : Tid) (f : Thread → Thread) : (s.modThread t f).timeBase = s.timeBase := rfl
@[simp] theorem State.modThread_slew (t : Tid) (f : Thread → Thread) : (s.modThread t f).slew = s.slew := rfl
@[simp] theorem State.modThread_agenda (t : Tid) (f : Thread → Thread) : (s.modThread t f).agenda = s.agenda := rfl
@[simp] theorem State.modThread_todo (t : Tid) (f : Thread → Thread) : (s.modThread t f).todo = s.todo := rfl
@[simp] theorem State.modThread_gang (t : Tid) (f : Thread → Thread) : (s.modThread t f).gang = s.gang := rfl
@[simp] theorem State.modThread_scribe (t : Tid) (f : Thread → Thread) : (s.modThread t f).scribe = s.scribe := rfl
@[simp] theorem State.modThread_stops (t : Tid) (f : Thread → Thread) : (s.modThread t f).stops = s.stops := rfl
@[simp] theorem State.modThread_serial (t : Tid) (f : Thread → Thread) : (s.modThread t f).serial = s.serial := rfl
@[simp] theorem State.modThread_free (t : Tid) (f : Thread → Thread) : (s.modThread t f).free = s.free := rfl

/-! modSquad -/

@[simp] theorem State.modSquad_threads (q : Sid) (f : Squad → Squad) : (s.modSquad q f).threads = s.threads := rfl
@[simp] theorem State.modSquad_teams (q : Sid) (f : Squad → Squad) : (s.modSquad q f).teams = s.teams := rfl
@[simp] theorem State.modSquad_launches (q : Sid) (f : Squad → Squad) : (s.modSquad q f).launches = s.launches := rfl
@[simp] theorem State.modSquad_cores (q : Sid) (f : Squad → Squad) : (s.modSquad q f).cores = s.cores := rfl
@[simp] theorem State.modSquad_sites (q : Sid) (f : Squad → Squad) : (s.modSquad q f).sites = s.sites := rfl
@[simp] theorem State.modSquad_scribes (q : Sid) (f : Squad → Squad) : (s.modSquad q f).scribes = s.scribes := rfl
@[simp] theorem State.modSquad_queues (q : Sid) (f : Squad → Squad) : (s.modSquad q f).queues = s.queues := rfl
@[simp] theorem State.modSquad_commands (q : Sid) (f : Squad → Squad) : (s.modSquad q f).commands = s.commands := rfl
@[simp] theorem State.modSquad_packets (q : Sid) (f : Squad → Squad) : (s.modSquad q f).packets = s.packets := rfl
@[simp] theorem State.modSquad_outbox (q : Sid) (f : Squad → Squad) : (s.modSquad q f).outbox = s.outbox := rfl
@[simp] theorem State.modSquad_pageReqs (q : Sid) (f : Squad → Squad) : (s.modSquad q f).pageReqs = s.pageReqs := rfl
@[simp] theorem State.modSquad_tasks (q : Sid) (f : Squad → Squad) : (s.modSquad q f).tasks = s.tasks := rfl
@[simp] theorem State.modSquad_seals (q : Sid) (f : Squad → Squad) : (s.modSquad q f).seals = s.seals := rfl
@[simp] theorem State.modSquad_sealHome (q : Sid) (f : Squad → Squad) : (s.modSquad q f).sealHome = s.sealHome := rfl
@[simp] theorem State.modSquad_sent (q : Sid) (f : Squad → Squad) : (s.modSquad q f).sent = s.sent := rfl
@[simp] theorem State.modSquad_arrivals (q : Sid) (f : Squad → Squad) : (s.modSquad q f).arrivals = s.arrivals := rfl
@[simp] theorem State.modSquad_commits (q : Sid) (f : Squad → Squad) : (s.modSquad q f).commits = s.commits := rfl
@[simp] theorem State.modSquad_netroot (q : Sid) (f : Squad → Squad) : (s.modSquad q f).netroot = s.netroot := rfl
@[simp] theorem State.modSquad_invalidations (q : Sid) (f : Squad → Squad) : (s.modSquad q f).invalidations = s.invalidations := rfl
@[simp] theorem State.modSquad_contexts (q : Sid) (f : Squad → Squad) : (s.modSquad q f).contexts = s.contexts := rfl
@[simp] theorem State.modSquad_heldSignals (q : Sid) (f : Squad → Squad) : (s.modSquad q f).heldSignals = s.heldSignals := rfl
@[simp] theorem State.modSquad_lups (q : Sid) (f : Squad → Squad) : (s.modSquad q f).lups = s.lups := rfl
@[simp] theorem State.modSquad_flash (q : Sid) (f : Squad → Squad) : (s.modSquad q f).flash = s.flash := rfl
@[simp] theorem State.modSquad_bootStage (q : Sid) (f : Squad → Squad) : (s.modSquad q f).bootStage = s.bootStage := rfl
@[simp] theorem State.modSquad_dbgstate (q : Sid) (f : Squad → Squad) : (s.modSquad q f).dbgstate = s.dbgstate := rfl
@[simp] theorem State.modSquad_hostLink (q : Sid) (f : Squad → Squad) : (s.modSquad q f).hostLink = s.hostLink := rfl
@[simp] theorem State.modSquad_hostOut (q : Sid) (f : Squad → Squad) : (s.modSquad q f).hostOut = s.hostOut := rfl
@[simp] theorem State.modSquad_debugOut (q : Sid) (f : Squad → Squad) : (s.modSquad q f).debugOut = s.debugOut := rfl
@[simp] theorem State.modSquad_dmapgen (q : Sid) (f : Squad → Squad) : (s.modSquad q f).dmapgen = s.dmapgen := rfl
@[simp] theorem State.modSquad_wtstatus (q : Sid) (f : Squad → Squad) : (s.modSquad q f).wtstatus = s.wtstatus := rfl
@[simp] theorem State.modSquad_mem (q : Sid) (f : Squad → Squad) : (s.modSquad q f).mem = s.mem := rfl
@[simp] theorem State.modSquad_unseen (q : Sid) (f : Squad → Squad) : (s.modSquad q f).unseen = s.unseen := rfl
@[simp] theorem State.modSquad_writes (q : Sid) (f : Squad → Squad) : (s.modSquad q f).writes = s.writes := rfl
@[simp] theorem State.modSquad_fences (q : Sid) (f : Squad → Squad) : (s.modSquad q f).fences = s.fences := rfl
@[simp] theorem State.modSquad_badDram (q : Sid) (f : Squad → Squad) : (s.modSquad q f).badDram = s.badDram := rfl
@[simp] theorem State.modSquad_moduleId (q : Sid) (f : Squad → Squad) : (s.modSquad q f).moduleId = s.moduleId := rfl
@[simp] theorem State.modSquad_nextLid (q : Sid) (f : Squad → Squad) : (s.modSquad q f).nextLid = s.nextLid := rfl
@[simp] theorem State.modSquad_stampSeq (q : Sid) (f : Squad → Squad) : (s.modSquad q f).stampSeq = s.stampSeq := rfl
@[simp] theorem State.modSquad_pastStamps (q : Sid) (f : Squad → Squad) : (s.modSquad q f).pastStamps = s.pastStamps := rfl
@[simp] theorem State.modSquad_clock (q : Sid) (f : Squad → Squad) : (s.modSquad q f).clock = s.clock := rfl
@[simp] theorem State.modSquad_tick (q : Sid) (f : Squad → Squad) : (s.modSquad q f).tick = s.tick := rfl
@[simp] theorem State.modSquad_timeBase (q : Sid) (f : Squad → Squad) : (s.modSquad q f).timeBase = s.timeBase := rfl
@[simp] theorem State.modSquad_slew (q : Sid) (f : Squad → Squad) : (s.modSquad q f).slew = s.slew := rfl
@[simp] theorem State.modSquad_agenda (q : Sid) (f : Squad → Squad) : (s.modSquad q f).agenda = s.agenda := rfl
@[simp] theorem State.modSquad_todo (q : Sid) (f : Squad → Squad) : (s.modSquad q f).todo = s.todo := rfl
@[simp] theorem State.modSquad_gang (q : Sid) (f : Squad → Squad) : (s.modSquad q f).gang = s.gang := rfl
@[simp] theorem State.modSquad_scribe (q : Sid) (f : Squad → Squad) : (s.modSquad q f).scribe = s.scribe := rfl
@[simp] theorem State.modSquad_stops (q : Sid) (f : Squad → Squad) : (s.modSquad q f).stops = s.stops := rfl
@[simp] theorem State.modSquad_serial (q : Sid) (f : Squad → Squad) : (s.modSquad q f).serial = s.serial := rfl
@[simp] theorem State.modSquad_free (q : Sid) (f : Squad → Squad) : (s.modSquad q f).free = s.free := rfl

/-! modCore -/

@[simp] theorem State.modCore_threads (c : Nat) (f : Core → Core) : (s.modCore c f).threads = s.threads := rfl
@[simp] theorem State.modCore_squads (c : Nat) (f : Core → Core) : (s.modCore c f).squads = s.squads := rfl
@[simp] theorem State.modCore_teams (c : Nat) (f : Core → Core) : (s.modCore c f).teams = s.teams := rfl
@[simp] theorem State.modCore_launches (c : Nat) (f : Core → Core) : (s.modCore c f).launches = s.launches := rfl
@[simp] theorem State.modCore_sites (c : Nat) (f : Core → Core) : (s.modCore c f).sites = s.sites := rfl
@[simp] theorem State.modCore_scribes (c : Nat) (f : Core → Core) : (s.modCore c f).scribes = s.scribes := rfl
@[simp] theorem State.modCore_queues (c : Nat) (f : Core → Core) : (s.modCore c f).queues = s.queues := rfl
@[simp] theorem State.modCore_commands (c : Nat) (f : Core → Core) : (s.modCore c f).commands = s.commands := rfl
@[simp] theorem State.modCore_packets (c : Nat) (f : Core → Core) : (s.modCore c f).packets = s.packets := rfl
@[simp] theorem State.modCore_outbox (c : Nat) (f : Core → Core) : (s.modCore c f).outbox = s.outbox := rfl
@[simp] theorem State.modCore_pageReqs (c : Nat) (f : Core → Core) : (s.modCore c f).pageReqs = s.pageReqs := rfl
@[simp] theorem State.modCore_tasks (c : Nat) (f : Core → Core) : (s.modCore c f).tasks = s.tasks := rfl
@[simp] theorem State.modCore_seals (c : Nat) (f : Core → Core) : (s.modCore c f).seals = s.seals := rfl
@[simp] theorem State.modCore_sealHome (c : Nat) (f : Core → Core) : (s.modCore c f).sealHome = s.sealHome := rfl
@[simp] theorem State.modCore_sent (c : Nat) (f : Core → Core) : (s.modCore c f).sent = s.sent := rfl
@[simp] theorem State.modCore_arrivals (c : Nat) (f : Core → Core) : (s.modCore c f).arrivals = s.arrivals := rfl
@[simp] theorem State.modCore_commits (c : Nat) (f : Core → Core) : (s.modCore c f).commits = s.commits := rfl
@[simp] theorem State.modCore_netroot (c : Nat) (f : Core → Core) : (s.modCore c f).netroot = s.netroot := rfl
@[simp] theorem State.modCore_invalidations (c : Nat) (f : Core → Core) : (s.modCore c f).invalidations = s.invalidations := rfl
@[simp] theorem State.modCore_contexts (c : Nat) (f : Core → Core) : (s.modCore c f).contexts = s.contexts := rfl
@[simp] theorem State.modCore_heldSignals (c : Nat) (f : Core → Core) : (s.modCore c f).heldSignals = s.heldSignals := rfl
@[simp] theorem State.modCore_lups (c : Nat) (f : Core → Core) : (s.modCore c f).lups = s.lups := rfl
@[simp] theorem State.modCore_flash (c : Nat) (f : Core → Core) : (s.modCore c f).flash = s.flash := rfl
@[simp] theorem State.modCore_bootStage (c : Nat) (f : Core → Core) : (s.modCore c f).bootStage = s.bootStage := rfl
@[simp] theorem State.modCore_dbgstate (c : Nat) (f : Core → Core) : (s.modCore c f).dbgstate = s.dbgstate := rfl
@[simp] theorem State.modCore_hostLink (c : Nat) (f : Core → Core) : (s.modCore c f).hostLink = s.hostLink := rfl
@[simp] theorem State.modCore_hostOut (c : Nat) (f : Core → Core) : (s.modCore c f).hostOut = s.hostOut := rfl
@[simp] theorem State.modCore_debugOut (c : Nat) (f : Core → Core) : (s.modCore c f).debugOut = s.debugOut := rfl
@[simp] theorem State.modCore_dmapgen (c : Nat) (f : Core → Core) : (s.modCore c f).dmapgen = s.dmapgen := rfl
@[simp] theorem State.modCore_wtstatus (c : Nat) (f : Core → Core) : (s.modCore c f).wtstatus = s.wtstatus := rfl
@[simp] theorem State.modCore_mem (c : Nat) (f : Core → Core) : (s.modCore c f).mem = s.mem := rfl
@[simp] theorem State.modCore_unseen (c : Nat) (f : Core → Core) : (s.modCore c f).unseen = s.unseen := rfl
@[simp] theorem State.modCore_writes (c : Nat) (f : Core → Core) : (s.modCore c f).writes = s.writes := rfl
@[simp] theorem State.modCore_fences (c : Nat) (f : Core → Core) : (s.modCore c f).fences = s.fences := rfl
@[simp] theorem State.modCore_badDram (c : Nat) (f : Core → Core) : (s.modCore c f).badDram = s.badDram := rfl
@[simp] theorem State.modCore_moduleId (c : Nat) (f : Core → Core) : (s.modCore c f).moduleId = s.moduleId := rfl
@[simp] theorem State.modCore_nextLid (c : Nat) (f : Core → Core) : (s.modCore c f).nextLid = s.nextLid := rfl
@[simp] theorem State.modCore_stampSeq (c : Nat) (f : Core → Core) : (s.modCore c f).stampSeq = s.stampSeq := rfl
@[simp] theorem State.modCore_pastStamps (c : Nat) (f : Core → Core) : (s.modCore c f).pastStamps = s.pastStamps := rfl
@[simp] theorem State.modCore_clock (c : Nat) (f : Core → Core) : (s.modCore c f).clock = s.clock := rfl
@[simp] theorem State.modCore_tick (c : Nat) (f : Core → Core) : (s.modCore c f).tick = s.tick := rfl
@[simp] theorem State.modCore_timeBase (c : Nat) (f : Core → Core) : (s.modCore c f).timeBase = s.timeBase := rfl
@[simp] theorem State.modCore_slew (c : Nat) (f : Core → Core) : (s.modCore c f).slew = s.slew := rfl
@[simp] theorem State.modCore_agenda (c : Nat) (f : Core → Core) : (s.modCore c f).agenda = s.agenda := rfl
@[simp] theorem State.modCore_todo (c : Nat) (f : Core → Core) : (s.modCore c f).todo = s.todo := rfl
@[simp] theorem State.modCore_gang (c : Nat) (f : Core → Core) : (s.modCore c f).gang = s.gang := rfl
@[simp] theorem State.modCore_scribe (c : Nat) (f : Core → Core) : (s.modCore c f).scribe = s.scribe := rfl
@[simp] theorem State.modCore_stops (c : Nat) (f : Core → Core) : (s.modCore c f).stops = s.stops := rfl
@[simp] theorem State.modCore_serial (c : Nat) (f : Core → Core) : (s.modCore c f).serial = s.serial := rfl
@[simp] theorem State.modCore_free (c : Nat) (f : Core → Core) : (s.modCore c f).free = s.free := rfl

/-! modSite -/

@[simp] theorem State.modSite_threads (n : Nat) (f : Site → Site) : (s.modSite n f).threads = s.threads := rfl
@[simp] theorem State.modSite_squads (n : Nat) (f : Site → Site) : (s.modSite n f).squads = s.squads := rfl
@[simp] theorem State.modSite_teams (n : Nat) (f : Site → Site) : (s.modSite n f).teams = s.teams := rfl
@[simp] theorem State.modSite_launches (n : Nat) (f : Site → Site) : (s.modSite n f).launches = s.launches := rfl
@[simp] theorem State.modSite_cores (n : Nat) (f : Site → Site) : (s.modSite n f).cores = s.cores := rfl
@[simp] theorem State.modSite_scribes (n : Nat) (f : Site → Site) : (s.modSite n f).scribes = s.scribes := rfl
@[simp] theorem State.modSite_queues (n : Nat) (f : Site → Site) : (s.modSite n f).queues = s.queues := rfl
@[simp] theorem State.modSite_commands (n : Nat) (f : Site → Site) : (s.modSite n f).commands = s.commands := rfl
@[simp] theorem State.modSite_packets (n : Nat) (f : Site → Site) : (s.modSite n f).packets = s.packets := rfl
@[simp] theorem State.modSite_outbox (n : Nat) (f : Site → Site) : (s.modSite n f).outbox = s.outbox := rfl
@[simp] theorem State.modSite_pageReqs (n : Nat) (f : Site → Site) : (s.modSite n f).pageReqs = s.pageReqs := rfl
@[simp] theorem State.modSite_tasks (n : Nat) (f : Site → Site) : (s.modSite n f).tasks = s.tasks := rfl
@[simp] theorem State.modSite_seals (n : Nat) (f : Site → Site) : (s.modSite n f).seals = s.seals := rfl
@[simp] theorem State.modSite_sealHome (n : Nat) (f : Site → Site) : (s.modSite n f).sealHome = s.sealHome := rfl
@[simp] theorem State.modSite_sent (n : Nat) (f : Site → Site) : (s.modSite n f).sent = s.sent := rfl
@[simp] theorem State.modSite_arrivals (n : Nat) (f : Site → Site) : (s.modSite n f).arrivals = s.arrivals := rfl
@[simp] theorem State.modSite_commits (n : Nat) (f : Site → Site) : (s.modSite n f).commits = s.commits := rfl
@[simp] theorem State.modSite_netroot (n : Nat) (f : Site → Site) : (s.modSite n f).netroot = s.netroot := rfl
@[simp] theorem State.modSite_invalidations (n : Nat) (f : Site → Site) : (s.modSite n f).invalidations = s.invalidations := rfl
@[simp] theorem State.modSite_contexts (n : Nat) (f : Site → Site) : (s.modSite n f).contexts = s.contexts := rfl
@[simp] theorem State.modSite_heldSignals (n : Nat) (f : Site → Site) : (s.modSite n f).heldSignals = s.heldSignals := rfl
@[simp] theorem State.modSite_lups (n : Nat) (f : Site → Site) : (s.modSite n f).lups = s.lups := rfl
@[simp] theorem State.modSite_flash (n : Nat) (f : Site → Site) : (s.modSite n f).flash = s.flash := rfl
@[simp] theorem State.modSite_bootStage (n : Nat) (f : Site → Site) : (s.modSite n f).bootStage = s.bootStage := rfl
@[simp] theorem State.modSite_dbgstate (n : Nat) (f : Site → Site) : (s.modSite n f).dbgstate = s.dbgstate := rfl
@[simp] theorem State.modSite_hostLink (n : Nat) (f : Site → Site) : (s.modSite n f).hostLink = s.hostLink := rfl
@[simp] theorem State.modSite_hostOut (n : Nat) (f : Site → Site) : (s.modSite n f).hostOut = s.hostOut := rfl
@[simp] theorem State.modSite_debugOut (n : Nat) (f : Site → Site) : (s.modSite n f).debugOut = s.debugOut := rfl
@[simp] theorem State.modSite_dmapgen (n : Nat) (f : Site → Site) : (s.modSite n f).dmapgen = s.dmapgen := rfl
@[simp] theorem State.modSite_wtstatus (n : Nat) (f : Site → Site) : (s.modSite n f).wtstatus = s.wtstatus := rfl
@[simp] theorem State.modSite_mem (n : Nat) (f : Site → Site) : (s.modSite n f).mem = s.mem := rfl
@[simp] theorem State.modSite_unseen (n : Nat) (f : Site → Site) : (s.modSite n f).unseen = s.unseen := rfl
@[simp] theorem State.modSite_writes (n : Nat) (f : Site → Site) : (s.modSite n f).writes = s.writes := rfl
@[simp] theorem State.modSite_fences (n : Nat) (f : Site → Site) : (s.modSite n f).fences = s.fences := rfl
@[simp] theorem State.modSite_badDram (n : Nat) (f : Site → Site) : (s.modSite n f).badDram = s.badDram := rfl
@[simp] theorem State.modSite_moduleId (n : Nat) (f : Site → Site) : (s.modSite n f).moduleId = s.moduleId := rfl
@[simp] theorem State.modSite_nextLid (n : Nat) (f : Site → Site) : (s.modSite n f).nextLid = s.nextLid := rfl
@[simp] theorem State.modSite_stampSeq (n : Nat) (f : Site → Site) : (s.modSite n f).stampSeq = s.stampSeq := rfl
@[simp] theorem State.modSite_pastStamps (n : Nat) (f : Site → Site) : (s.modSite n f).pastStamps = s.pastStamps := rfl
@[simp] theorem State.modSite_clock (n : Nat) (f : Site → Site) : (s.modSite n f).clock = s.clock := rfl
@[simp] theorem State.modSite_tick (n : Nat) (f : Site → Site) : (s.modSite n f).tick = s.tick := rfl
@[simp] theorem State.modSite_timeBase (n : Nat) (f : Site → Site) : (s.modSite n f).timeBase = s.timeBase := rfl
@[simp] theorem State.modSite_slew (n : Nat) (f : Site → Site) : (s.modSite n f).slew = s.slew := rfl
@[simp] theorem State.modSite_agenda (n : Nat) (f : Site → Site) : (s.modSite n f).agenda = s.agenda := rfl
@[simp] theorem State.modSite_todo (n : Nat) (f : Site → Site) : (s.modSite n f).todo = s.todo := rfl
@[simp] theorem State.modSite_gang (n : Nat) (f : Site → Site) : (s.modSite n f).gang = s.gang := rfl
@[simp] theorem State.modSite_scribe (n : Nat) (f : Site → Site) : (s.modSite n f).scribe = s.scribe := rfl
@[simp] theorem State.modSite_stops (n : Nat) (f : Site → Site) : (s.modSite n f).stops = s.stops := rfl
@[simp] theorem State.modSite_serial (n : Nat) (f : Site → Site) : (s.modSite n f).serial = s.serial := rfl
@[simp] theorem State.modSite_free (n : Nat) (f : Site → Site) : (s.modSite n f).free = s.free := rfl

/-! modScribe -/

@[simp] theorem State.modScribe_threads (n : Nat) (f : ScribeCore → ScribeCore) : (s.modScribe n f).threads = s.threads := rfl
@[simp] theorem State.modScribe_squads (n : Nat) (f : ScribeCore → ScribeCore) : (s.modScribe n f).squads = s.squads := rfl
@[simp] theorem State.modScribe_teams (n : Nat) (f : ScribeCore → ScribeCore) : (s.modScribe n f).teams = s.teams := rfl
@[simp] theorem State.modScribe_launches (n : Nat) (f : ScribeCore → ScribeCore) : (s.modScribe n f).launches = s.launches := rfl
@[simp] theorem State.modScribe_cores (n : Nat) (f : ScribeCore → ScribeCore) : (s.modScribe n f).cores = s.cores := rfl
@[simp] theorem State.modScribe_sites (n : Nat) (f : ScribeCore → ScribeCore) : (s.modScribe n f).sites = s.sites := rfl
@[simp] theorem State.modScribe_queues (n : Nat) (f : ScribeCore → ScribeCore) : (s.modScribe n f).queues = s.queues := rfl
@[simp] theorem State.modScribe_commands (n : Nat) (f : ScribeCore → ScribeCore) : (s.modScribe n f).commands = s.commands := rfl
@[simp] theorem State.modScribe_packets (n : Nat) (f : ScribeCore → ScribeCore) : (s.modScribe n f).packets = s.packets := rfl
@[simp] theorem State.modScribe_outbox (n : Nat) (f : ScribeCore → ScribeCore) : (s.modScribe n f).outbox = s.outbox := rfl
@[simp] theorem State.modScribe_pageReqs (n : Nat) (f : ScribeCore → ScribeCore) : (s.modScribe n f).pageReqs = s.pageReqs := rfl
@[simp] theorem State.modScribe_tasks (n : Nat) (f : ScribeCore → ScribeCore) : (s.modScribe n f).tasks = s.tasks := rfl
@[simp] theorem State.modScribe_seals (n : Nat) (f : ScribeCore → ScribeCore) : (s.modScribe n f).seals = s.seals := rfl
@[simp] theorem State.modScribe_sealHome (n : Nat) (f : ScribeCore → ScribeCore) : (s.modScribe n f).sealHome = s.sealHome := rfl
@[simp] theorem State.modScribe_sent (n : Nat) (f : ScribeCore → ScribeCore) : (s.modScribe n f).sent = s.sent := rfl
@[simp] theorem State.modScribe_arrivals (n : Nat) (f : ScribeCore → ScribeCore) : (s.modScribe n f).arrivals = s.arrivals := rfl
@[simp] theorem State.modScribe_commits (n : Nat) (f : ScribeCore → ScribeCore) : (s.modScribe n f).commits = s.commits := rfl
@[simp] theorem State.modScribe_netroot (n : Nat) (f : ScribeCore → ScribeCore) : (s.modScribe n f).netroot = s.netroot := rfl
@[simp] theorem State.modScribe_invalidations (n : Nat) (f : ScribeCore → ScribeCore) : (s.modScribe n f).invalidations = s.invalidations := rfl
@[simp] theorem State.modScribe_contexts (n : Nat) (f : ScribeCore → ScribeCore) : (s.modScribe n f).contexts = s.contexts := rfl
@[simp] theorem State.modScribe_heldSignals (n : Nat) (f : ScribeCore → ScribeCore) : (s.modScribe n f).heldSignals = s.heldSignals := rfl
@[simp] theorem State.modScribe_lups (n : Nat) (f : ScribeCore → ScribeCore) : (s.modScribe n f).lups = s.lups := rfl
@[simp] theorem State.modScribe_flash (n : Nat) (f : ScribeCore → ScribeCore) : (s.modScribe n f).flash = s.flash := rfl
@[simp] theorem State.modScribe_bootStage (n : Nat) (f : ScribeCore → ScribeCore) : (s.modScribe n f).bootStage = s.bootStage := rfl
@[simp] theorem State.modScribe_dbgstate (n : Nat) (f : ScribeCore → ScribeCore) : (s.modScribe n f).dbgstate = s.dbgstate := rfl
@[simp] theorem State.modScribe_hostLink (n : Nat) (f : ScribeCore → ScribeCore) : (s.modScribe n f).hostLink = s.hostLink := rfl
@[simp] theorem State.modScribe_hostOut (n : Nat) (f : ScribeCore → ScribeCore) : (s.modScribe n f).hostOut = s.hostOut := rfl
@[simp] theorem State.modScribe_debugOut (n : Nat) (f : ScribeCore → ScribeCore) : (s.modScribe n f).debugOut = s.debugOut := rfl
@[simp] theorem State.modScribe_dmapgen (n : Nat) (f : ScribeCore → ScribeCore) : (s.modScribe n f).dmapgen = s.dmapgen := rfl
@[simp] theorem State.modScribe_wtstatus (n : Nat) (f : ScribeCore → ScribeCore) : (s.modScribe n f).wtstatus = s.wtstatus := rfl
@[simp] theorem State.modScribe_mem (n : Nat) (f : ScribeCore → ScribeCore) : (s.modScribe n f).mem = s.mem := rfl
@[simp] theorem State.modScribe_unseen (n : Nat) (f : ScribeCore → ScribeCore) : (s.modScribe n f).unseen = s.unseen := rfl
@[simp] theorem State.modScribe_writes (n : Nat) (f : ScribeCore → ScribeCore) : (s.modScribe n f).writes = s.writes := rfl
@[simp] theorem State.modScribe_fences (n : Nat) (f : ScribeCore → ScribeCore) : (s.modScribe n f).fences = s.fences := rfl
@[simp] theorem State.modScribe_badDram (n : Nat) (f : ScribeCore → ScribeCore) : (s.modScribe n f).badDram = s.badDram := rfl
@[simp] theorem State.modScribe_moduleId (n : Nat) (f : ScribeCore → ScribeCore) : (s.modScribe n f).moduleId = s.moduleId := rfl
@[simp] theorem State.modScribe_nextLid (n : Nat) (f : ScribeCore → ScribeCore) : (s.modScribe n f).nextLid = s.nextLid := rfl
@[simp] theorem State.modScribe_stampSeq (n : Nat) (f : ScribeCore → ScribeCore) : (s.modScribe n f).stampSeq = s.stampSeq := rfl
@[simp] theorem State.modScribe_pastStamps (n : Nat) (f : ScribeCore → ScribeCore) : (s.modScribe n f).pastStamps = s.pastStamps := rfl
@[simp] theorem State.modScribe_clock (n : Nat) (f : ScribeCore → ScribeCore) : (s.modScribe n f).clock = s.clock := rfl
@[simp] theorem State.modScribe_tick (n : Nat) (f : ScribeCore → ScribeCore) : (s.modScribe n f).tick = s.tick := rfl
@[simp] theorem State.modScribe_timeBase (n : Nat) (f : ScribeCore → ScribeCore) : (s.modScribe n f).timeBase = s.timeBase := rfl
@[simp] theorem State.modScribe_slew (n : Nat) (f : ScribeCore → ScribeCore) : (s.modScribe n f).slew = s.slew := rfl
@[simp] theorem State.modScribe_agenda (n : Nat) (f : ScribeCore → ScribeCore) : (s.modScribe n f).agenda = s.agenda := rfl
@[simp] theorem State.modScribe_todo (n : Nat) (f : ScribeCore → ScribeCore) : (s.modScribe n f).todo = s.todo := rfl
@[simp] theorem State.modScribe_gang (n : Nat) (f : ScribeCore → ScribeCore) : (s.modScribe n f).gang = s.gang := rfl
@[simp] theorem State.modScribe_scribe (n : Nat) (f : ScribeCore → ScribeCore) : (s.modScribe n f).scribe = s.scribe := rfl
@[simp] theorem State.modScribe_stops (n : Nat) (f : ScribeCore → ScribeCore) : (s.modScribe n f).stops = s.stops := rfl
@[simp] theorem State.modScribe_serial (n : Nat) (f : ScribeCore → ScribeCore) : (s.modScribe n f).serial = s.serial := rfl
@[simp] theorem State.modScribe_free (n : Nat) (f : ScribeCore → ScribeCore) : (s.modScribe n f).free = s.free := rfl

/-! modQueue -/

@[simp] theorem State.modQueue_threads (q : Nat) (f : LaunchQueue → LaunchQueue) : (s.modQueue q f).threads = s.threads := rfl
@[simp] theorem State.modQueue_squads (q : Nat) (f : LaunchQueue → LaunchQueue) : (s.modQueue q f).squads = s.squads := rfl
@[simp] theorem State.modQueue_teams (q : Nat) (f : LaunchQueue → LaunchQueue) : (s.modQueue q f).teams = s.teams := rfl
@[simp] theorem State.modQueue_launches (q : Nat) (f : LaunchQueue → LaunchQueue) : (s.modQueue q f).launches = s.launches := rfl
@[simp] theorem State.modQueue_cores (q : Nat) (f : LaunchQueue → LaunchQueue) : (s.modQueue q f).cores = s.cores := rfl
@[simp] theorem State.modQueue_sites (q : Nat) (f : LaunchQueue → LaunchQueue) : (s.modQueue q f).sites = s.sites := rfl
@[simp] theorem State.modQueue_scribes (q : Nat) (f : LaunchQueue → LaunchQueue) : (s.modQueue q f).scribes = s.scribes := rfl
@[simp] theorem State.modQueue_commands (q : Nat) (f : LaunchQueue → LaunchQueue) : (s.modQueue q f).commands = s.commands := rfl
@[simp] theorem State.modQueue_packets (q : Nat) (f : LaunchQueue → LaunchQueue) : (s.modQueue q f).packets = s.packets := rfl
@[simp] theorem State.modQueue_outbox (q : Nat) (f : LaunchQueue → LaunchQueue) : (s.modQueue q f).outbox = s.outbox := rfl
@[simp] theorem State.modQueue_pageReqs (q : Nat) (f : LaunchQueue → LaunchQueue) : (s.modQueue q f).pageReqs = s.pageReqs := rfl
@[simp] theorem State.modQueue_tasks (q : Nat) (f : LaunchQueue → LaunchQueue) : (s.modQueue q f).tasks = s.tasks := rfl
@[simp] theorem State.modQueue_seals (q : Nat) (f : LaunchQueue → LaunchQueue) : (s.modQueue q f).seals = s.seals := rfl
@[simp] theorem State.modQueue_sealHome (q : Nat) (f : LaunchQueue → LaunchQueue) : (s.modQueue q f).sealHome = s.sealHome := rfl
@[simp] theorem State.modQueue_sent (q : Nat) (f : LaunchQueue → LaunchQueue) : (s.modQueue q f).sent = s.sent := rfl
@[simp] theorem State.modQueue_arrivals (q : Nat) (f : LaunchQueue → LaunchQueue) : (s.modQueue q f).arrivals = s.arrivals := rfl
@[simp] theorem State.modQueue_commits (q : Nat) (f : LaunchQueue → LaunchQueue) : (s.modQueue q f).commits = s.commits := rfl
@[simp] theorem State.modQueue_netroot (q : Nat) (f : LaunchQueue → LaunchQueue) : (s.modQueue q f).netroot = s.netroot := rfl
@[simp] theorem State.modQueue_invalidations (q : Nat) (f : LaunchQueue → LaunchQueue) : (s.modQueue q f).invalidations = s.invalidations := rfl
@[simp] theorem State.modQueue_contexts (q : Nat) (f : LaunchQueue → LaunchQueue) : (s.modQueue q f).contexts = s.contexts := rfl
@[simp] theorem State.modQueue_heldSignals (q : Nat) (f : LaunchQueue → LaunchQueue) : (s.modQueue q f).heldSignals = s.heldSignals := rfl
@[simp] theorem State.modQueue_lups (q : Nat) (f : LaunchQueue → LaunchQueue) : (s.modQueue q f).lups = s.lups := rfl
@[simp] theorem State.modQueue_flash (q : Nat) (f : LaunchQueue → LaunchQueue) : (s.modQueue q f).flash = s.flash := rfl
@[simp] theorem State.modQueue_bootStage (q : Nat) (f : LaunchQueue → LaunchQueue) : (s.modQueue q f).bootStage = s.bootStage := rfl
@[simp] theorem State.modQueue_dbgstate (q : Nat) (f : LaunchQueue → LaunchQueue) : (s.modQueue q f).dbgstate = s.dbgstate := rfl
@[simp] theorem State.modQueue_hostLink (q : Nat) (f : LaunchQueue → LaunchQueue) : (s.modQueue q f).hostLink = s.hostLink := rfl
@[simp] theorem State.modQueue_hostOut (q : Nat) (f : LaunchQueue → LaunchQueue) : (s.modQueue q f).hostOut = s.hostOut := rfl
@[simp] theorem State.modQueue_debugOut (q : Nat) (f : LaunchQueue → LaunchQueue) : (s.modQueue q f).debugOut = s.debugOut := rfl
@[simp] theorem State.modQueue_dmapgen (q : Nat) (f : LaunchQueue → LaunchQueue) : (s.modQueue q f).dmapgen = s.dmapgen := rfl
@[simp] theorem State.modQueue_wtstatus (q : Nat) (f : LaunchQueue → LaunchQueue) : (s.modQueue q f).wtstatus = s.wtstatus := rfl
@[simp] theorem State.modQueue_mem (q : Nat) (f : LaunchQueue → LaunchQueue) : (s.modQueue q f).mem = s.mem := rfl
@[simp] theorem State.modQueue_unseen (q : Nat) (f : LaunchQueue → LaunchQueue) : (s.modQueue q f).unseen = s.unseen := rfl
@[simp] theorem State.modQueue_writes (q : Nat) (f : LaunchQueue → LaunchQueue) : (s.modQueue q f).writes = s.writes := rfl
@[simp] theorem State.modQueue_fences (q : Nat) (f : LaunchQueue → LaunchQueue) : (s.modQueue q f).fences = s.fences := rfl
@[simp] theorem State.modQueue_badDram (q : Nat) (f : LaunchQueue → LaunchQueue) : (s.modQueue q f).badDram = s.badDram := rfl
@[simp] theorem State.modQueue_moduleId (q : Nat) (f : LaunchQueue → LaunchQueue) : (s.modQueue q f).moduleId = s.moduleId := rfl
@[simp] theorem State.modQueue_nextLid (q : Nat) (f : LaunchQueue → LaunchQueue) : (s.modQueue q f).nextLid = s.nextLid := rfl
@[simp] theorem State.modQueue_stampSeq (q : Nat) (f : LaunchQueue → LaunchQueue) : (s.modQueue q f).stampSeq = s.stampSeq := rfl
@[simp] theorem State.modQueue_pastStamps (q : Nat) (f : LaunchQueue → LaunchQueue) : (s.modQueue q f).pastStamps = s.pastStamps := rfl
@[simp] theorem State.modQueue_clock (q : Nat) (f : LaunchQueue → LaunchQueue) : (s.modQueue q f).clock = s.clock := rfl
@[simp] theorem State.modQueue_tick (q : Nat) (f : LaunchQueue → LaunchQueue) : (s.modQueue q f).tick = s.tick := rfl
@[simp] theorem State.modQueue_timeBase (q : Nat) (f : LaunchQueue → LaunchQueue) : (s.modQueue q f).timeBase = s.timeBase := rfl
@[simp] theorem State.modQueue_slew (q : Nat) (f : LaunchQueue → LaunchQueue) : (s.modQueue q f).slew = s.slew := rfl
@[simp] theorem State.modQueue_agenda (q : Nat) (f : LaunchQueue → LaunchQueue) : (s.modQueue q f).agenda = s.agenda := rfl
@[simp] theorem State.modQueue_todo (q : Nat) (f : LaunchQueue → LaunchQueue) : (s.modQueue q f).todo = s.todo := rfl
@[simp] theorem State.modQueue_gang (q : Nat) (f : LaunchQueue → LaunchQueue) : (s.modQueue q f).gang = s.gang := rfl
@[simp] theorem State.modQueue_scribe (q : Nat) (f : LaunchQueue → LaunchQueue) : (s.modQueue q f).scribe = s.scribe := rfl
@[simp] theorem State.modQueue_stops (q : Nat) (f : LaunchQueue → LaunchQueue) : (s.modQueue q f).stops = s.stops := rfl
@[simp] theorem State.modQueue_serial (q : Nat) (f : LaunchQueue → LaunchQueue) : (s.modQueue q f).serial = s.serial := rfl
@[simp] theorem State.modQueue_free (q : Nat) (f : LaunchQueue → LaunchQueue) : (s.modQueue q f).free = s.free := rfl

/-! due -/

@[simp] theorem State.due_threads (e : Ev) (n : Nat) : (s.due e n).threads = s.threads := rfl
@[simp] theorem State.due_squads (e : Ev) (n : Nat) : (s.due e n).squads = s.squads := rfl
@[simp] theorem State.due_teams (e : Ev) (n : Nat) : (s.due e n).teams = s.teams := rfl
@[simp] theorem State.due_launches (e : Ev) (n : Nat) : (s.due e n).launches = s.launches := rfl
@[simp] theorem State.due_cores (e : Ev) (n : Nat) : (s.due e n).cores = s.cores := rfl
@[simp] theorem State.due_sites (e : Ev) (n : Nat) : (s.due e n).sites = s.sites := rfl
@[simp] theorem State.due_scribes (e : Ev) (n : Nat) : (s.due e n).scribes = s.scribes := rfl
@[simp] theorem State.due_queues (e : Ev) (n : Nat) : (s.due e n).queues = s.queues := rfl
@[simp] theorem State.due_commands (e : Ev) (n : Nat) : (s.due e n).commands = s.commands := rfl
@[simp] theorem State.due_packets (e : Ev) (n : Nat) : (s.due e n).packets = s.packets := rfl
@[simp] theorem State.due_outbox (e : Ev) (n : Nat) : (s.due e n).outbox = s.outbox := rfl
@[simp] theorem State.due_pageReqs (e : Ev) (n : Nat) : (s.due e n).pageReqs = s.pageReqs := rfl
@[simp] theorem State.due_tasks (e : Ev) (n : Nat) : (s.due e n).tasks = s.tasks := rfl
@[simp] theorem State.due_seals (e : Ev) (n : Nat) : (s.due e n).seals = s.seals := rfl
@[simp] theorem State.due_sealHome (e : Ev) (n : Nat) : (s.due e n).sealHome = s.sealHome := rfl
@[simp] theorem State.due_sent (e : Ev) (n : Nat) : (s.due e n).sent = s.sent := rfl
@[simp] theorem State.due_arrivals (e : Ev) (n : Nat) : (s.due e n).arrivals = s.arrivals := rfl
@[simp] theorem State.due_commits (e : Ev) (n : Nat) : (s.due e n).commits = s.commits := rfl
@[simp] theorem State.due_netroot (e : Ev) (n : Nat) : (s.due e n).netroot = s.netroot := rfl
@[simp] theorem State.due_invalidations (e : Ev) (n : Nat) : (s.due e n).invalidations = s.invalidations := rfl
@[simp] theorem State.due_contexts (e : Ev) (n : Nat) : (s.due e n).contexts = s.contexts := rfl
@[simp] theorem State.due_heldSignals (e : Ev) (n : Nat) : (s.due e n).heldSignals = s.heldSignals := rfl
@[simp] theorem State.due_lups (e : Ev) (n : Nat) : (s.due e n).lups = s.lups := rfl
@[simp] theorem State.due_flash (e : Ev) (n : Nat) : (s.due e n).flash = s.flash := rfl
@[simp] theorem State.due_bootStage (e : Ev) (n : Nat) : (s.due e n).bootStage = s.bootStage := rfl
@[simp] theorem State.due_dbgstate (e : Ev) (n : Nat) : (s.due e n).dbgstate = s.dbgstate := rfl
@[simp] theorem State.due_hostLink (e : Ev) (n : Nat) : (s.due e n).hostLink = s.hostLink := rfl
@[simp] theorem State.due_hostOut (e : Ev) (n : Nat) : (s.due e n).hostOut = s.hostOut := rfl
@[simp] theorem State.due_debugOut (e : Ev) (n : Nat) : (s.due e n).debugOut = s.debugOut := rfl
@[simp] theorem State.due_dmapgen (e : Ev) (n : Nat) : (s.due e n).dmapgen = s.dmapgen := rfl
@[simp] theorem State.due_wtstatus (e : Ev) (n : Nat) : (s.due e n).wtstatus = s.wtstatus := rfl
@[simp] theorem State.due_mem (e : Ev) (n : Nat) : (s.due e n).mem = s.mem := rfl
@[simp] theorem State.due_unseen (e : Ev) (n : Nat) : (s.due e n).unseen = s.unseen := rfl
@[simp] theorem State.due_writes (e : Ev) (n : Nat) : (s.due e n).writes = s.writes := rfl
@[simp] theorem State.due_fences (e : Ev) (n : Nat) : (s.due e n).fences = s.fences := rfl
@[simp] theorem State.due_badDram (e : Ev) (n : Nat) : (s.due e n).badDram = s.badDram := rfl
@[simp] theorem State.due_moduleId (e : Ev) (n : Nat) : (s.due e n).moduleId = s.moduleId := rfl
@[simp] theorem State.due_nextLid (e : Ev) (n : Nat) : (s.due e n).nextLid = s.nextLid := rfl
@[simp] theorem State.due_stampSeq (e : Ev) (n : Nat) : (s.due e n).stampSeq = s.stampSeq := rfl
@[simp] theorem State.due_pastStamps (e : Ev) (n : Nat) : (s.due e n).pastStamps = s.pastStamps := rfl
@[simp] theorem State.due_clock (e : Ev) (n : Nat) : (s.due e n).clock = s.clock := rfl
@[simp] theorem State.due_tick (e : Ev) (n : Nat) : (s.due e n).tick = s.tick := rfl
@[simp] theorem State.due_timeBase (e : Ev) (n : Nat) : (s.due e n).timeBase = s.timeBase := rfl
@[simp] theorem State.due_slew (e : Ev) (n : Nat) : (s.due e n).slew = s.slew := rfl
@[simp] theorem State.due_todo (e : Ev) (n : Nat) : (s.due e n).todo = s.todo := rfl
@[simp] theorem State.due_gang (e : Ev) (n : Nat) : (s.due e n).gang = s.gang := rfl
@[simp] theorem State.due_scribe (e : Ev) (n : Nat) : (s.due e n).scribe = s.scribe := rfl
@[simp] theorem State.due_stops (e : Ev) (n : Nat) : (s.due e n).stops = s.stops := rfl
@[simp] theorem State.due_serial (e : Ev) (n : Nat) : (s.due e n).serial = s.serial := rfl
@[simp] theorem State.due_free (e : Ev) (n : Nat) : (s.due e n).free = s.free := rfl

/-! wake -/

@[simp] theorem State.wake_squads (t : Tid) : (s.wake t).squads = s.squads := rfl
@[simp] theorem State.wake_teams (t : Tid) : (s.wake t).teams = s.teams := rfl
@[simp] theorem State.wake_launches (t : Tid) : (s.wake t).launches = s.launches := rfl
@[simp] theorem State.wake_cores (t : Tid) : (s.wake t).cores = s.cores := rfl
@[simp] theorem State.wake_sites (t : Tid) : (s.wake t).sites = s.sites := rfl
@[simp] theorem State.wake_scribes (t : Tid) : (s.wake t).scribes = s.scribes := rfl
@[simp] theorem State.wake_queues (t : Tid) : (s.wake t).queues = s.queues := rfl
@[simp] theorem State.wake_commands (t : Tid) : (s.wake t).commands = s.commands := rfl
@[simp] theorem State.wake_packets (t : Tid) : (s.wake t).packets = s.packets := rfl
@[simp] theorem State.wake_outbox (t : Tid) : (s.wake t).outbox = s.outbox := rfl
@[simp] theorem State.wake_pageReqs (t : Tid) : (s.wake t).pageReqs = s.pageReqs := rfl
@[simp] theorem State.wake_tasks (t : Tid) : (s.wake t).tasks = s.tasks := rfl
@[simp] theorem State.wake_seals (t : Tid) : (s.wake t).seals = s.seals := rfl
@[simp] theorem State.wake_sealHome (t : Tid) : (s.wake t).sealHome = s.sealHome := rfl
@[simp] theorem State.wake_sent (t : Tid) : (s.wake t).sent = s.sent := rfl
@[simp] theorem State.wake_arrivals (t : Tid) : (s.wake t).arrivals = s.arrivals := rfl
@[simp] theorem State.wake_commits (t : Tid) : (s.wake t).commits = s.commits := rfl
@[simp] theorem State.wake_netroot (t : Tid) : (s.wake t).netroot = s.netroot := rfl
@[simp] theorem State.wake_invalidations (t : Tid) : (s.wake t).invalidations = s.invalidations := rfl
@[simp] theorem State.wake_contexts (t : Tid) : (s.wake t).contexts = s.contexts := rfl
@[simp] theorem State.wake_heldSignals (t : Tid) : (s.wake t).heldSignals = s.heldSignals := rfl
@[simp] theorem State.wake_lups (t : Tid) : (s.wake t).lups = s.lups := rfl
@[simp] theorem State.wake_flash (t : Tid) : (s.wake t).flash = s.flash := rfl
@[simp] theorem State.wake_bootStage (t : Tid) : (s.wake t).bootStage = s.bootStage := rfl
@[simp] theorem State.wake_dbgstate (t : Tid) : (s.wake t).dbgstate = s.dbgstate := rfl
@[simp] theorem State.wake_hostLink (t : Tid) : (s.wake t).hostLink = s.hostLink := rfl
@[simp] theorem State.wake_hostOut (t : Tid) : (s.wake t).hostOut = s.hostOut := rfl
@[simp] theorem State.wake_debugOut (t : Tid) : (s.wake t).debugOut = s.debugOut := rfl
@[simp] theorem State.wake_dmapgen (t : Tid) : (s.wake t).dmapgen = s.dmapgen := rfl
@[simp] theorem State.wake_wtstatus (t : Tid) : (s.wake t).wtstatus = s.wtstatus := rfl
@[simp] theorem State.wake_mem (t : Tid) : (s.wake t).mem = s.mem := rfl
@[simp] theorem State.wake_unseen (t : Tid) : (s.wake t).unseen = s.unseen := rfl
@[simp] theorem State.wake_writes (t : Tid) : (s.wake t).writes = s.writes := rfl
@[simp] theorem State.wake_fences (t : Tid) : (s.wake t).fences = s.fences := rfl
@[simp] theorem State.wake_badDram (t : Tid) : (s.wake t).badDram = s.badDram := rfl
@[simp] theorem State.wake_moduleId (t : Tid) : (s.wake t).moduleId = s.moduleId := rfl
@[simp] theorem State.wake_nextLid (t : Tid) : (s.wake t).nextLid = s.nextLid := rfl
@[simp] theorem State.wake_stampSeq (t : Tid) : (s.wake t).stampSeq = s.stampSeq := rfl
@[simp] theorem State.wake_pastStamps (t : Tid) : (s.wake t).pastStamps = s.pastStamps := rfl
@[simp] theorem State.wake_clock (t : Tid) : (s.wake t).clock = s.clock := rfl
@[simp] theorem State.wake_tick (t : Tid) : (s.wake t).tick = s.tick := rfl
@[simp] theorem State.wake_timeBase (t : Tid) : (s.wake t).timeBase = s.timeBase := rfl
@[simp] theorem State.wake_slew (t : Tid) : (s.wake t).slew = s.slew := rfl
@[simp] theorem State.wake_agenda (t : Tid) : (s.wake t).agenda = s.agenda := rfl
@[simp] theorem State.wake_todo (t : Tid) : (s.wake t).todo = s.todo := rfl
@[simp] theorem State.wake_gang (t : Tid) : (s.wake t).gang = s.gang := rfl
@[simp] theorem State.wake_scribe (t : Tid) : (s.wake t).scribe = s.scribe := rfl
@[simp] theorem State.wake_stops (t : Tid) : (s.wake t).stops = s.stops := rfl
@[simp] theorem State.wake_serial (t : Tid) : (s.wake t).serial = s.serial := rfl
@[simp] theorem State.wake_free (t : Tid) : (s.wake t).free = s.free := rfl

/-! goto -/

@[simp] theorem State.goto_squads (t : Tid) (pc : DWord) : (s.goto t pc).squads = s.squads := rfl
@[simp] theorem State.goto_teams (t : Tid) (pc : DWord) : (s.goto t pc).teams = s.teams := rfl
@[simp] theorem State.goto_launches (t : Tid) (pc : DWord) : (s.goto t pc).launches = s.launches := rfl
@[simp] theorem State.goto_cores (t : Tid) (pc : DWord) : (s.goto t pc).cores = s.cores := rfl
@[simp] theorem State.goto_sites (t : Tid) (pc : DWord) : (s.goto t pc).sites = s.sites := rfl
@[simp] theorem State.goto_scribes (t : Tid) (pc : DWord) : (s.goto t pc).scribes = s.scribes := rfl
@[simp] theorem State.goto_queues (t : Tid) (pc : DWord) : (s.goto t pc).queues = s.queues := rfl
@[simp] theorem State.goto_commands (t : Tid) (pc : DWord) : (s.goto t pc).commands = s.commands := rfl
@[simp] theorem State.goto_packets (t : Tid) (pc : DWord) : (s.goto t pc).packets = s.packets := rfl
@[simp] theorem State.goto_outbox (t : Tid) (pc : DWord) : (s.goto t pc).outbox = s.outbox := rfl
@[simp] theorem State.goto_pageReqs (t : Tid) (pc : DWord) : (s.goto t pc).pageReqs = s.pageReqs := rfl
@[simp] theorem State.goto_tasks (t : Tid) (pc : DWord) : (s.goto t pc).tasks = s.tasks := rfl
@[simp] theorem State.goto_seals (t : Tid) (pc : DWord) : (s.goto t pc).seals = s.seals := rfl
@[simp] theorem State.goto_sealHome (t : Tid) (pc : DWord) : (s.goto t pc).sealHome = s.sealHome := rfl
@[simp] theorem State.goto_sent (t : Tid) (pc : DWord) : (s.goto t pc).sent = s.sent := rfl
@[simp] theorem State.goto_arrivals (t : Tid) (pc : DWord) : (s.goto t pc).arrivals = s.arrivals := rfl
@[simp] theorem State.goto_commits (t : Tid) (pc : DWord) : (s.goto t pc).commits = s.commits := rfl
@[simp] theorem State.goto_netroot (t : Tid) (pc : DWord) : (s.goto t pc).netroot = s.netroot := rfl
@[simp] theorem State.goto_invalidations (t : Tid) (pc : DWord) : (s.goto t pc).invalidations = s.invalidations := rfl
@[simp] theorem State.goto_contexts (t : Tid) (pc : DWord) : (s.goto t pc).contexts = s.contexts := rfl
@[simp] theorem State.goto_heldSignals (t : Tid) (pc : DWord) : (s.goto t pc).heldSignals = s.heldSignals := rfl
@[simp] theorem State.goto_lups (t : Tid) (pc : DWord) : (s.goto t pc).lups = s.lups := rfl
@[simp] theorem State.goto_flash (t : Tid) (pc : DWord) : (s.goto t pc).flash = s.flash := rfl
@[simp] theorem State.goto_bootStage (t : Tid) (pc : DWord) : (s.goto t pc).bootStage = s.bootStage := rfl
@[simp] theorem State.goto_dbgstate (t : Tid) (pc : DWord) : (s.goto t pc).dbgstate = s.dbgstate := rfl
@[simp] theorem State.goto_hostLink (t : Tid) (pc : DWord) : (s.goto t pc).hostLink = s.hostLink := rfl
@[simp] theorem State.goto_hostOut (t : Tid) (pc : DWord) : (s.goto t pc).hostOut = s.hostOut := rfl
@[simp] theorem State.goto_debugOut (t : Tid) (pc : DWord) : (s.goto t pc).debugOut = s.debugOut := rfl
@[simp] theorem State.goto_dmapgen (t : Tid) (pc : DWord) : (s.goto t pc).dmapgen = s.dmapgen := rfl
@[simp] theorem State.goto_wtstatus (t : Tid) (pc : DWord) : (s.goto t pc).wtstatus = s.wtstatus := rfl
@[simp] theorem State.goto_mem (t : Tid) (pc : DWord) : (s.goto t pc).mem = s.mem := rfl
@[simp] theorem State.goto_unseen (t : Tid) (pc : DWord) : (s.goto t pc).unseen = s.unseen := rfl
@[simp] theorem State.goto_writes (t : Tid) (pc : DWord) : (s.goto t pc).writes = s.writes := rfl
@[simp] theorem State.goto_fences (t : Tid) (pc : DWord) : (s.goto t pc).fences = s.fences := rfl
@[simp] theorem State.goto_badDram (t : Tid) (pc : DWord) : (s.goto t pc).badDram = s.badDram := rfl
@[simp] theorem State.goto_moduleId (t : Tid) (pc : DWord) : (s.goto t pc).moduleId = s.moduleId := rfl
@[simp] theorem State.goto_nextLid (t : Tid) (pc : DWord) : (s.goto t pc).nextLid = s.nextLid := rfl
@[simp] theorem State.goto_stampSeq (t : Tid) (pc : DWord) : (s.goto t pc).stampSeq = s.stampSeq := rfl
@[simp] theorem State.goto_pastStamps (t : Tid) (pc : DWord) : (s.goto t pc).pastStamps = s.pastStamps := rfl
@[simp] theorem State.goto_clock (t : Tid) (pc : DWord) : (s.goto t pc).clock = s.clock := rfl
@[simp] theorem State.goto_tick (t : Tid) (pc : DWord) : (s.goto t pc).tick = s.tick := rfl
@[simp] theorem State.goto_timeBase (t : Tid) (pc : DWord) : (s.goto t pc).timeBase = s.timeBase := rfl
@[simp] theorem State.goto_slew (t : Tid) (pc : DWord) : (s.goto t pc).slew = s.slew := rfl
@[simp] theorem State.goto_agenda (t : Tid) (pc : DWord) : (s.goto t pc).agenda = s.agenda := rfl
@[simp] theorem State.goto_todo (t : Tid) (pc : DWord) : (s.goto t pc).todo = s.todo := rfl
@[simp] theorem State.goto_gang (t : Tid) (pc : DWord) : (s.goto t pc).gang = s.gang := rfl
@[simp] theorem State.goto_scribe (t : Tid) (pc : DWord) : (s.goto t pc).scribe = s.scribe := rfl
@[simp] theorem State.goto_stops (t : Tid) (pc : DWord) : (s.goto t pc).stops = s.stops := rfl
@[simp] theorem State.goto_serial (t : Tid) (pc : DWord) : (s.goto t pc).serial = s.serial := rfl
@[simp] theorem State.goto_free (t : Tid) (pc : DWord) : (s.goto t pc).free = s.free := rfl

/-! issued -/

@[simp] theorem State.issued_squads (t : Tid) : (s.issued t).squads = s.squads := rfl
@[simp] theorem State.issued_teams (t : Tid) : (s.issued t).teams = s.teams := rfl
@[simp] theorem State.issued_launches (t : Tid) : (s.issued t).launches = s.launches := rfl
@[simp] theorem State.issued_cores (t : Tid) : (s.issued t).cores = s.cores := rfl
@[simp] theorem State.issued_sites (t : Tid) : (s.issued t).sites = s.sites := rfl
@[simp] theorem State.issued_scribes (t : Tid) : (s.issued t).scribes = s.scribes := rfl
@[simp] theorem State.issued_queues (t : Tid) : (s.issued t).queues = s.queues := rfl
@[simp] theorem State.issued_commands (t : Tid) : (s.issued t).commands = s.commands := rfl
@[simp] theorem State.issued_packets (t : Tid) : (s.issued t).packets = s.packets := rfl
@[simp] theorem State.issued_outbox (t : Tid) : (s.issued t).outbox = s.outbox := rfl
@[simp] theorem State.issued_pageReqs (t : Tid) : (s.issued t).pageReqs = s.pageReqs := rfl
@[simp] theorem State.issued_tasks (t : Tid) : (s.issued t).tasks = s.tasks := rfl
@[simp] theorem State.issued_seals (t : Tid) : (s.issued t).seals = s.seals := rfl
@[simp] theorem State.issued_sealHome (t : Tid) : (s.issued t).sealHome = s.sealHome := rfl
@[simp] theorem State.issued_sent (t : Tid) : (s.issued t).sent = s.sent := rfl
@[simp] theorem State.issued_arrivals (t : Tid) : (s.issued t).arrivals = s.arrivals := rfl
@[simp] theorem State.issued_commits (t : Tid) : (s.issued t).commits = s.commits := rfl
@[simp] theorem State.issued_netroot (t : Tid) : (s.issued t).netroot = s.netroot := rfl
@[simp] theorem State.issued_invalidations (t : Tid) : (s.issued t).invalidations = s.invalidations := rfl
@[simp] theorem State.issued_contexts (t : Tid) : (s.issued t).contexts = s.contexts := rfl
@[simp] theorem State.issued_heldSignals (t : Tid) : (s.issued t).heldSignals = s.heldSignals := rfl
@[simp] theorem State.issued_lups (t : Tid) : (s.issued t).lups = s.lups := rfl
@[simp] theorem State.issued_flash (t : Tid) : (s.issued t).flash = s.flash := rfl
@[simp] theorem State.issued_bootStage (t : Tid) : (s.issued t).bootStage = s.bootStage := rfl
@[simp] theorem State.issued_dbgstate (t : Tid) : (s.issued t).dbgstate = s.dbgstate := rfl
@[simp] theorem State.issued_hostLink (t : Tid) : (s.issued t).hostLink = s.hostLink := rfl
@[simp] theorem State.issued_hostOut (t : Tid) : (s.issued t).hostOut = s.hostOut := rfl
@[simp] theorem State.issued_debugOut (t : Tid) : (s.issued t).debugOut = s.debugOut := rfl
@[simp] theorem State.issued_dmapgen (t : Tid) : (s.issued t).dmapgen = s.dmapgen := rfl
@[simp] theorem State.issued_wtstatus (t : Tid) : (s.issued t).wtstatus = s.wtstatus := rfl
@[simp] theorem State.issued_mem (t : Tid) : (s.issued t).mem = s.mem := rfl
@[simp] theorem State.issued_unseen (t : Tid) : (s.issued t).unseen = s.unseen := rfl
@[simp] theorem State.issued_writes (t : Tid) : (s.issued t).writes = s.writes := rfl
@[simp] theorem State.issued_fences (t : Tid) : (s.issued t).fences = s.fences := rfl
@[simp] theorem State.issued_badDram (t : Tid) : (s.issued t).badDram = s.badDram := rfl
@[simp] theorem State.issued_moduleId (t : Tid) : (s.issued t).moduleId = s.moduleId := rfl
@[simp] theorem State.issued_nextLid (t : Tid) : (s.issued t).nextLid = s.nextLid := rfl
@[simp] theorem State.issued_stampSeq (t : Tid) : (s.issued t).stampSeq = s.stampSeq := rfl
@[simp] theorem State.issued_pastStamps (t : Tid) : (s.issued t).pastStamps = s.pastStamps := rfl
@[simp] theorem State.issued_clock (t : Tid) : (s.issued t).clock = s.clock := rfl
@[simp] theorem State.issued_tick (t : Tid) : (s.issued t).tick = s.tick := rfl
@[simp] theorem State.issued_timeBase (t : Tid) : (s.issued t).timeBase = s.timeBase := rfl
@[simp] theorem State.issued_slew (t : Tid) : (s.issued t).slew = s.slew := rfl
@[simp] theorem State.issued_agenda (t : Tid) : (s.issued t).agenda = s.agenda := rfl
@[simp] theorem State.issued_todo (t : Tid) : (s.issued t).todo = s.todo := rfl
@[simp] theorem State.issued_gang (t : Tid) : (s.issued t).gang = s.gang := rfl
@[simp] theorem State.issued_scribe (t : Tid) : (s.issued t).scribe = s.scribe := rfl
@[simp] theorem State.issued_stops (t : Tid) : (s.issued t).stops = s.stops := rfl
@[simp] theorem State.issued_serial (t : Tid) : (s.issued t).serial = s.serial := rfl
@[simp] theorem State.issued_free (t : Tid) : (s.issued t).free = s.free := rfl

/-! fence -/

@[simp] theorem State.fence_threads (f : Fence) (a : Party) : (s.fence f a).threads = s.threads := rfl
@[simp] theorem State.fence_squads (f : Fence) (a : Party) : (s.fence f a).squads = s.squads := rfl
@[simp] theorem State.fence_teams (f : Fence) (a : Party) : (s.fence f a).teams = s.teams := rfl
@[simp] theorem State.fence_launches (f : Fence) (a : Party) : (s.fence f a).launches = s.launches := rfl
@[simp] theorem State.fence_cores (f : Fence) (a : Party) : (s.fence f a).cores = s.cores := rfl
@[simp] theorem State.fence_sites (f : Fence) (a : Party) : (s.fence f a).sites = s.sites := rfl
@[simp] theorem State.fence_scribes (f : Fence) (a : Party) : (s.fence f a).scribes = s.scribes := rfl
@[simp] theorem State.fence_queues (f : Fence) (a : Party) : (s.fence f a).queues = s.queues := rfl
@[simp] theorem State.fence_commands (f : Fence) (a : Party) : (s.fence f a).commands = s.commands := rfl
@[simp] theorem State.fence_packets (f : Fence) (a : Party) : (s.fence f a).packets = s.packets := rfl
@[simp] theorem State.fence_outbox (f : Fence) (a : Party) : (s.fence f a).outbox = s.outbox := rfl
@[simp] theorem State.fence_pageReqs (f : Fence) (a : Party) : (s.fence f a).pageReqs = s.pageReqs := rfl
@[simp] theorem State.fence_tasks (f : Fence) (a : Party) : (s.fence f a).tasks = s.tasks := rfl
@[simp] theorem State.fence_seals (f : Fence) (a : Party) : (s.fence f a).seals = s.seals := rfl
@[simp] theorem State.fence_sealHome (f : Fence) (a : Party) : (s.fence f a).sealHome = s.sealHome := rfl
@[simp] theorem State.fence_sent (f : Fence) (a : Party) : (s.fence f a).sent = s.sent := rfl
@[simp] theorem State.fence_arrivals (f : Fence) (a : Party) : (s.fence f a).arrivals = s.arrivals := rfl
@[simp] theorem State.fence_commits (f : Fence) (a : Party) : (s.fence f a).commits = s.commits := rfl
@[simp] theorem State.fence_netroot (f : Fence) (a : Party) : (s.fence f a).netroot = s.netroot := rfl
@[simp] theorem State.fence_invalidations (f : Fence) (a : Party) : (s.fence f a).invalidations = s.invalidations := rfl
@[simp] theorem State.fence_contexts (f : Fence) (a : Party) : (s.fence f a).contexts = s.contexts := rfl
@[simp] theorem State.fence_heldSignals (f : Fence) (a : Party) : (s.fence f a).heldSignals = s.heldSignals := rfl
@[simp] theorem State.fence_lups (f : Fence) (a : Party) : (s.fence f a).lups = s.lups := rfl
@[simp] theorem State.fence_flash (f : Fence) (a : Party) : (s.fence f a).flash = s.flash := rfl
@[simp] theorem State.fence_bootStage (f : Fence) (a : Party) : (s.fence f a).bootStage = s.bootStage := rfl
@[simp] theorem State.fence_dbgstate (f : Fence) (a : Party) : (s.fence f a).dbgstate = s.dbgstate := rfl
@[simp] theorem State.fence_hostLink (f : Fence) (a : Party) : (s.fence f a).hostLink = s.hostLink := rfl
@[simp] theorem State.fence_hostOut (f : Fence) (a : Party) : (s.fence f a).hostOut = s.hostOut := rfl
@[simp] theorem State.fence_debugOut (f : Fence) (a : Party) : (s.fence f a).debugOut = s.debugOut := rfl
@[simp] theorem State.fence_dmapgen (f : Fence) (a : Party) : (s.fence f a).dmapgen = s.dmapgen := rfl
@[simp] theorem State.fence_wtstatus (f : Fence) (a : Party) : (s.fence f a).wtstatus = s.wtstatus := rfl
@[simp] theorem State.fence_mem (f : Fence) (a : Party) : (s.fence f a).mem = s.mem := rfl
@[simp] theorem State.fence_writes (f : Fence) (a : Party) : (s.fence f a).writes = s.writes := rfl
@[simp] theorem State.fence_fences (f : Fence) (a : Party) : (s.fence f a).fences = s.fences := rfl
@[simp] theorem State.fence_badDram (f : Fence) (a : Party) : (s.fence f a).badDram = s.badDram := rfl
@[simp] theorem State.fence_moduleId (f : Fence) (a : Party) : (s.fence f a).moduleId = s.moduleId := rfl
@[simp] theorem State.fence_nextLid (f : Fence) (a : Party) : (s.fence f a).nextLid = s.nextLid := rfl
@[simp] theorem State.fence_stampSeq (f : Fence) (a : Party) : (s.fence f a).stampSeq = s.stampSeq := rfl
@[simp] theorem State.fence_pastStamps (f : Fence) (a : Party) : (s.fence f a).pastStamps = s.pastStamps := rfl
@[simp] theorem State.fence_clock (f : Fence) (a : Party) : (s.fence f a).clock = s.clock := rfl
@[simp] theorem State.fence_tick (f : Fence) (a : Party) : (s.fence f a).tick = s.tick := rfl
@[simp] theorem State.fence_timeBase (f : Fence) (a : Party) : (s.fence f a).timeBase = s.timeBase := rfl
@[simp] theorem State.fence_slew (f : Fence) (a : Party) : (s.fence f a).slew = s.slew := rfl
@[simp] theorem State.fence_agenda (f : Fence) (a : Party) : (s.fence f a).agenda = s.agenda := rfl
@[simp] theorem State.fence_todo (f : Fence) (a : Party) : (s.fence f a).todo = s.todo := rfl
@[simp] theorem State.fence_gang (f : Fence) (a : Party) : (s.fence f a).gang = s.gang := rfl
@[simp] theorem State.fence_scribe (f : Fence) (a : Party) : (s.fence f a).scribe = s.scribe := rfl
@[simp] theorem State.fence_stops (f : Fence) (a : Party) : (s.fence f a).stops = s.stops := rfl
@[simp] theorem State.fence_serial (f : Fence) (a : Party) : (s.fence f a).serial = s.serial := rfl
@[simp] theorem State.fence_free (f : Fence) (a : Party) : (s.fence f a).free = s.free := rfl

/-! completeWrites -/

@[simp] theorem State.completeWrites_threads (o : Owed) : (s.completeWrites o).threads = s.threads := rfl
@[simp] theorem State.completeWrites_squads (o : Owed) : (s.completeWrites o).squads = s.squads := rfl
@[simp] theorem State.completeWrites_teams (o : Owed) : (s.completeWrites o).teams = s.teams := rfl
@[simp] theorem State.completeWrites_launches (o : Owed) : (s.completeWrites o).launches = s.launches := rfl
@[simp] theorem State.completeWrites_cores (o : Owed) : (s.completeWrites o).cores = s.cores := rfl
@[simp] theorem State.completeWrites_sites (o : Owed) : (s.completeWrites o).sites = s.sites := rfl
@[simp] theorem State.completeWrites_scribes (o : Owed) : (s.completeWrites o).scribes = s.scribes := rfl
@[simp] theorem State.completeWrites_queues (o : Owed) : (s.completeWrites o).queues = s.queues := rfl
@[simp] theorem State.completeWrites_commands (o : Owed) : (s.completeWrites o).commands = s.commands := rfl
@[simp] theorem State.completeWrites_packets (o : Owed) : (s.completeWrites o).packets = s.packets := rfl
@[simp] theorem State.completeWrites_outbox (o : Owed) : (s.completeWrites o).outbox = s.outbox := rfl
@[simp] theorem State.completeWrites_pageReqs (o : Owed) : (s.completeWrites o).pageReqs = s.pageReqs := rfl
@[simp] theorem State.completeWrites_tasks (o : Owed) : (s.completeWrites o).tasks = s.tasks := rfl
@[simp] theorem State.completeWrites_seals (o : Owed) : (s.completeWrites o).seals = s.seals := rfl
@[simp] theorem State.completeWrites_sealHome (o : Owed) : (s.completeWrites o).sealHome = s.sealHome := rfl
@[simp] theorem State.completeWrites_sent (o : Owed) : (s.completeWrites o).sent = s.sent := rfl
@[simp] theorem State.completeWrites_arrivals (o : Owed) : (s.completeWrites o).arrivals = s.arrivals := rfl
@[simp] theorem State.completeWrites_commits (o : Owed) : (s.completeWrites o).commits = s.commits := rfl
@[simp] theorem State.completeWrites_netroot (o : Owed) : (s.completeWrites o).netroot = s.netroot := rfl
@[simp] theorem State.completeWrites_invalidations (o : Owed) : (s.completeWrites o).invalidations = s.invalidations := rfl
@[simp] theorem State.completeWrites_contexts (o : Owed) : (s.completeWrites o).contexts = s.contexts := rfl
@[simp] theorem State.completeWrites_heldSignals (o : Owed) : (s.completeWrites o).heldSignals = s.heldSignals := rfl
@[simp] theorem State.completeWrites_lups (o : Owed) : (s.completeWrites o).lups = s.lups := rfl
@[simp] theorem State.completeWrites_flash (o : Owed) : (s.completeWrites o).flash = s.flash := rfl
@[simp] theorem State.completeWrites_bootStage (o : Owed) : (s.completeWrites o).bootStage = s.bootStage := rfl
@[simp] theorem State.completeWrites_dbgstate (o : Owed) : (s.completeWrites o).dbgstate = s.dbgstate := rfl
@[simp] theorem State.completeWrites_hostLink (o : Owed) : (s.completeWrites o).hostLink = s.hostLink := rfl
@[simp] theorem State.completeWrites_hostOut (o : Owed) : (s.completeWrites o).hostOut = s.hostOut := rfl
@[simp] theorem State.completeWrites_debugOut (o : Owed) : (s.completeWrites o).debugOut = s.debugOut := rfl
@[simp] theorem State.completeWrites_dmapgen (o : Owed) : (s.completeWrites o).dmapgen = s.dmapgen := rfl
@[simp] theorem State.completeWrites_wtstatus (o : Owed) : (s.completeWrites o).wtstatus = s.wtstatus := rfl
@[simp] theorem State.completeWrites_mem (o : Owed) : (s.completeWrites o).mem = s.mem := rfl
@[simp] theorem State.completeWrites_writes (o : Owed) : (s.completeWrites o).writes = s.writes := rfl
@[simp] theorem State.completeWrites_fences (o : Owed) : (s.completeWrites o).fences = s.fences := rfl
@[simp] theorem State.completeWrites_badDram (o : Owed) : (s.completeWrites o).badDram = s.badDram := rfl
@[simp] theorem State.completeWrites_moduleId (o : Owed) : (s.completeWrites o).moduleId = s.moduleId := rfl
@[simp] theorem State.completeWrites_nextLid (o : Owed) : (s.completeWrites o).nextLid = s.nextLid := rfl
@[simp] theorem State.completeWrites_stampSeq (o : Owed) : (s.completeWrites o).stampSeq = s.stampSeq := rfl
@[simp] theorem State.completeWrites_pastStamps (o : Owed) : (s.completeWrites o).pastStamps = s.pastStamps := rfl
@[simp] theorem State.completeWrites_clock (o : Owed) : (s.completeWrites o).clock = s.clock := rfl
@[simp] theorem State.completeWrites_tick (o : Owed) : (s.completeWrites o).tick = s.tick := rfl
@[simp] theorem State.completeWrites_timeBase (o : Owed) : (s.completeWrites o).timeBase = s.timeBase := rfl
@[simp] theorem State.completeWrites_slew (o : Owed) : (s.completeWrites o).slew = s.slew := rfl
@[simp] theorem State.completeWrites_agenda (o : Owed) : (s.completeWrites o).agenda = s.agenda := rfl
@[simp] theorem State.completeWrites_todo (o : Owed) : (s.completeWrites o).todo = s.todo := rfl
@[simp] theorem State.completeWrites_gang (o : Owed) : (s.completeWrites o).gang = s.gang := rfl
@[simp] theorem State.completeWrites_scribe (o : Owed) : (s.completeWrites o).scribe = s.scribe := rfl
@[simp] theorem State.completeWrites_stops (o : Owed) : (s.completeWrites o).stops = s.stops := rfl
@[simp] theorem State.completeWrites_serial (o : Owed) : (s.completeWrites o).serial = s.serial := rfl
@[simp] theorem State.completeWrites_free (o : Owed) : (s.completeWrites o).free = s.free := rfl

/-! sees -/

@[simp] theorem State.sees_threads (a : Party) (n : Nat) (l : Loc) (k : Nat) : (s.sees a n l k).threads = s.threads := rfl
@[simp] theorem State.sees_squads (a : Party) (n : Nat) (l : Loc) (k : Nat) : (s.sees a n l k).squads = s.squads := rfl
@[simp] theorem State.sees_teams (a : Party) (n : Nat) (l : Loc) (k : Nat) : (s.sees a n l k).teams = s.teams := rfl
@[simp] theorem State.sees_launches (a : Party) (n : Nat) (l : Loc) (k : Nat) : (s.sees a n l k).launches = s.launches := rfl
@[simp] theorem State.sees_cores (a : Party) (n : Nat) (l : Loc) (k : Nat) : (s.sees a n l k).cores = s.cores := rfl
@[simp] theorem State.sees_sites (a : Party) (n : Nat) (l : Loc) (k : Nat) : (s.sees a n l k).sites = s.sites := rfl
@[simp] theorem State.sees_scribes (a : Party) (n : Nat) (l : Loc) (k : Nat) : (s.sees a n l k).scribes = s.scribes := rfl
@[simp] theorem State.sees_queues (a : Party) (n : Nat) (l : Loc) (k : Nat) : (s.sees a n l k).queues = s.queues := rfl
@[simp] theorem State.sees_commands (a : Party) (n : Nat) (l : Loc) (k : Nat) : (s.sees a n l k).commands = s.commands := rfl
@[simp] theorem State.sees_packets (a : Party) (n : Nat) (l : Loc) (k : Nat) : (s.sees a n l k).packets = s.packets := rfl
@[simp] theorem State.sees_outbox (a : Party) (n : Nat) (l : Loc) (k : Nat) : (s.sees a n l k).outbox = s.outbox := rfl
@[simp] theorem State.sees_pageReqs (a : Party) (n : Nat) (l : Loc) (k : Nat) : (s.sees a n l k).pageReqs = s.pageReqs := rfl
@[simp] theorem State.sees_tasks (a : Party) (n : Nat) (l : Loc) (k : Nat) : (s.sees a n l k).tasks = s.tasks := rfl
@[simp] theorem State.sees_seals (a : Party) (n : Nat) (l : Loc) (k : Nat) : (s.sees a n l k).seals = s.seals := rfl
@[simp] theorem State.sees_sealHome (a : Party) (n : Nat) (l : Loc) (k : Nat) : (s.sees a n l k).sealHome = s.sealHome := rfl
@[simp] theorem State.sees_sent (a : Party) (n : Nat) (l : Loc) (k : Nat) : (s.sees a n l k).sent = s.sent := rfl
@[simp] theorem State.sees_arrivals (a : Party) (n : Nat) (l : Loc) (k : Nat) : (s.sees a n l k).arrivals = s.arrivals := rfl
@[simp] theorem State.sees_commits (a : Party) (n : Nat) (l : Loc) (k : Nat) : (s.sees a n l k).commits = s.commits := rfl
@[simp] theorem State.sees_netroot (a : Party) (n : Nat) (l : Loc) (k : Nat) : (s.sees a n l k).netroot = s.netroot := rfl
@[simp] theorem State.sees_invalidations (a : Party) (n : Nat) (l : Loc) (k : Nat) : (s.sees a n l k).invalidations = s.invalidations := rfl
@[simp] theorem State.sees_contexts (a : Party) (n : Nat) (l : Loc) (k : Nat) : (s.sees a n l k).contexts = s.contexts := rfl
@[simp] theorem State.sees_heldSignals (a : Party) (n : Nat) (l : Loc) (k : Nat) : (s.sees a n l k).heldSignals = s.heldSignals := rfl
@[simp] theorem State.sees_lups (a : Party) (n : Nat) (l : Loc) (k : Nat) : (s.sees a n l k).lups = s.lups := rfl
@[simp] theorem State.sees_flash (a : Party) (n : Nat) (l : Loc) (k : Nat) : (s.sees a n l k).flash = s.flash := rfl
@[simp] theorem State.sees_bootStage (a : Party) (n : Nat) (l : Loc) (k : Nat) : (s.sees a n l k).bootStage = s.bootStage := rfl
@[simp] theorem State.sees_dbgstate (a : Party) (n : Nat) (l : Loc) (k : Nat) : (s.sees a n l k).dbgstate = s.dbgstate := rfl
@[simp] theorem State.sees_hostLink (a : Party) (n : Nat) (l : Loc) (k : Nat) : (s.sees a n l k).hostLink = s.hostLink := rfl
@[simp] theorem State.sees_hostOut (a : Party) (n : Nat) (l : Loc) (k : Nat) : (s.sees a n l k).hostOut = s.hostOut := rfl
@[simp] theorem State.sees_debugOut (a : Party) (n : Nat) (l : Loc) (k : Nat) : (s.sees a n l k).debugOut = s.debugOut := rfl
@[simp] theorem State.sees_dmapgen (a : Party) (n : Nat) (l : Loc) (k : Nat) : (s.sees a n l k).dmapgen = s.dmapgen := rfl
@[simp] theorem State.sees_wtstatus (a : Party) (n : Nat) (l : Loc) (k : Nat) : (s.sees a n l k).wtstatus = s.wtstatus := rfl
@[simp] theorem State.sees_mem (a : Party) (n : Nat) (l : Loc) (k : Nat) : (s.sees a n l k).mem = s.mem := rfl
@[simp] theorem State.sees_writes (a : Party) (n : Nat) (l : Loc) (k : Nat) : (s.sees a n l k).writes = s.writes := rfl
@[simp] theorem State.sees_fences (a : Party) (n : Nat) (l : Loc) (k : Nat) : (s.sees a n l k).fences = s.fences := rfl
@[simp] theorem State.sees_badDram (a : Party) (n : Nat) (l : Loc) (k : Nat) : (s.sees a n l k).badDram = s.badDram := rfl
@[simp] theorem State.sees_moduleId (a : Party) (n : Nat) (l : Loc) (k : Nat) : (s.sees a n l k).moduleId = s.moduleId := rfl
@[simp] theorem State.sees_nextLid (a : Party) (n : Nat) (l : Loc) (k : Nat) : (s.sees a n l k).nextLid = s.nextLid := rfl
@[simp] theorem State.sees_stampSeq (a : Party) (n : Nat) (l : Loc) (k : Nat) : (s.sees a n l k).stampSeq = s.stampSeq := rfl
@[simp] theorem State.sees_pastStamps (a : Party) (n : Nat) (l : Loc) (k : Nat) : (s.sees a n l k).pastStamps = s.pastStamps := rfl
@[simp] theorem State.sees_clock (a : Party) (n : Nat) (l : Loc) (k : Nat) : (s.sees a n l k).clock = s.clock := rfl
@[simp] theorem State.sees_tick (a : Party) (n : Nat) (l : Loc) (k : Nat) : (s.sees a n l k).tick = s.tick := rfl
@[simp] theorem State.sees_timeBase (a : Party) (n : Nat) (l : Loc) (k : Nat) : (s.sees a n l k).timeBase = s.timeBase := rfl
@[simp] theorem State.sees_slew (a : Party) (n : Nat) (l : Loc) (k : Nat) : (s.sees a n l k).slew = s.slew := rfl
@[simp] theorem State.sees_agenda (a : Party) (n : Nat) (l : Loc) (k : Nat) : (s.sees a n l k).agenda = s.agenda := rfl
@[simp] theorem State.sees_todo (a : Party) (n : Nat) (l : Loc) (k : Nat) : (s.sees a n l k).todo = s.todo := rfl
@[simp] theorem State.sees_gang (a : Party) (n : Nat) (l : Loc) (k : Nat) : (s.sees a n l k).gang = s.gang := rfl
@[simp] theorem State.sees_scribe (a : Party) (n : Nat) (l : Loc) (k : Nat) : (s.sees a n l k).scribe = s.scribe := rfl
@[simp] theorem State.sees_stops (a : Party) (n : Nat) (l : Loc) (k : Nat) : (s.sees a n l k).stops = s.stops := rfl
@[simp] theorem State.sees_serial (a : Party) (n : Nat) (l : Loc) (k : Nat) : (s.sees a n l k).serial = s.serial := rfl
@[simp] theorem State.sees_free (a : Party) (n : Nat) (l : Loc) (k : Nat) : (s.sees a n l k).free = s.free := rfl

/-! settle -/

@[simp] theorem State.settle_threads (n : Nat) (l : Loc) (k : Nat) : (s.settle n l k).threads = s.threads := rfl
@[simp] theorem State.settle_squads (n : Nat) (l : Loc) (k : Nat) : (s.settle n l k).squads = s.squads := rfl
@[simp] theorem State.settle_teams (n : Nat) (l : Loc) (k : Nat) : (s.settle n l k).teams = s.teams := rfl
@[simp] theorem State.settle_launches (n : Nat) (l : Loc) (k : Nat) : (s.settle n l k).launches = s.launches := rfl
@[simp] theorem State.settle_cores (n : Nat) (l : Loc) (k : Nat) : (s.settle n l k).cores = s.cores := rfl
@[simp] theorem State.settle_sites (n : Nat) (l : Loc) (k : Nat) : (s.settle n l k).sites = s.sites := rfl
@[simp] theorem State.settle_scribes (n : Nat) (l : Loc) (k : Nat) : (s.settle n l k).scribes = s.scribes := rfl
@[simp] theorem State.settle_queues (n : Nat) (l : Loc) (k : Nat) : (s.settle n l k).queues = s.queues := rfl
@[simp] theorem State.settle_commands (n : Nat) (l : Loc) (k : Nat) : (s.settle n l k).commands = s.commands := rfl
@[simp] theorem State.settle_packets (n : Nat) (l : Loc) (k : Nat) : (s.settle n l k).packets = s.packets := rfl
@[simp] theorem State.settle_outbox (n : Nat) (l : Loc) (k : Nat) : (s.settle n l k).outbox = s.outbox := rfl
@[simp] theorem State.settle_pageReqs (n : Nat) (l : Loc) (k : Nat) : (s.settle n l k).pageReqs = s.pageReqs := rfl
@[simp] theorem State.settle_tasks (n : Nat) (l : Loc) (k : Nat) : (s.settle n l k).tasks = s.tasks := rfl
@[simp] theorem State.settle_seals (n : Nat) (l : Loc) (k : Nat) : (s.settle n l k).seals = s.seals := rfl
@[simp] theorem State.settle_sealHome (n : Nat) (l : Loc) (k : Nat) : (s.settle n l k).sealHome = s.sealHome := rfl
@[simp] theorem State.settle_sent (n : Nat) (l : Loc) (k : Nat) : (s.settle n l k).sent = s.sent := rfl
@[simp] theorem State.settle_arrivals (n : Nat) (l : Loc) (k : Nat) : (s.settle n l k).arrivals = s.arrivals := rfl
@[simp] theorem State.settle_commits (n : Nat) (l : Loc) (k : Nat) : (s.settle n l k).commits = s.commits := rfl
@[simp] theorem State.settle_netroot (n : Nat) (l : Loc) (k : Nat) : (s.settle n l k).netroot = s.netroot := rfl
@[simp] theorem State.settle_invalidations (n : Nat) (l : Loc) (k : Nat) : (s.settle n l k).invalidations = s.invalidations := rfl
@[simp] theorem State.settle_contexts (n : Nat) (l : Loc) (k : Nat) : (s.settle n l k).contexts = s.contexts := rfl
@[simp] theorem State.settle_heldSignals (n : Nat) (l : Loc) (k : Nat) : (s.settle n l k).heldSignals = s.heldSignals := rfl
@[simp] theorem State.settle_lups (n : Nat) (l : Loc) (k : Nat) : (s.settle n l k).lups = s.lups := rfl
@[simp] theorem State.settle_flash (n : Nat) (l : Loc) (k : Nat) : (s.settle n l k).flash = s.flash := rfl
@[simp] theorem State.settle_bootStage (n : Nat) (l : Loc) (k : Nat) : (s.settle n l k).bootStage = s.bootStage := rfl
@[simp] theorem State.settle_dbgstate (n : Nat) (l : Loc) (k : Nat) : (s.settle n l k).dbgstate = s.dbgstate := rfl
@[simp] theorem State.settle_hostLink (n : Nat) (l : Loc) (k : Nat) : (s.settle n l k).hostLink = s.hostLink := rfl
@[simp] theorem State.settle_hostOut (n : Nat) (l : Loc) (k : Nat) : (s.settle n l k).hostOut = s.hostOut := rfl
@[simp] theorem State.settle_debugOut (n : Nat) (l : Loc) (k : Nat) : (s.settle n l k).debugOut = s.debugOut := rfl
@[simp] theorem State.settle_dmapgen (n : Nat) (l : Loc) (k : Nat) : (s.settle n l k).dmapgen = s.dmapgen := rfl
@[simp] theorem State.settle_wtstatus (n : Nat) (l : Loc) (k : Nat) : (s.settle n l k).wtstatus = s.wtstatus := rfl
@[simp] theorem State.settle_mem (n : Nat) (l : Loc) (k : Nat) : (s.settle n l k).mem = s.mem := rfl
@[simp] theorem State.settle_writes (n : Nat) (l : Loc) (k : Nat) : (s.settle n l k).writes = s.writes := rfl
@[simp] theorem State.settle_fences (n : Nat) (l : Loc) (k : Nat) : (s.settle n l k).fences = s.fences := rfl
@[simp] theorem State.settle_badDram (n : Nat) (l : Loc) (k : Nat) : (s.settle n l k).badDram = s.badDram := rfl
@[simp] theorem State.settle_moduleId (n : Nat) (l : Loc) (k : Nat) : (s.settle n l k).moduleId = s.moduleId := rfl
@[simp] theorem State.settle_nextLid (n : Nat) (l : Loc) (k : Nat) : (s.settle n l k).nextLid = s.nextLid := rfl
@[simp] theorem State.settle_stampSeq (n : Nat) (l : Loc) (k : Nat) : (s.settle n l k).stampSeq = s.stampSeq := rfl
@[simp] theorem State.settle_pastStamps (n : Nat) (l : Loc) (k : Nat) : (s.settle n l k).pastStamps = s.pastStamps := rfl
@[simp] theorem State.settle_clock (n : Nat) (l : Loc) (k : Nat) : (s.settle n l k).clock = s.clock := rfl
@[simp] theorem State.settle_tick (n : Nat) (l : Loc) (k : Nat) : (s.settle n l k).tick = s.tick := rfl
@[simp] theorem State.settle_timeBase (n : Nat) (l : Loc) (k : Nat) : (s.settle n l k).timeBase = s.timeBase := rfl
@[simp] theorem State.settle_slew (n : Nat) (l : Loc) (k : Nat) : (s.settle n l k).slew = s.slew := rfl
@[simp] theorem State.settle_agenda (n : Nat) (l : Loc) (k : Nat) : (s.settle n l k).agenda = s.agenda := rfl
@[simp] theorem State.settle_todo (n : Nat) (l : Loc) (k : Nat) : (s.settle n l k).todo = s.todo := rfl
@[simp] theorem State.settle_gang (n : Nat) (l : Loc) (k : Nat) : (s.settle n l k).gang = s.gang := rfl
@[simp] theorem State.settle_scribe (n : Nat) (l : Loc) (k : Nat) : (s.settle n l k).scribe = s.scribe := rfl
@[simp] theorem State.settle_stops (n : Nat) (l : Loc) (k : Nat) : (s.settle n l k).stops = s.stops := rfl
@[simp] theorem State.settle_serial (n : Nat) (l : Loc) (k : Nat) : (s.settle n l k).serial = s.serial := rfl
@[simp] theorem State.settle_free (n : Nat) (l : Loc) (k : Nat) : (s.settle n l k).free = s.free := rfl

/-! settleTeam -/

@[simp] theorem State.settleTeam_threads (n : Nat) : (s.settleTeam n).threads = s.threads := rfl
@[simp] theorem State.settleTeam_squads (n : Nat) : (s.settleTeam n).squads = s.squads := rfl
@[simp] theorem State.settleTeam_teams (n : Nat) : (s.settleTeam n).teams = s.teams := rfl
@[simp] theorem State.settleTeam_launches (n : Nat) : (s.settleTeam n).launches = s.launches := rfl
@[simp] theorem State.settleTeam_cores (n : Nat) : (s.settleTeam n).cores = s.cores := rfl
@[simp] theorem State.settleTeam_sites (n : Nat) : (s.settleTeam n).sites = s.sites := rfl
@[simp] theorem State.settleTeam_scribes (n : Nat) : (s.settleTeam n).scribes = s.scribes := rfl
@[simp] theorem State.settleTeam_queues (n : Nat) : (s.settleTeam n).queues = s.queues := rfl
@[simp] theorem State.settleTeam_commands (n : Nat) : (s.settleTeam n).commands = s.commands := rfl
@[simp] theorem State.settleTeam_packets (n : Nat) : (s.settleTeam n).packets = s.packets := rfl
@[simp] theorem State.settleTeam_outbox (n : Nat) : (s.settleTeam n).outbox = s.outbox := rfl
@[simp] theorem State.settleTeam_pageReqs (n : Nat) : (s.settleTeam n).pageReqs = s.pageReqs := rfl
@[simp] theorem State.settleTeam_tasks (n : Nat) : (s.settleTeam n).tasks = s.tasks := rfl
@[simp] theorem State.settleTeam_seals (n : Nat) : (s.settleTeam n).seals = s.seals := rfl
@[simp] theorem State.settleTeam_sealHome (n : Nat) : (s.settleTeam n).sealHome = s.sealHome := rfl
@[simp] theorem State.settleTeam_sent (n : Nat) : (s.settleTeam n).sent = s.sent := rfl
@[simp] theorem State.settleTeam_arrivals (n : Nat) : (s.settleTeam n).arrivals = s.arrivals := rfl
@[simp] theorem State.settleTeam_commits (n : Nat) : (s.settleTeam n).commits = s.commits := rfl
@[simp] theorem State.settleTeam_netroot (n : Nat) : (s.settleTeam n).netroot = s.netroot := rfl
@[simp] theorem State.settleTeam_invalidations (n : Nat) : (s.settleTeam n).invalidations = s.invalidations := rfl
@[simp] theorem State.settleTeam_contexts (n : Nat) : (s.settleTeam n).contexts = s.contexts := rfl
@[simp] theorem State.settleTeam_heldSignals (n : Nat) : (s.settleTeam n).heldSignals = s.heldSignals := rfl
@[simp] theorem State.settleTeam_lups (n : Nat) : (s.settleTeam n).lups = s.lups := rfl
@[simp] theorem State.settleTeam_flash (n : Nat) : (s.settleTeam n).flash = s.flash := rfl
@[simp] theorem State.settleTeam_bootStage (n : Nat) : (s.settleTeam n).bootStage = s.bootStage := rfl
@[simp] theorem State.settleTeam_dbgstate (n : Nat) : (s.settleTeam n).dbgstate = s.dbgstate := rfl
@[simp] theorem State.settleTeam_hostLink (n : Nat) : (s.settleTeam n).hostLink = s.hostLink := rfl
@[simp] theorem State.settleTeam_hostOut (n : Nat) : (s.settleTeam n).hostOut = s.hostOut := rfl
@[simp] theorem State.settleTeam_debugOut (n : Nat) : (s.settleTeam n).debugOut = s.debugOut := rfl
@[simp] theorem State.settleTeam_dmapgen (n : Nat) : (s.settleTeam n).dmapgen = s.dmapgen := rfl
@[simp] theorem State.settleTeam_wtstatus (n : Nat) : (s.settleTeam n).wtstatus = s.wtstatus := rfl
@[simp] theorem State.settleTeam_mem (n : Nat) : (s.settleTeam n).mem = s.mem := rfl
@[simp] theorem State.settleTeam_writes (n : Nat) : (s.settleTeam n).writes = s.writes := rfl
@[simp] theorem State.settleTeam_fences (n : Nat) : (s.settleTeam n).fences = s.fences := rfl
@[simp] theorem State.settleTeam_badDram (n : Nat) : (s.settleTeam n).badDram = s.badDram := rfl
@[simp] theorem State.settleTeam_moduleId (n : Nat) : (s.settleTeam n).moduleId = s.moduleId := rfl
@[simp] theorem State.settleTeam_nextLid (n : Nat) : (s.settleTeam n).nextLid = s.nextLid := rfl
@[simp] theorem State.settleTeam_stampSeq (n : Nat) : (s.settleTeam n).stampSeq = s.stampSeq := rfl
@[simp] theorem State.settleTeam_pastStamps (n : Nat) : (s.settleTeam n).pastStamps = s.pastStamps := rfl
@[simp] theorem State.settleTeam_clock (n : Nat) : (s.settleTeam n).clock = s.clock := rfl
@[simp] theorem State.settleTeam_tick (n : Nat) : (s.settleTeam n).tick = s.tick := rfl
@[simp] theorem State.settleTeam_timeBase (n : Nat) : (s.settleTeam n).timeBase = s.timeBase := rfl
@[simp] theorem State.settleTeam_slew (n : Nat) : (s.settleTeam n).slew = s.slew := rfl
@[simp] theorem State.settleTeam_agenda (n : Nat) : (s.settleTeam n).agenda = s.agenda := rfl
@[simp] theorem State.settleTeam_todo (n : Nat) : (s.settleTeam n).todo = s.todo := rfl
@[simp] theorem State.settleTeam_gang (n : Nat) : (s.settleTeam n).gang = s.gang := rfl
@[simp] theorem State.settleTeam_scribe (n : Nat) : (s.settleTeam n).scribe = s.scribe := rfl
@[simp] theorem State.settleTeam_stops (n : Nat) : (s.settleTeam n).stops = s.stops := rfl
@[simp] theorem State.settleTeam_serial (n : Nat) : (s.settleTeam n).serial = s.serial := rfl
@[simp] theorem State.settleTeam_free (n : Nat) : (s.settleTeam n).free = s.free := rfl

/-! presentLine -/

@[simp] theorem State.presentLine_threads (n : Nat) (l : Nat × Nat) : (s.presentLine n l).threads = s.threads := rfl
@[simp] theorem State.presentLine_squads (n : Nat) (l : Nat × Nat) : (s.presentLine n l).squads = s.squads := rfl
@[simp] theorem State.presentLine_teams (n : Nat) (l : Nat × Nat) : (s.presentLine n l).teams = s.teams := rfl
@[simp] theorem State.presentLine_launches (n : Nat) (l : Nat × Nat) : (s.presentLine n l).launches = s.launches := rfl
@[simp] theorem State.presentLine_cores (n : Nat) (l : Nat × Nat) : (s.presentLine n l).cores = s.cores := rfl
@[simp] theorem State.presentLine_sites (n : Nat) (l : Nat × Nat) : (s.presentLine n l).sites = s.sites := rfl
@[simp] theorem State.presentLine_scribes (n : Nat) (l : Nat × Nat) : (s.presentLine n l).scribes = s.scribes := rfl
@[simp] theorem State.presentLine_queues (n : Nat) (l : Nat × Nat) : (s.presentLine n l).queues = s.queues := rfl
@[simp] theorem State.presentLine_commands (n : Nat) (l : Nat × Nat) : (s.presentLine n l).commands = s.commands := rfl
@[simp] theorem State.presentLine_packets (n : Nat) (l : Nat × Nat) : (s.presentLine n l).packets = s.packets := rfl
@[simp] theorem State.presentLine_outbox (n : Nat) (l : Nat × Nat) : (s.presentLine n l).outbox = s.outbox := rfl
@[simp] theorem State.presentLine_pageReqs (n : Nat) (l : Nat × Nat) : (s.presentLine n l).pageReqs = s.pageReqs := rfl
@[simp] theorem State.presentLine_tasks (n : Nat) (l : Nat × Nat) : (s.presentLine n l).tasks = s.tasks := rfl
@[simp] theorem State.presentLine_seals (n : Nat) (l : Nat × Nat) : (s.presentLine n l).seals = s.seals := rfl
@[simp] theorem State.presentLine_sealHome (n : Nat) (l : Nat × Nat) : (s.presentLine n l).sealHome = s.sealHome := rfl
@[simp] theorem State.presentLine_sent (n : Nat) (l : Nat × Nat) : (s.presentLine n l).sent = s.sent := rfl
@[simp] theorem State.presentLine_arrivals (n : Nat) (l : Nat × Nat) : (s.presentLine n l).arrivals = s.arrivals := rfl
@[simp] theorem State.presentLine_commits (n : Nat) (l : Nat × Nat) : (s.presentLine n l).commits = s.commits := rfl
@[simp] theorem State.presentLine_netroot (n : Nat) (l : Nat × Nat) : (s.presentLine n l).netroot = s.netroot := rfl
@[simp] theorem State.presentLine_invalidations (n : Nat) (l : Nat × Nat) : (s.presentLine n l).invalidations = s.invalidations := rfl
@[simp] theorem State.presentLine_contexts (n : Nat) (l : Nat × Nat) : (s.presentLine n l).contexts = s.contexts := rfl
@[simp] theorem State.presentLine_heldSignals (n : Nat) (l : Nat × Nat) : (s.presentLine n l).heldSignals = s.heldSignals := rfl
@[simp] theorem State.presentLine_lups (n : Nat) (l : Nat × Nat) : (s.presentLine n l).lups = s.lups := rfl
@[simp] theorem State.presentLine_flash (n : Nat) (l : Nat × Nat) : (s.presentLine n l).flash = s.flash := rfl
@[simp] theorem State.presentLine_bootStage (n : Nat) (l : Nat × Nat) : (s.presentLine n l).bootStage = s.bootStage := rfl
@[simp] theorem State.presentLine_dbgstate (n : Nat) (l : Nat × Nat) : (s.presentLine n l).dbgstate = s.dbgstate := rfl
@[simp] theorem State.presentLine_hostLink (n : Nat) (l : Nat × Nat) : (s.presentLine n l).hostLink = s.hostLink := rfl
@[simp] theorem State.presentLine_hostOut (n : Nat) (l : Nat × Nat) : (s.presentLine n l).hostOut = s.hostOut := rfl
@[simp] theorem State.presentLine_debugOut (n : Nat) (l : Nat × Nat) : (s.presentLine n l).debugOut = s.debugOut := rfl
@[simp] theorem State.presentLine_dmapgen (n : Nat) (l : Nat × Nat) : (s.presentLine n l).dmapgen = s.dmapgen := rfl
@[simp] theorem State.presentLine_wtstatus (n : Nat) (l : Nat × Nat) : (s.presentLine n l).wtstatus = s.wtstatus := rfl
@[simp] theorem State.presentLine_mem (n : Nat) (l : Nat × Nat) : (s.presentLine n l).mem = s.mem := rfl
@[simp] theorem State.presentLine_writes (n : Nat) (l : Nat × Nat) : (s.presentLine n l).writes = s.writes := rfl
@[simp] theorem State.presentLine_fences (n : Nat) (l : Nat × Nat) : (s.presentLine n l).fences = s.fences := rfl
@[simp] theorem State.presentLine_badDram (n : Nat) (l : Nat × Nat) : (s.presentLine n l).badDram = s.badDram := rfl
@[simp] theorem State.presentLine_moduleId (n : Nat) (l : Nat × Nat) : (s.presentLine n l).moduleId = s.moduleId := rfl
@[simp] theorem State.presentLine_nextLid (n : Nat) (l : Nat × Nat) : (s.presentLine n l).nextLid = s.nextLid := rfl
@[simp] theorem State.presentLine_stampSeq (n : Nat) (l : Nat × Nat) : (s.presentLine n l).stampSeq = s.stampSeq := rfl
@[simp] theorem State.presentLine_pastStamps (n : Nat) (l : Nat × Nat) : (s.presentLine n l).pastStamps = s.pastStamps := rfl
@[simp] theorem State.presentLine_clock (n : Nat) (l : Nat × Nat) : (s.presentLine n l).clock = s.clock := rfl
@[simp] theorem State.presentLine_tick (n : Nat) (l : Nat × Nat) : (s.presentLine n l).tick = s.tick := rfl
@[simp] theorem State.presentLine_timeBase (n : Nat) (l : Nat × Nat) : (s.presentLine n l).timeBase = s.timeBase := rfl
@[simp] theorem State.presentLine_slew (n : Nat) (l : Nat × Nat) : (s.presentLine n l).slew = s.slew := rfl
@[simp] theorem State.presentLine_agenda (n : Nat) (l : Nat × Nat) : (s.presentLine n l).agenda = s.agenda := rfl
@[simp] theorem State.presentLine_todo (n : Nat) (l : Nat × Nat) : (s.presentLine n l).todo = s.todo := rfl
@[simp] theorem State.presentLine_gang (n : Nat) (l : Nat × Nat) : (s.presentLine n l).gang = s.gang := rfl
@[simp] theorem State.presentLine_scribe (n : Nat) (l : Nat × Nat) : (s.presentLine n l).scribe = s.scribe := rfl
@[simp] theorem State.presentLine_stops (n : Nat) (l : Nat × Nat) : (s.presentLine n l).stops = s.stops := rfl
@[simp] theorem State.presentLine_serial (n : Nat) (l : Nat × Nat) : (s.presentLine n l).serial = s.serial := rfl
@[simp] theorem State.presentLine_free (n : Nat) (l : Nat × Nat) : (s.presentLine n l).free = s.free := rfl

/-! crossLine -/

@[simp] theorem State.crossLine_threads (n : Nat) (l : Nat × Nat) (a : Party) : (s.crossLine n l a).threads = s.threads := rfl
@[simp] theorem State.crossLine_squads (n : Nat) (l : Nat × Nat) (a : Party) : (s.crossLine n l a).squads = s.squads := rfl
@[simp] theorem State.crossLine_teams (n : Nat) (l : Nat × Nat) (a : Party) : (s.crossLine n l a).teams = s.teams := rfl
@[simp] theorem State.crossLine_launches (n : Nat) (l : Nat × Nat) (a : Party) : (s.crossLine n l a).launches = s.launches := rfl
@[simp] theorem State.crossLine_cores (n : Nat) (l : Nat × Nat) (a : Party) : (s.crossLine n l a).cores = s.cores := rfl
@[simp] theorem State.crossLine_sites (n : Nat) (l : Nat × Nat) (a : Party) : (s.crossLine n l a).sites = s.sites := rfl
@[simp] theorem State.crossLine_scribes (n : Nat) (l : Nat × Nat) (a : Party) : (s.crossLine n l a).scribes = s.scribes := rfl
@[simp] theorem State.crossLine_queues (n : Nat) (l : Nat × Nat) (a : Party) : (s.crossLine n l a).queues = s.queues := rfl
@[simp] theorem State.crossLine_commands (n : Nat) (l : Nat × Nat) (a : Party) : (s.crossLine n l a).commands = s.commands := rfl
@[simp] theorem State.crossLine_packets (n : Nat) (l : Nat × Nat) (a : Party) : (s.crossLine n l a).packets = s.packets := rfl
@[simp] theorem State.crossLine_outbox (n : Nat) (l : Nat × Nat) (a : Party) : (s.crossLine n l a).outbox = s.outbox := rfl
@[simp] theorem State.crossLine_pageReqs (n : Nat) (l : Nat × Nat) (a : Party) : (s.crossLine n l a).pageReqs = s.pageReqs := rfl
@[simp] theorem State.crossLine_tasks (n : Nat) (l : Nat × Nat) (a : Party) : (s.crossLine n l a).tasks = s.tasks := rfl
@[simp] theorem State.crossLine_seals (n : Nat) (l : Nat × Nat) (a : Party) : (s.crossLine n l a).seals = s.seals := rfl
@[simp] theorem State.crossLine_sealHome (n : Nat) (l : Nat × Nat) (a : Party) : (s.crossLine n l a).sealHome = s.sealHome := rfl
@[simp] theorem State.crossLine_sent (n : Nat) (l : Nat × Nat) (a : Party) : (s.crossLine n l a).sent = s.sent := rfl
@[simp] theorem State.crossLine_arrivals (n : Nat) (l : Nat × Nat) (a : Party) : (s.crossLine n l a).arrivals = s.arrivals := rfl
@[simp] theorem State.crossLine_commits (n : Nat) (l : Nat × Nat) (a : Party) : (s.crossLine n l a).commits = s.commits := rfl
@[simp] theorem State.crossLine_netroot (n : Nat) (l : Nat × Nat) (a : Party) : (s.crossLine n l a).netroot = s.netroot := rfl
@[simp] theorem State.crossLine_invalidations (n : Nat) (l : Nat × Nat) (a : Party) : (s.crossLine n l a).invalidations = s.invalidations := rfl
@[simp] theorem State.crossLine_contexts (n : Nat) (l : Nat × Nat) (a : Party) : (s.crossLine n l a).contexts = s.contexts := rfl
@[simp] theorem State.crossLine_heldSignals (n : Nat) (l : Nat × Nat) (a : Party) : (s.crossLine n l a).heldSignals = s.heldSignals := rfl
@[simp] theorem State.crossLine_lups (n : Nat) (l : Nat × Nat) (a : Party) : (s.crossLine n l a).lups = s.lups := rfl
@[simp] theorem State.crossLine_flash (n : Nat) (l : Nat × Nat) (a : Party) : (s.crossLine n l a).flash = s.flash := rfl
@[simp] theorem State.crossLine_bootStage (n : Nat) (l : Nat × Nat) (a : Party) : (s.crossLine n l a).bootStage = s.bootStage := rfl
@[simp] theorem State.crossLine_dbgstate (n : Nat) (l : Nat × Nat) (a : Party) : (s.crossLine n l a).dbgstate = s.dbgstate := rfl
@[simp] theorem State.crossLine_hostLink (n : Nat) (l : Nat × Nat) (a : Party) : (s.crossLine n l a).hostLink = s.hostLink := rfl
@[simp] theorem State.crossLine_hostOut (n : Nat) (l : Nat × Nat) (a : Party) : (s.crossLine n l a).hostOut = s.hostOut := rfl
@[simp] theorem State.crossLine_debugOut (n : Nat) (l : Nat × Nat) (a : Party) : (s.crossLine n l a).debugOut = s.debugOut := rfl
@[simp] theorem State.crossLine_dmapgen (n : Nat) (l : Nat × Nat) (a : Party) : (s.crossLine n l a).dmapgen = s.dmapgen := rfl
@[simp] theorem State.crossLine_wtstatus (n : Nat) (l : Nat × Nat) (a : Party) : (s.crossLine n l a).wtstatus = s.wtstatus := rfl
@[simp] theorem State.crossLine_mem (n : Nat) (l : Nat × Nat) (a : Party) : (s.crossLine n l a).mem = s.mem := rfl
@[simp] theorem State.crossLine_writes (n : Nat) (l : Nat × Nat) (a : Party) : (s.crossLine n l a).writes = s.writes := rfl
@[simp] theorem State.crossLine_fences (n : Nat) (l : Nat × Nat) (a : Party) : (s.crossLine n l a).fences = s.fences := rfl
@[simp] theorem State.crossLine_badDram (n : Nat) (l : Nat × Nat) (a : Party) : (s.crossLine n l a).badDram = s.badDram := rfl
@[simp] theorem State.crossLine_moduleId (n : Nat) (l : Nat × Nat) (a : Party) : (s.crossLine n l a).moduleId = s.moduleId := rfl
@[simp] theorem State.crossLine_nextLid (n : Nat) (l : Nat × Nat) (a : Party) : (s.crossLine n l a).nextLid = s.nextLid := rfl
@[simp] theorem State.crossLine_stampSeq (n : Nat) (l : Nat × Nat) (a : Party) : (s.crossLine n l a).stampSeq = s.stampSeq := rfl
@[simp] theorem State.crossLine_pastStamps (n : Nat) (l : Nat × Nat) (a : Party) : (s.crossLine n l a).pastStamps = s.pastStamps := rfl
@[simp] theorem State.crossLine_clock (n : Nat) (l : Nat × Nat) (a : Party) : (s.crossLine n l a).clock = s.clock := rfl
@[simp] theorem State.crossLine_tick (n : Nat) (l : Nat × Nat) (a : Party) : (s.crossLine n l a).tick = s.tick := rfl
@[simp] theorem State.crossLine_timeBase (n : Nat) (l : Nat × Nat) (a : Party) : (s.crossLine n l a).timeBase = s.timeBase := rfl
@[simp] theorem State.crossLine_slew (n : Nat) (l : Nat × Nat) (a : Party) : (s.crossLine n l a).slew = s.slew := rfl
@[simp] theorem State.crossLine_agenda (n : Nat) (l : Nat × Nat) (a : Party) : (s.crossLine n l a).agenda = s.agenda := rfl
@[simp] theorem State.crossLine_todo (n : Nat) (l : Nat × Nat) (a : Party) : (s.crossLine n l a).todo = s.todo := rfl
@[simp] theorem State.crossLine_gang (n : Nat) (l : Nat × Nat) (a : Party) : (s.crossLine n l a).gang = s.gang := rfl
@[simp] theorem State.crossLine_scribe (n : Nat) (l : Nat × Nat) (a : Party) : (s.crossLine n l a).scribe = s.scribe := rfl
@[simp] theorem State.crossLine_stops (n : Nat) (l : Nat × Nat) (a : Party) : (s.crossLine n l a).stops = s.stops := rfl
@[simp] theorem State.crossLine_serial (n : Nat) (l : Nat × Nat) (a : Party) : (s.crossLine n l a).serial = s.serial := rfl
@[simp] theorem State.crossLine_free (n : Nat) (l : Nat × Nat) (a : Party) : (s.crossLine n l a).free = s.free := rfl

/-! clearPass -/

@[simp] theorem State.clearPass_threads (n c : Nat) : (s.clearPass n c).threads = s.threads := rfl
@[simp] theorem State.clearPass_squads (n c : Nat) : (s.clearPass n c).squads = s.squads := rfl
@[simp] theorem State.clearPass_teams (n c : Nat) : (s.clearPass n c).teams = s.teams := rfl
@[simp] theorem State.clearPass_launches (n c : Nat) : (s.clearPass n c).launches = s.launches := rfl
@[simp] theorem State.clearPass_cores (n c : Nat) : (s.clearPass n c).cores = s.cores := rfl
@[simp] theorem State.clearPass_scribes (n c : Nat) : (s.clearPass n c).scribes = s.scribes := rfl
@[simp] theorem State.clearPass_queues (n c : Nat) : (s.clearPass n c).queues = s.queues := rfl
@[simp] theorem State.clearPass_commands (n c : Nat) : (s.clearPass n c).commands = s.commands := rfl
@[simp] theorem State.clearPass_packets (n c : Nat) : (s.clearPass n c).packets = s.packets := rfl
@[simp] theorem State.clearPass_outbox (n c : Nat) : (s.clearPass n c).outbox = s.outbox := rfl
@[simp] theorem State.clearPass_pageReqs (n c : Nat) : (s.clearPass n c).pageReqs = s.pageReqs := rfl
@[simp] theorem State.clearPass_tasks (n c : Nat) : (s.clearPass n c).tasks = s.tasks := rfl
@[simp] theorem State.clearPass_seals (n c : Nat) : (s.clearPass n c).seals = s.seals := rfl
@[simp] theorem State.clearPass_sealHome (n c : Nat) : (s.clearPass n c).sealHome = s.sealHome := rfl
@[simp] theorem State.clearPass_sent (n c : Nat) : (s.clearPass n c).sent = s.sent := rfl
@[simp] theorem State.clearPass_arrivals (n c : Nat) : (s.clearPass n c).arrivals = s.arrivals := rfl
@[simp] theorem State.clearPass_commits (n c : Nat) : (s.clearPass n c).commits = s.commits := rfl
@[simp] theorem State.clearPass_netroot (n c : Nat) : (s.clearPass n c).netroot = s.netroot := rfl
@[simp] theorem State.clearPass_invalidations (n c : Nat) : (s.clearPass n c).invalidations = s.invalidations := rfl
@[simp] theorem State.clearPass_contexts (n c : Nat) : (s.clearPass n c).contexts = s.contexts := rfl
@[simp] theorem State.clearPass_heldSignals (n c : Nat) : (s.clearPass n c).heldSignals = s.heldSignals := rfl
@[simp] theorem State.clearPass_lups (n c : Nat) : (s.clearPass n c).lups = s.lups := rfl
@[simp] theorem State.clearPass_flash (n c : Nat) : (s.clearPass n c).flash = s.flash := rfl
@[simp] theorem State.clearPass_bootStage (n c : Nat) : (s.clearPass n c).bootStage = s.bootStage := rfl
@[simp] theorem State.clearPass_dbgstate (n c : Nat) : (s.clearPass n c).dbgstate = s.dbgstate := rfl
@[simp] theorem State.clearPass_hostLink (n c : Nat) : (s.clearPass n c).hostLink = s.hostLink := rfl
@[simp] theorem State.clearPass_hostOut (n c : Nat) : (s.clearPass n c).hostOut = s.hostOut := rfl
@[simp] theorem State.clearPass_debugOut (n c : Nat) : (s.clearPass n c).debugOut = s.debugOut := rfl
@[simp] theorem State.clearPass_dmapgen (n c : Nat) : (s.clearPass n c).dmapgen = s.dmapgen := rfl
@[simp] theorem State.clearPass_wtstatus (n c : Nat) : (s.clearPass n c).wtstatus = s.wtstatus := rfl
@[simp] theorem State.clearPass_mem (n c : Nat) : (s.clearPass n c).mem = s.mem := rfl
@[simp] theorem State.clearPass_unseen (n c : Nat) : (s.clearPass n c).unseen = s.unseen := rfl
@[simp] theorem State.clearPass_writes (n c : Nat) : (s.clearPass n c).writes = s.writes := rfl
@[simp] theorem State.clearPass_fences (n c : Nat) : (s.clearPass n c).fences = s.fences := rfl
@[simp] theorem State.clearPass_badDram (n c : Nat) : (s.clearPass n c).badDram = s.badDram := rfl
@[simp] theorem State.clearPass_moduleId (n c : Nat) : (s.clearPass n c).moduleId = s.moduleId := rfl
@[simp] theorem State.clearPass_nextLid (n c : Nat) : (s.clearPass n c).nextLid = s.nextLid := rfl
@[simp] theorem State.clearPass_stampSeq (n c : Nat) : (s.clearPass n c).stampSeq = s.stampSeq := rfl
@[simp] theorem State.clearPass_pastStamps (n c : Nat) : (s.clearPass n c).pastStamps = s.pastStamps := rfl
@[simp] theorem State.clearPass_clock (n c : Nat) : (s.clearPass n c).clock = s.clock := rfl
@[simp] theorem State.clearPass_tick (n c : Nat) : (s.clearPass n c).tick = s.tick := rfl
@[simp] theorem State.clearPass_timeBase (n c : Nat) : (s.clearPass n c).timeBase = s.timeBase := rfl
@[simp] theorem State.clearPass_slew (n c : Nat) : (s.clearPass n c).slew = s.slew := rfl
@[simp] theorem State.clearPass_agenda (n c : Nat) : (s.clearPass n c).agenda = s.agenda := rfl
@[simp] theorem State.clearPass_todo (n c : Nat) : (s.clearPass n c).todo = s.todo := rfl
@[simp] theorem State.clearPass_gang (n c : Nat) : (s.clearPass n c).gang = s.gang := rfl
@[simp] theorem State.clearPass_scribe (n c : Nat) : (s.clearPass n c).scribe = s.scribe := rfl
@[simp] theorem State.clearPass_stops (n c : Nat) : (s.clearPass n c).stops = s.stops := rfl
@[simp] theorem State.clearPass_serial (n c : Nat) : (s.clearPass n c).serial = s.serial := rfl
@[simp] theorem State.clearPass_free (n c : Nat) : (s.clearPass n c).free = s.free := rfl

/-! toBack -/

@[simp] theorem State.toBack_threads (c : Nat) (qs : List Sid) : (s.toBack c qs).threads = s.threads := rfl
@[simp] theorem State.toBack_squads (c : Nat) (qs : List Sid) : (s.toBack c qs).squads = s.squads := rfl
@[simp] theorem State.toBack_teams (c : Nat) (qs : List Sid) : (s.toBack c qs).teams = s.teams := rfl
@[simp] theorem State.toBack_launches (c : Nat) (qs : List Sid) : (s.toBack c qs).launches = s.launches := rfl
@[simp] theorem State.toBack_sites (c : Nat) (qs : List Sid) : (s.toBack c qs).sites = s.sites := rfl
@[simp] theorem State.toBack_scribes (c : Nat) (qs : List Sid) : (s.toBack c qs).scribes = s.scribes := rfl
@[simp] theorem State.toBack_queues (c : Nat) (qs : List Sid) : (s.toBack c qs).queues = s.queues := rfl
@[simp] theorem State.toBack_commands (c : Nat) (qs : List Sid) : (s.toBack c qs).commands = s.commands := rfl
@[simp] theorem State.toBack_packets (c : Nat) (qs : List Sid) : (s.toBack c qs).packets = s.packets := rfl
@[simp] theorem State.toBack_outbox (c : Nat) (qs : List Sid) : (s.toBack c qs).outbox = s.outbox := rfl
@[simp] theorem State.toBack_pageReqs (c : Nat) (qs : List Sid) : (s.toBack c qs).pageReqs = s.pageReqs := rfl
@[simp] theorem State.toBack_tasks (c : Nat) (qs : List Sid) : (s.toBack c qs).tasks = s.tasks := rfl
@[simp] theorem State.toBack_seals (c : Nat) (qs : List Sid) : (s.toBack c qs).seals = s.seals := rfl
@[simp] theorem State.toBack_sealHome (c : Nat) (qs : List Sid) : (s.toBack c qs).sealHome = s.sealHome := rfl
@[simp] theorem State.toBack_sent (c : Nat) (qs : List Sid) : (s.toBack c qs).sent = s.sent := rfl
@[simp] theorem State.toBack_arrivals (c : Nat) (qs : List Sid) : (s.toBack c qs).arrivals = s.arrivals := rfl
@[simp] theorem State.toBack_commits (c : Nat) (qs : List Sid) : (s.toBack c qs).commits = s.commits := rfl
@[simp] theorem State.toBack_netroot (c : Nat) (qs : List Sid) : (s.toBack c qs).netroot = s.netroot := rfl
@[simp] theorem State.toBack_invalidations (c : Nat) (qs : List Sid) : (s.toBack c qs).invalidations = s.invalidations := rfl
@[simp] theorem State.toBack_contexts (c : Nat) (qs : List Sid) : (s.toBack c qs).contexts = s.contexts := rfl
@[simp] theorem State.toBack_heldSignals (c : Nat) (qs : List Sid) : (s.toBack c qs).heldSignals = s.heldSignals := rfl
@[simp] theorem State.toBack_lups (c : Nat) (qs : List Sid) : (s.toBack c qs).lups = s.lups := rfl
@[simp] theorem State.toBack_flash (c : Nat) (qs : List Sid) : (s.toBack c qs).flash = s.flash := rfl
@[simp] theorem State.toBack_bootStage (c : Nat) (qs : List Sid) : (s.toBack c qs).bootStage = s.bootStage := rfl
@[simp] theorem State.toBack_dbgstate (c : Nat) (qs : List Sid) : (s.toBack c qs).dbgstate = s.dbgstate := rfl
@[simp] theorem State.toBack_hostLink (c : Nat) (qs : List Sid) : (s.toBack c qs).hostLink = s.hostLink := rfl
@[simp] theorem State.toBack_hostOut (c : Nat) (qs : List Sid) : (s.toBack c qs).hostOut = s.hostOut := rfl
@[simp] theorem State.toBack_debugOut (c : Nat) (qs : List Sid) : (s.toBack c qs).debugOut = s.debugOut := rfl
@[simp] theorem State.toBack_dmapgen (c : Nat) (qs : List Sid) : (s.toBack c qs).dmapgen = s.dmapgen := rfl
@[simp] theorem State.toBack_wtstatus (c : Nat) (qs : List Sid) : (s.toBack c qs).wtstatus = s.wtstatus := rfl
@[simp] theorem State.toBack_mem (c : Nat) (qs : List Sid) : (s.toBack c qs).mem = s.mem := rfl
@[simp] theorem State.toBack_unseen (c : Nat) (qs : List Sid) : (s.toBack c qs).unseen = s.unseen := rfl
@[simp] theorem State.toBack_writes (c : Nat) (qs : List Sid) : (s.toBack c qs).writes = s.writes := rfl
@[simp] theorem State.toBack_fences (c : Nat) (qs : List Sid) : (s.toBack c qs).fences = s.fences := rfl
@[simp] theorem State.toBack_badDram (c : Nat) (qs : List Sid) : (s.toBack c qs).badDram = s.badDram := rfl
@[simp] theorem State.toBack_moduleId (c : Nat) (qs : List Sid) : (s.toBack c qs).moduleId = s.moduleId := rfl
@[simp] theorem State.toBack_nextLid (c : Nat) (qs : List Sid) : (s.toBack c qs).nextLid = s.nextLid := rfl
@[simp] theorem State.toBack_stampSeq (c : Nat) (qs : List Sid) : (s.toBack c qs).stampSeq = s.stampSeq := rfl
@[simp] theorem State.toBack_pastStamps (c : Nat) (qs : List Sid) : (s.toBack c qs).pastStamps = s.pastStamps := rfl
@[simp] theorem State.toBack_clock (c : Nat) (qs : List Sid) : (s.toBack c qs).clock = s.clock := rfl
@[simp] theorem State.toBack_tick (c : Nat) (qs : List Sid) : (s.toBack c qs).tick = s.tick := rfl
@[simp] theorem State.toBack_timeBase (c : Nat) (qs : List Sid) : (s.toBack c qs).timeBase = s.timeBase := rfl
@[simp] theorem State.toBack_slew (c : Nat) (qs : List Sid) : (s.toBack c qs).slew = s.slew := rfl
@[simp] theorem State.toBack_agenda (c : Nat) (qs : List Sid) : (s.toBack c qs).agenda = s.agenda := rfl
@[simp] theorem State.toBack_todo (c : Nat) (qs : List Sid) : (s.toBack c qs).todo = s.todo := rfl
@[simp] theorem State.toBack_gang (c : Nat) (qs : List Sid) : (s.toBack c qs).gang = s.gang := rfl
@[simp] theorem State.toBack_scribe (c : Nat) (qs : List Sid) : (s.toBack c qs).scribe = s.scribe := rfl
@[simp] theorem State.toBack_stops (c : Nat) (qs : List Sid) : (s.toBack c qs).stops = s.stops := rfl
@[simp] theorem State.toBack_serial (c : Nat) (qs : List Sid) : (s.toBack c qs).serial = s.serial := rfl
@[simp] theorem State.toBack_free (c : Nat) (qs : List Sid) : (s.toBack c qs).free = s.free := rfl

/-! modTeam -/

@[simp] theorem State.modTeam_threads (n : Nat) (f : Team → Team) : (s.modTeam n f).threads = s.threads := by
  unfold State.modTeam; split <;> rfl
@[simp] theorem State.modTeam_squads (n : Nat) (f : Team → Team) : (s.modTeam n f).squads = s.squads := by
  unfold State.modTeam; split <;> rfl
@[simp] theorem State.modTeam_launches (n : Nat) (f : Team → Team) : (s.modTeam n f).launches = s.launches := by
  unfold State.modTeam; split <;> rfl
@[simp] theorem State.modTeam_cores (n : Nat) (f : Team → Team) : (s.modTeam n f).cores = s.cores := by
  unfold State.modTeam; split <;> rfl
@[simp] theorem State.modTeam_sites (n : Nat) (f : Team → Team) : (s.modTeam n f).sites = s.sites := by
  unfold State.modTeam; split <;> rfl
@[simp] theorem State.modTeam_scribes (n : Nat) (f : Team → Team) : (s.modTeam n f).scribes = s.scribes := by
  unfold State.modTeam; split <;> rfl
@[simp] theorem State.modTeam_queues (n : Nat) (f : Team → Team) : (s.modTeam n f).queues = s.queues := by
  unfold State.modTeam; split <;> rfl
@[simp] theorem State.modTeam_commands (n : Nat) (f : Team → Team) : (s.modTeam n f).commands = s.commands := by
  unfold State.modTeam; split <;> rfl
@[simp] theorem State.modTeam_packets (n : Nat) (f : Team → Team) : (s.modTeam n f).packets = s.packets := by
  unfold State.modTeam; split <;> rfl
@[simp] theorem State.modTeam_outbox (n : Nat) (f : Team → Team) : (s.modTeam n f).outbox = s.outbox := by
  unfold State.modTeam; split <;> rfl
@[simp] theorem State.modTeam_pageReqs (n : Nat) (f : Team → Team) : (s.modTeam n f).pageReqs = s.pageReqs := by
  unfold State.modTeam; split <;> rfl
@[simp] theorem State.modTeam_tasks (n : Nat) (f : Team → Team) : (s.modTeam n f).tasks = s.tasks := by
  unfold State.modTeam; split <;> rfl
@[simp] theorem State.modTeam_seals (n : Nat) (f : Team → Team) : (s.modTeam n f).seals = s.seals := by
  unfold State.modTeam; split <;> rfl
@[simp] theorem State.modTeam_sealHome (n : Nat) (f : Team → Team) : (s.modTeam n f).sealHome = s.sealHome := by
  unfold State.modTeam; split <;> rfl
@[simp] theorem State.modTeam_sent (n : Nat) (f : Team → Team) : (s.modTeam n f).sent = s.sent := by
  unfold State.modTeam; split <;> rfl
@[simp] theorem State.modTeam_arrivals (n : Nat) (f : Team → Team) : (s.modTeam n f).arrivals = s.arrivals := by
  unfold State.modTeam; split <;> rfl
@[simp] theorem State.modTeam_commits (n : Nat) (f : Team → Team) : (s.modTeam n f).commits = s.commits := by
  unfold State.modTeam; split <;> rfl
@[simp] theorem State.modTeam_netroot (n : Nat) (f : Team → Team) : (s.modTeam n f).netroot = s.netroot := by
  unfold State.modTeam; split <;> rfl
@[simp] theorem State.modTeam_invalidations (n : Nat) (f : Team → Team) : (s.modTeam n f).invalidations = s.invalidations := by
  unfold State.modTeam; split <;> rfl
@[simp] theorem State.modTeam_contexts (n : Nat) (f : Team → Team) : (s.modTeam n f).contexts = s.contexts := by
  unfold State.modTeam; split <;> rfl
@[simp] theorem State.modTeam_heldSignals (n : Nat) (f : Team → Team) : (s.modTeam n f).heldSignals = s.heldSignals := by
  unfold State.modTeam; split <;> rfl
@[simp] theorem State.modTeam_lups (n : Nat) (f : Team → Team) : (s.modTeam n f).lups = s.lups := by
  unfold State.modTeam; split <;> rfl
@[simp] theorem State.modTeam_flash (n : Nat) (f : Team → Team) : (s.modTeam n f).flash = s.flash := by
  unfold State.modTeam; split <;> rfl
@[simp] theorem State.modTeam_bootStage (n : Nat) (f : Team → Team) : (s.modTeam n f).bootStage = s.bootStage := by
  unfold State.modTeam; split <;> rfl
@[simp] theorem State.modTeam_dbgstate (n : Nat) (f : Team → Team) : (s.modTeam n f).dbgstate = s.dbgstate := by
  unfold State.modTeam; split <;> rfl
@[simp] theorem State.modTeam_hostLink (n : Nat) (f : Team → Team) : (s.modTeam n f).hostLink = s.hostLink := by
  unfold State.modTeam; split <;> rfl
@[simp] theorem State.modTeam_hostOut (n : Nat) (f : Team → Team) : (s.modTeam n f).hostOut = s.hostOut := by
  unfold State.modTeam; split <;> rfl
@[simp] theorem State.modTeam_debugOut (n : Nat) (f : Team → Team) : (s.modTeam n f).debugOut = s.debugOut := by
  unfold State.modTeam; split <;> rfl
@[simp] theorem State.modTeam_dmapgen (n : Nat) (f : Team → Team) : (s.modTeam n f).dmapgen = s.dmapgen := by
  unfold State.modTeam; split <;> rfl
@[simp] theorem State.modTeam_wtstatus (n : Nat) (f : Team → Team) : (s.modTeam n f).wtstatus = s.wtstatus := by
  unfold State.modTeam; split <;> rfl
@[simp] theorem State.modTeam_mem (n : Nat) (f : Team → Team) : (s.modTeam n f).mem = s.mem := by
  unfold State.modTeam; split <;> rfl
@[simp] theorem State.modTeam_unseen (n : Nat) (f : Team → Team) : (s.modTeam n f).unseen = s.unseen := by
  unfold State.modTeam; split <;> rfl
@[simp] theorem State.modTeam_writes (n : Nat) (f : Team → Team) : (s.modTeam n f).writes = s.writes := by
  unfold State.modTeam; split <;> rfl
@[simp] theorem State.modTeam_fences (n : Nat) (f : Team → Team) : (s.modTeam n f).fences = s.fences := by
  unfold State.modTeam; split <;> rfl
@[simp] theorem State.modTeam_badDram (n : Nat) (f : Team → Team) : (s.modTeam n f).badDram = s.badDram := by
  unfold State.modTeam; split <;> rfl
@[simp] theorem State.modTeam_moduleId (n : Nat) (f : Team → Team) : (s.modTeam n f).moduleId = s.moduleId := by
  unfold State.modTeam; split <;> rfl
@[simp] theorem State.modTeam_nextLid (n : Nat) (f : Team → Team) : (s.modTeam n f).nextLid = s.nextLid := by
  unfold State.modTeam; split <;> rfl
@[simp] theorem State.modTeam_stampSeq (n : Nat) (f : Team → Team) : (s.modTeam n f).stampSeq = s.stampSeq := by
  unfold State.modTeam; split <;> rfl
@[simp] theorem State.modTeam_pastStamps (n : Nat) (f : Team → Team) : (s.modTeam n f).pastStamps = s.pastStamps := by
  unfold State.modTeam; split <;> rfl
@[simp] theorem State.modTeam_clock (n : Nat) (f : Team → Team) : (s.modTeam n f).clock = s.clock := by
  unfold State.modTeam; split <;> rfl
@[simp] theorem State.modTeam_tick (n : Nat) (f : Team → Team) : (s.modTeam n f).tick = s.tick := by
  unfold State.modTeam; split <;> rfl
@[simp] theorem State.modTeam_timeBase (n : Nat) (f : Team → Team) : (s.modTeam n f).timeBase = s.timeBase := by
  unfold State.modTeam; split <;> rfl
@[simp] theorem State.modTeam_slew (n : Nat) (f : Team → Team) : (s.modTeam n f).slew = s.slew := by
  unfold State.modTeam; split <;> rfl
@[simp] theorem State.modTeam_agenda (n : Nat) (f : Team → Team) : (s.modTeam n f).agenda = s.agenda := by
  unfold State.modTeam; split <;> rfl
@[simp] theorem State.modTeam_todo (n : Nat) (f : Team → Team) : (s.modTeam n f).todo = s.todo := by
  unfold State.modTeam; split <;> rfl
@[simp] theorem State.modTeam_gang (n : Nat) (f : Team → Team) : (s.modTeam n f).gang = s.gang := by
  unfold State.modTeam; split <;> rfl
@[simp] theorem State.modTeam_scribe (n : Nat) (f : Team → Team) : (s.modTeam n f).scribe = s.scribe := by
  unfold State.modTeam; split <;> rfl
@[simp] theorem State.modTeam_stops (n : Nat) (f : Team → Team) : (s.modTeam n f).stops = s.stops := by
  unfold State.modTeam; split <;> rfl
@[simp] theorem State.modTeam_serial (n : Nat) (f : Team → Team) : (s.modTeam n f).serial = s.serial := by
  unfold State.modTeam; split <;> rfl
@[simp] theorem State.modTeam_free (n : Nat) (f : Team → Team) : (s.modTeam n f).free = s.free := by
  unfold State.modTeam; split <;> rfl

/-! modLaunch -/

@[simp] theorem State.modLaunch_threads (l : Nat) (f : Launch → Launch) : (s.modLaunch l f).threads = s.threads := by
  unfold State.modLaunch; split <;> rfl
@[simp] theorem State.modLaunch_squads (l : Nat) (f : Launch → Launch) : (s.modLaunch l f).squads = s.squads := by
  unfold State.modLaunch; split <;> rfl
@[simp] theorem State.modLaunch_teams (l : Nat) (f : Launch → Launch) : (s.modLaunch l f).teams = s.teams := by
  unfold State.modLaunch; split <;> rfl
@[simp] theorem State.modLaunch_cores (l : Nat) (f : Launch → Launch) : (s.modLaunch l f).cores = s.cores := by
  unfold State.modLaunch; split <;> rfl
@[simp] theorem State.modLaunch_sites (l : Nat) (f : Launch → Launch) : (s.modLaunch l f).sites = s.sites := by
  unfold State.modLaunch; split <;> rfl
@[simp] theorem State.modLaunch_scribes (l : Nat) (f : Launch → Launch) : (s.modLaunch l f).scribes = s.scribes := by
  unfold State.modLaunch; split <;> rfl
@[simp] theorem State.modLaunch_queues (l : Nat) (f : Launch → Launch) : (s.modLaunch l f).queues = s.queues := by
  unfold State.modLaunch; split <;> rfl
@[simp] theorem State.modLaunch_commands (l : Nat) (f : Launch → Launch) : (s.modLaunch l f).commands = s.commands := by
  unfold State.modLaunch; split <;> rfl
@[simp] theorem State.modLaunch_packets (l : Nat) (f : Launch → Launch) : (s.modLaunch l f).packets = s.packets := by
  unfold State.modLaunch; split <;> rfl
@[simp] theorem State.modLaunch_outbox (l : Nat) (f : Launch → Launch) : (s.modLaunch l f).outbox = s.outbox := by
  unfold State.modLaunch; split <;> rfl
@[simp] theorem State.modLaunch_pageReqs (l : Nat) (f : Launch → Launch) : (s.modLaunch l f).pageReqs = s.pageReqs := by
  unfold State.modLaunch; split <;> rfl
@[simp] theorem State.modLaunch_tasks (l : Nat) (f : Launch → Launch) : (s.modLaunch l f).tasks = s.tasks := by
  unfold State.modLaunch; split <;> rfl
@[simp] theorem State.modLaunch_seals (l : Nat) (f : Launch → Launch) : (s.modLaunch l f).seals = s.seals := by
  unfold State.modLaunch; split <;> rfl
@[simp] theorem State.modLaunch_sealHome (l : Nat) (f : Launch → Launch) : (s.modLaunch l f).sealHome = s.sealHome := by
  unfold State.modLaunch; split <;> rfl
@[simp] theorem State.modLaunch_sent (l : Nat) (f : Launch → Launch) : (s.modLaunch l f).sent = s.sent := by
  unfold State.modLaunch; split <;> rfl
@[simp] theorem State.modLaunch_arrivals (l : Nat) (f : Launch → Launch) : (s.modLaunch l f).arrivals = s.arrivals := by
  unfold State.modLaunch; split <;> rfl
@[simp] theorem State.modLaunch_commits (l : Nat) (f : Launch → Launch) : (s.modLaunch l f).commits = s.commits := by
  unfold State.modLaunch; split <;> rfl
@[simp] theorem State.modLaunch_netroot (l : Nat) (f : Launch → Launch) : (s.modLaunch l f).netroot = s.netroot := by
  unfold State.modLaunch; split <;> rfl
@[simp] theorem State.modLaunch_invalidations (l : Nat) (f : Launch → Launch) : (s.modLaunch l f).invalidations = s.invalidations := by
  unfold State.modLaunch; split <;> rfl
@[simp] theorem State.modLaunch_contexts (l : Nat) (f : Launch → Launch) : (s.modLaunch l f).contexts = s.contexts := by
  unfold State.modLaunch; split <;> rfl
@[simp] theorem State.modLaunch_heldSignals (l : Nat) (f : Launch → Launch) : (s.modLaunch l f).heldSignals = s.heldSignals := by
  unfold State.modLaunch; split <;> rfl
@[simp] theorem State.modLaunch_lups (l : Nat) (f : Launch → Launch) : (s.modLaunch l f).lups = s.lups := by
  unfold State.modLaunch; split <;> rfl
@[simp] theorem State.modLaunch_flash (l : Nat) (f : Launch → Launch) : (s.modLaunch l f).flash = s.flash := by
  unfold State.modLaunch; split <;> rfl
@[simp] theorem State.modLaunch_bootStage (l : Nat) (f : Launch → Launch) : (s.modLaunch l f).bootStage = s.bootStage := by
  unfold State.modLaunch; split <;> rfl
@[simp] theorem State.modLaunch_dbgstate (l : Nat) (f : Launch → Launch) : (s.modLaunch l f).dbgstate = s.dbgstate := by
  unfold State.modLaunch; split <;> rfl
@[simp] theorem State.modLaunch_hostLink (l : Nat) (f : Launch → Launch) : (s.modLaunch l f).hostLink = s.hostLink := by
  unfold State.modLaunch; split <;> rfl
@[simp] theorem State.modLaunch_hostOut (l : Nat) (f : Launch → Launch) : (s.modLaunch l f).hostOut = s.hostOut := by
  unfold State.modLaunch; split <;> rfl
@[simp] theorem State.modLaunch_debugOut (l : Nat) (f : Launch → Launch) : (s.modLaunch l f).debugOut = s.debugOut := by
  unfold State.modLaunch; split <;> rfl
@[simp] theorem State.modLaunch_dmapgen (l : Nat) (f : Launch → Launch) : (s.modLaunch l f).dmapgen = s.dmapgen := by
  unfold State.modLaunch; split <;> rfl
@[simp] theorem State.modLaunch_wtstatus (l : Nat) (f : Launch → Launch) : (s.modLaunch l f).wtstatus = s.wtstatus := by
  unfold State.modLaunch; split <;> rfl
@[simp] theorem State.modLaunch_mem (l : Nat) (f : Launch → Launch) : (s.modLaunch l f).mem = s.mem := by
  unfold State.modLaunch; split <;> rfl
@[simp] theorem State.modLaunch_unseen (l : Nat) (f : Launch → Launch) : (s.modLaunch l f).unseen = s.unseen := by
  unfold State.modLaunch; split <;> rfl
@[simp] theorem State.modLaunch_writes (l : Nat) (f : Launch → Launch) : (s.modLaunch l f).writes = s.writes := by
  unfold State.modLaunch; split <;> rfl
@[simp] theorem State.modLaunch_fences (l : Nat) (f : Launch → Launch) : (s.modLaunch l f).fences = s.fences := by
  unfold State.modLaunch; split <;> rfl
@[simp] theorem State.modLaunch_badDram (l : Nat) (f : Launch → Launch) : (s.modLaunch l f).badDram = s.badDram := by
  unfold State.modLaunch; split <;> rfl
@[simp] theorem State.modLaunch_moduleId (l : Nat) (f : Launch → Launch) : (s.modLaunch l f).moduleId = s.moduleId := by
  unfold State.modLaunch; split <;> rfl
@[simp] theorem State.modLaunch_nextLid (l : Nat) (f : Launch → Launch) : (s.modLaunch l f).nextLid = s.nextLid := by
  unfold State.modLaunch; split <;> rfl
@[simp] theorem State.modLaunch_stampSeq (l : Nat) (f : Launch → Launch) : (s.modLaunch l f).stampSeq = s.stampSeq := by
  unfold State.modLaunch; split <;> rfl
@[simp] theorem State.modLaunch_pastStamps (l : Nat) (f : Launch → Launch) : (s.modLaunch l f).pastStamps = s.pastStamps := by
  unfold State.modLaunch; split <;> rfl
@[simp] theorem State.modLaunch_clock (l : Nat) (f : Launch → Launch) : (s.modLaunch l f).clock = s.clock := by
  unfold State.modLaunch; split <;> rfl
@[simp] theorem State.modLaunch_tick (l : Nat) (f : Launch → Launch) : (s.modLaunch l f).tick = s.tick := by
  unfold State.modLaunch; split <;> rfl
@[simp] theorem State.modLaunch_timeBase (l : Nat) (f : Launch → Launch) : (s.modLaunch l f).timeBase = s.timeBase := by
  unfold State.modLaunch; split <;> rfl
@[simp] theorem State.modLaunch_slew (l : Nat) (f : Launch → Launch) : (s.modLaunch l f).slew = s.slew := by
  unfold State.modLaunch; split <;> rfl
@[simp] theorem State.modLaunch_agenda (l : Nat) (f : Launch → Launch) : (s.modLaunch l f).agenda = s.agenda := by
  unfold State.modLaunch; split <;> rfl
@[simp] theorem State.modLaunch_todo (l : Nat) (f : Launch → Launch) : (s.modLaunch l f).todo = s.todo := by
  unfold State.modLaunch; split <;> rfl
@[simp] theorem State.modLaunch_gang (l : Nat) (f : Launch → Launch) : (s.modLaunch l f).gang = s.gang := by
  unfold State.modLaunch; split <;> rfl
@[simp] theorem State.modLaunch_scribe (l : Nat) (f : Launch → Launch) : (s.modLaunch l f).scribe = s.scribe := by
  unfold State.modLaunch; split <;> rfl
@[simp] theorem State.modLaunch_stops (l : Nat) (f : Launch → Launch) : (s.modLaunch l f).stops = s.stops := by
  unfold State.modLaunch; split <;> rfl
@[simp] theorem State.modLaunch_serial (l : Nat) (f : Launch → Launch) : (s.modLaunch l f).serial = s.serial := by
  unfold State.modLaunch; split <;> rfl
@[simp] theorem State.modLaunch_free (l : Nat) (f : Launch → Launch) : (s.modLaunch l f).free = s.free := by
  unfold State.modLaunch; split <;> rfl

end Sys2Proof.Machine
end

