-- ==== Sys2Proof/Laws/Lookup.lean ====
section
/-! SUPPORT. Association lists and the entries of the state: reading after a write. -/

namespace Sys2Proof

namespace AMap

variable {κ α : Type} [DecidableEq κ]

@[simp] theorem find?_set_self (k : κ) (v : α) (m : AMap κ α) : find? k (set k v m) = some v := by
  induction m with
  | nil => simp [set, find?]
  | cons p m ih =>
    obtain ⟨k', v'⟩ := p
    by_cases h : k' = k <;> simp [set, find?, h, ih]

theorem find?_set_ne {k j : κ} (h : j ≠ k) (v : α) (m : AMap κ α) :
    find? j (set k v m) = find? j m := by
  induction m with
  | nil => simp [set, find?, Ne.symm h]
  | cons p m ih =>
    obtain ⟨k', v'⟩ := p
    by_cases h1 : k' = k
    · subst h1; simp [set, find?, Ne.symm h]
    · by_cases h2 : k' = j
      · subst h2; simp [set, find?, h1]
      · simp [set, find?, h1, h2, ih]

@[simp] theorem getD_set_self (k : κ) (v d : α) (m : AMap κ α) : getD (set k v m) k d = v := by
  simp [getD]

theorem getD_set_ne {k j : κ} (h : j ≠ k) (v d : α) (m : AMap κ α) :
    getD (set k v m) j d = getD m j d := by
  simp [getD, find?_set_ne h]

/-- Every pair of a map after a write is the one written or was there before. -/
theorem mem_set {k : κ} {v : α} {m : AMap κ α} {p : κ × α} (h : p ∈ set k v m) : p = (k, v) ∨ p ∈ m := by
  induction m with
  | nil => simpa [set] using h
  | cons q m ih =>
    obtain ⟨k', v'⟩ := q
    by_cases h1 : k' = k
    · simp only [set, h1, if_true, List.mem_cons] at h ⊢
      tauto
    · simp only [set, h1, if_false, List.mem_cons] at h ⊢
      rcases h with h | h
      · tauto
      · rcases ih h with h | h <;> tauto

theorem find?_mem {k : κ} {v : α} {m : AMap κ α} (h : find? k m = some v) : (k, v) ∈ m := by
  induction m with
  | nil => simp [find?] at h
  | cons q m ih =>
    obtain ⟨k', v'⟩ := q
    by_cases h1 : k' = k
    · simp [find?, h1] at h; simp [h1, h]
    · simp only [find?, h1, if_false] at h; exact List.mem_cons_of_mem _ (ih h)

end AMap

namespace Machine

variable (s : State)

@[simp] theorem State.thread_setThread_self (t : Tid) (v : Thread) : (s.setThread t v).thread t = v := by
  simp [State.thread, State.setThread]

theorem State.thread_setThread_ne {t u : Tid} (h : u ≠ t) (v : Thread) :
    (s.setThread t v).thread u = s.thread u := by
  simp [State.thread, State.setThread, AMap.getD_set_ne h]

@[simp] theorem State.thread_modThread_self (t : Tid) (f : Thread → Thread) :
    (s.modThread t f).thread t = f (s.thread t) := by simp [State.modThread]

theorem State.thread_modThread_ne {t u : Tid} (h : u ≠ t) (f : Thread → Thread) :
    (s.modThread t f).thread u = s.thread u := s.thread_setThread_ne h _

@[simp] theorem State.site_modSite_self (n : Nat) (f : Site → Site) :
    (s.modSite n f).site n = f (s.site n) := by simp [State.site, State.modSite, State.setSite]

theorem State.site_modSite_ne {n k : Nat} (h : k ≠ n) (f : Site → Site) :
    (s.modSite n f).site k = s.site k := by
  simp [State.site, State.modSite, State.setSite, AMap.getD_set_ne h]

@[simp] theorem State.core_modCore_self (n : Nat) (f : Core → Core) :
    (s.modCore n f).core n = f (s.core n) := by simp [State.core, State.modCore, State.setCore]

theorem State.core_modCore_ne {n k : Nat} (h : k ≠ n) (f : Core → Core) :
    (s.modCore n f).core k = s.core k := by
  simp [State.core, State.modCore, State.setCore, AMap.getD_set_ne h]

@[simp] theorem State.squad_modSquad_self (q : Sid) (f : Squad → Squad) :
    (s.modSquad q f).squad q = f (s.squad q) := by simp [State.squad, State.modSquad, State.setSquad]

theorem State.squad_modSquad_ne {q r : Sid} (h : r ≠ q) (f : Squad → Squad) :
    (s.modSquad q f).squad r = s.squad r := by
  simp [State.squad, State.modSquad, State.setSquad, AMap.getD_set_ne h]

@[simp] theorem State.scribeCore_modScribe_self (n : Nat) (f : ScribeCore → ScribeCore) :
    (s.modScribe n f).scribeCore n = f (s.scribeCore n) := by
  simp [State.scribeCore, State.modScribe, State.setScribe]

theorem State.scribeCore_modScribe_ne {n k : Nat} (h : k ≠ n) (f : ScribeCore → ScribeCore) :
    (s.modScribe n f).scribeCore k = s.scribeCore k := by
  simp [State.scribeCore, State.modScribe, State.setScribe, AMap.getD_set_ne h]

@[simp] theorem State.queue_modQueue_self (n : Nat) (f : LaunchQueue → LaunchQueue) :
    (s.modQueue n f).queue n = f (s.queue n) := by
  simp [State.queue, State.modQueue, State.setQueue]

end Machine
end Sys2Proof
end

