-- ==== Sys2Proof/Safety.lean ====
section
/-! DEFINITION. The terms in which claims about the machine are stated: a gang that may issue an
instruction, what one instruction does to the threads of a gang and what it leaves alone, and the
invariant of the memories. -/

namespace Sys2Proof.Machine

/-- The gang `g` issues the instruction `op` with fields `x` in `len` bytes: it is the chosen gang, the
checks of R181 steps 4 to 9 pass, its threads are distinct, none of them has a trap pending (R328, R338)
or breaks a lookahead rule (R182), and no trace stream takes the gang's events (R413). -/
structure Issuing (s : State) (g : Gang) (op : Op) (x : Ext) (len : Nat) : Prop where
  gang : s.gang = some g
  legal : issueCheck op x (s.gangLaunch g) = none
  distinct : (g.members.map Prod.snd).Nodup
  calm : ∀ m ∈ g.members, (s.thread m.2).pendingTrap m.2 = none
  clear : ∀ m ∈ g.members, Issue.violates ⟨op, x, len, g.core, g.pc⟩ (s.thread m.2) = false
  untraced : (s.site (siteOf g.core)).streamOf (s.gangLaunch g).tenant = none

/-- A thread that has issued an instruction (R37, R182): its lookahead windows have counted one
instruction, its wait count starts again, and no flip or flush holds it any more (R355). -/
def Thread.stepped (th : Thread) (clock : Nat) : Thread :=
  { th with windows := tickWindows th.windows, since := clock + 1, heldSince := none }

/-- A thread at a PC. -/
def Thread.at_ (th : Thread) (pc : DWord) : Thread := { th with pc := pc }

/-- What an instruction that only changes its own threads leaves alone: every thread outside the gang;
of the squads all but their leads (R40), of the cores all but pick order and gang counts (R39, R73), of the
sites all but their trace streams; and every other part of the state whole: memory, teams with their
scratchpads and accumulators, launches, Scribe cores, queues, commands, packets, tasks, seals and the
steps to come. -/
structure Quiet (s t : State) (g : Gang) : Prop where
  threads : ∀ u, u ∉ g.members.map Prod.snd → t.thread u = s.thread u
  squads : ∀ q, t.squad q = { s.squad q with lead := (t.squad q).lead }
  cores : ∀ c, t.core c =
    { s.core c with
      order := (t.core c).order, gangCount := (t.core c).gangCount, membGangs := (t.core c).membGangs }
  sites : ∀ n, t.site n = { s.site n with streams := (t.site n).streams }
  rest : t = { s with
    threads := t.threads, squads := t.squads, cores := t.cores, sites := t.sites, gang := none }

/-- The same of an instruction that leaves a long-latency result to come: steps are added to those to
come, and serial numbers and free values drawn. -/
structure QuietLater (s t : State) (g : Gang) : Prop where
  threads : ∀ u, u ∉ g.members.map Prod.snd → t.thread u = s.thread u
  squads : ∀ q, t.squad q = { s.squad q with lead := (t.squad q).lead }
  cores : ∀ c, t.core c =
    { s.core c with
      order := (t.core c).order, gangCount := (t.core c).gangCount, membGangs := (t.core c).membGangs }
  sites : ∀ n, t.site n = { s.site n with streams := (t.site n).streams }
  steps : ∃ l, t.agenda = s.agenda ++ l
  rest : t = { s with
    threads := t.threads, squads := t.squads, cores := t.cores, sites := t.sites, gang := none,
    agenda := t.agenda, serial := t.serial, free := t.free }

/-- The instruction's effect on each active thread of the gang (R178) is `f`; an inactive thread keeps its
registers. Every thread stands at `next` then, and nothing else changes. -/
structure Lanes (s t : State) (g : Gang) (x : Ext) (f : Tid → Thread → Thread) (next : DWord) : Prop where
  active : ∀ m ∈ g.members, laneActive x (s.thread m.2) = true →
    t.thread m.2 = (f m.2 ((s.thread m.2).stepped s.clock)).at_ next
  inactive : ∀ m ∈ g.members, laneActive x (s.thread m.2) = false →
    t.thread m.2 = ((s.thread m.2).stepped s.clock).at_ next
  quiet : Quiet s t g

/-- As `Lanes`, where each active thread goes on at a PC of its own. -/
structure Jumps (s t : State) (g : Gang) (x : Ext) (f : Tid → Thread → Thread) (target : Tid → DWord)
    (next : DWord) : Prop where
  active : ∀ m ∈ g.members, laneActive x (s.thread m.2) = true →
    t.thread m.2 = (f m.2 ((s.thread m.2).stepped s.clock)).at_ (target m.2)
  inactive : ∀ m ∈ g.members, laneActive x (s.thread m.2) = false →
    t.thread m.2 = ((s.thread m.2).stepped s.clock).at_ next
  quiet : Quiet s t g

/-- The instruction opens a lookahead window in each active thread (R182) that will write the registers
`f` gives and raise the flags `fl` gives, and its completion is a step to come; an inactive thread keeps
its registers. Every thread stands at `next`, and nothing else changes. -/
structure LanesLater (s t : State) (g : Gang) (op : Op) (x : Ext) (f : Tid → List (Nat × Word))
    (fl : Tid → Nat) (next : DWord) : Prop where
  active : ∀ m ∈ g.members, laneActive x (s.thread m.2) = true → ∃ id at_,
    t.thread m.2 =
      { ((s.thread m.2).stepped s.clock).at_ next with
        windows := ((s.thread m.2).stepped s.clock).windows ++
          [{ id, pc := g.pc, left := x.la.toNat, issued := 0, pend := pendingSet op x, known := true,
             complete := false, regs := f m.2, preds := [], flags := fl m.2, fault := none }] } ∧
    ({ at_, ev := .longLatencyComplete m.2 id } : Due) ∈ t.agenda
  inactive : ∀ m ∈ g.members, laneActive x (s.thread m.2) = false →
    t.thread m.2 = ((s.thread m.2).stepped s.clock).at_ next
  quiet : QuietLater s t g

/-- The PC behind an instruction of a gang (R174). -/
def Gang.nextPc (g : Gang) (len : Nat) : DWord := g.pc + BitVec.ofNat 64 len

/-- The instruction a gang issues, at the gang's core and PC. -/
def Gang.issue (g : Gang) (op : Op) (x : Ext) (len : Nat) : Issue := ⟨op, x, len, g.core, g.pc⟩

/-- The active threads of a thread's squad in a gang, by ascending lane (R207). -/
def peers (s : State) (g : Gang) (x : Ext) (u : Tid) : List Tid :=
  (g.members.map Prod.snd).filter fun v => v.sid == u.sid && laneActive x (s.thread v)

/-- The combination of some values in order, with the flags of all the combinations made (R210). -/
def combined (op : Nat) (ty : Ty) : List Nat → Option (Nat × Nat)
  | [] => none
  | v :: vs => some (vs.foldl (fun r w =>
      ((combine op ty r.1 w).1, orFlags r.2 (combine op ty r.1 w).2)) (v, 0))

/-- One thread alone issues the instruction, its lane active: what a lane does by itself. A gang of
several lanes does so lane by lane, in ascending issue position (R82, R192). -/
structure Sole (s : State) (g : Gang) (op : Op) (x : Ext) (len : Nat) (u : Tid) : Prop extends
    Issuing s g op x len where
  only : ∃ p, g.members = [(p, u)]
  team : (AMap.find? u.team s.teams).isSome = true
  ready : (s.thread u).status = .ready
  active : laneActive x (s.thread u) = true

/-- `t` is `v` at the end of an issue: the leads (R40), the pick order and gang counts (R39, R73) and the
passes of trace streams aside, and with no gang chosen. -/
structure Settled (v t : State) : Prop where
  squads : ∀ q, t.squad q = { v.squad q with lead := (t.squad q).lead }
  cores : ∀ c, t.core c =
    { v.core c with
      order := (t.core c).order, gangCount := (t.core c).gangCount, membGangs := (t.core c).membGangs }
  sites : ∀ n, t.site n = { v.site n with streams := (t.site n).streams }
  rest : t = { v with squads := t.squads, cores := t.cores, sites := t.sites, gang := none }

/-- A thread that has issued, in the state its instruction acts on (R37, R182). -/
def State.issuing (s : State) (u : Tid) : State := s.modThread u fun th => th.stepped s.clock

/-- The instruction `i`, issued by the thread `u` alone, answers a next state: `v` with the thread at the
next instruction, settled. -/
def GoesOn (s : State) (g : Gang) (i : Instr) (len : Nat) (u : Tid) (v : State) : Prop :=
  ∃ t, exec i s = .next t ∧ Settled (v.goto u (g.nextPc len)) t

/-- The threads of one squad alone issue the instruction, some lane of them active. -/
structure OneSquad (s : State) (g : Gang) (op : Op) (x : Ext) (len : Nat) (q : Sid) : Prop extends
    Issuing s g op x len where
  squad : ∀ m ∈ g.members, m.2.sid = q
  some_active : ∃ m ∈ g.members, laneActive x (s.thread m.2) = true
  team : (AMap.find? q.team s.teams).isSome = true
  here : ∀ c ∈ (s.team q.team).cores, siteOf c = siteOf g.core

/-- The threads of a gang whose lanes are active, by ascending issue position. -/
def activeOf (s : State) (g : Gang) (x : Ext) : List Tid :=
  (g.members.map Prod.snd).filter fun v => laneActive x (s.thread v)

/-- Every thread of a gang that has issued, in the state its instruction acts on. -/
def State.issuingAll (s : State) (g : Gang) : State :=
  (g.members.map Prod.snd).foldl (fun v u => v.modThread u fun th => th.stepped s.clock) s

/-- Every thread of a gang goes on behind its instruction with its registers, its predicates and its flags
as they were. -/
def Passes (s t : State) (g : Gang) (len : Nat) : Prop :=
  ∀ m ∈ g.members, (t.thread m.2).pc = g.nextPc len ∧ (t.thread m.2).regs = (s.thread m.2).regs ∧
    (t.thread m.2).preds = (s.thread m.2).preds ∧ (t.thread m.2).fflags = (s.thread m.2).fflags

/-- Each active lane has a further window, of number `id`, that some entry of an engine's order or a step
to come completes (R182, R253). -/
def Opens (s t : State) (g : Gang) (op : Op) (x : Ext) (id : Nat) : Prop :=
  ∀ u ∈ activeOf s g x, (t.thread u).windows = ((s.thread u).stepped s.clock).windows ++
    [{ id, pc := g.pc, left := x.la.toNat, issued := 0, pend := pendingSet op x, known := false,
       complete := false, regs := [], preds := [], flags := 0, fault := none }]

/-- A thread's store at a location comes after every write made there: each of them is one that a read of the thread on
path t must see (R105, R111). -/
def State.lastAt (s : State) (u : Tid) (l : Loc) (n : Nat) : Prop := s.plain .t (s.party u) u.team l n = true

/-- The threads of a gang, each ready at the gang's PC and live in a resident squad of its team (R38). -/
def Gang.gathered (s : State) (g : Gang) : Prop :=
  ∀ m ∈ g.members, (s.thread m.2).pc = g.pc ∧ (s.thread m.2).status = .ready ∧ m.2 ∈ s.liveOf m.2.sid ∧
    m.2.sid ∈ s.squadsOfTeam m.2.team

/-- No trace stream takes the events of a gang's threads (R413). -/
def Gang.untraced (s : State) (g : Gang) : Prop :=
  ∀ m ∈ g.members, ∀ u, u.sid = m.2.sid →
    (s.site (siteOf (s.coreOf u.sid))).streamOf (s.launchOf u).tenant = none

/-- A command's queue has an entry for it, and none of its lines' counts is at its limit (R74, R86). -/
def State.admits (s : State) (c : Command) : Prop :=
  (s.takeEntry c.core c.team (engineQueue c.op)).isSome = true ∧
    (engineQueue c.op = .copy → s.linesFull c.team (linesOf c.pieces) = false)

/-- What the checks of R81 with R92 answer for one lane's access of `n` bytes. -/
def Reaches (s : State) (k : Issue) (u : Tid) (n : Nat) (kind : AccessKind) (c : Checked) : Prop :=
  (s.issuing u).checkAddr k.core u.team (s.launchOf u).space (effAddr s k u) n n kind = c

/-- The location is not of the device register space (R21), and its half is one of the two. -/
def Loc.plain : Loc → Bool
  | .glob pa => !isRegisterPa pa
  | .scr h _ => decide (h < 2)

/-- Byte `k` of a location. -/
def State.byteAt (s : State) (team : Nat) : Loc → Nat → Byte
  | .glob pa, k => s.mem.get (pa + k)
  | .scr h o, k => ((s.team team).scratch h).get (o + k)

/-- No byte of memory, of a scratchpad, of an accumulator share, of an operand buffer or of a Scribe
core's SRAM differs. -/
structure NoStore (s t : State) : Prop where
  mem : ∀ a, t.mem.get a = s.mem.get a
  scratch : ∀ n h a, ((t.team n).scratch h).get a = ((s.team n).scratch h).get a
  acc : ∀ n h a, ((t.team n).acc h).get a = ((s.team n).acc h).get a
  opBuf : ∀ c a, (t.core c).opBuf.get a = (s.core c).opBuf.get a
  sram : ∀ c a, (t.scribeCore c).sram.get a = (s.scribeCore c).sram.get a

/-- The command `c` is accepted (R271): it is listed with its entry of the engine queue and the lines it
counts on, each of those lines counts one more, each active lane has a window that will write 1 to the
acceptance predicate, and `more` holds of its number and of what it is listed as. No byte of memory has
changed. -/
structure Accepted (s s1 t : State) (g : Gang) (op : Op) (x : Ext) (len : Nat) (c : Command)
    (more : Nat → Command → Prop) : Prop where
  listed : ∃ id v, AMap.find? id t.commands = some v ∧ more id v ∧
    v = { c with shared := v.shared, lines := v.lines, parts := v.parts, cause := v.cause }
  lines : ∀ l ∈ (if engineQueue c.op = .copy then linesOf c.pieces else []),
    AMap.getD (t.team c.team).pending l 0 = AMap.getD (s1.team c.team).pending l 0 + 1
  predicate : ∀ u ∈ activeOf s g x, ∃ id at_, (t.thread u).windows =
    ((s.thread u).stepped s.clock).windows ++
      [{ id, pc := g.pc, left := x.la.toNat, issued := 0, pend := pendingSet op x, known := true,
         complete := false, regs := [], preds := [(x.d.toNat, true)], flags := 0, fault := none }] ∧
    ({ at_, ev := .longLatencyComplete u id } : Due) ∈ t.agenda
  passes : Passes s t g len
  stores : NoStore s1 t

/-- The `n` bytes of `v` stand at a location, the lowest first (R1), where the write is `last` in coherence order (R105);
and no other byte of memory, of a scratchpad, of an accumulator share, of an operand buffer or of an SRAM differs. -/
structure Stores (s t : State) (last : Prop) (team : Nat) (l : Loc) (n v : Nat) : Prop where
  written : last → ∀ k, k < n → t.byteAt team l k = BitVec.ofNat 8 (v / 2 ^ (8 * k))
  mem : ∀ a, (∀ pa, l = .glob pa → a < pa ∨ pa + n ≤ a) → t.mem.get a = s.mem.get a
  scratch : ∀ m h a, h < 2 → (∀ o, m = team → l = .scr h o → a < o ∨ o + n ≤ a) →
    ((t.team m).scratch h).get a = ((s.team m).scratch h).get a
  acc : ∀ m h a, ((t.team m).acc h).get a = ((s.team m).acc h).get a
  opBuf : ∀ c a, (t.core c).opBuf.get a = (s.core c).opBuf.get a
  sram : ∀ c a, (t.scribeCore c).sram.get a = (s.scribeCore c).sram.get a

/-- The Scribe core `sc` carries out the word `w` of the instruction `i`: it is the chosen core, the decode
checks pass (R299), and no register the word reads waits for a load (R294). -/
structure Begun (s : State) (sc : Nat) (i : Instr) (w : SWord) : Prop where
  word : i.scribe = some w
  core : s.scribe = some sc
  legal : scribeCheck w = none
  loaded : ∀ r ∈ scribeReads w, r ∉ (s.scribeCore sc).loads

/-- The state in which a Scribe instruction has its effect. -/
def State.begun (s : State) : State := { s with scribe := none }

/-- The PC behind a Scribe word (R295). -/
def ScribeCore.nextPc (c : ScribeCore) : Nat := (c.pc + 4) % 2 ^ 32

/-- The instruction changes its Scribe core by `f`, which goes on at `pc`, and changes nothing else. -/
def ScribeSets (s : State) (i : Instr) (sc : Nat) (f : ScribeCore → ScribeCore) (pc : Nat) : Prop :=
  exec i s = .next (s.begun.modScribe sc fun c => { f c with pc })

/-- Where a Scribe branch goes (R303). -/
def wordTarget (w : SWord) (pc : Nat) : Nat :=
  wrapTo 32 ((pc : Int) + 4 * intVal true 13 (w.b.toNat * 256 + w.i.toNat))

/-- The address of lane `k` of a vector load or store (R304, R305): consecutive words from s(A) plus IMM8
in units of 64 bytes, or s(A) plus four times the lane of z(B). -/
def laneAddrOf (w : SWord) (c : ScribeCore) (k : Nat) : DWord :=
  if w.op = 0x1A ∨ w.op = 0x1B then c.rs w.a + sext8 w.i * 64 + .ofNat 64 (4 * k)
  else c.rs w.a + .ofNat 64 (4 * (c.lane w.b k).toNat)

/-- The flags of the active lanes of a vector operation. -/
def laneFlags (c : ScribeCore) (w : SWord) (f : Nat → Nat) : Nat :=
  (c.lanes w).foldl (fun n k => n ||| f k) 0

/-- Every memory of the machine is in canonical form: DRAM, both scratchpad halves and accumulator shares
of every team, every operand buffer and SRAM, and the route banks of every site. -/
def State.memoriesWf (s : State) : Prop :=
  s.mem.wf = true ∧
    (∀ p ∈ s.teams, p.2.scratch0.wf = true ∧ p.2.scratch1.wf = true ∧ p.2.acc0.wf = true ∧
      p.2.acc1.wf = true) ∧
    (∀ p ∈ s.cores, p.2.opBuf.wf = true) ∧ (∀ p ∈ s.scribes, p.2.sram.wf = true) ∧
    (∀ p ∈ s.sites, p.2.activeBank.wf = true ∧ p.2.shadowBank.wf = true)

/-- Neither a NaN nor an infinity. -/
def FVal.isFinite : FVal → Bool
  | .fin _ _ _ => true
  | _ => false

/-- The exact number that a finite value is (R135). -/
def FVal.toRat : FVal → ℚ
  | .fin n m e => (if n then -1 else 1) * (m : ℚ) * (2 : ℚ) ^ e
  | _ => 0

/-- A number, not a NaN, of a magnitude above `q`. -/
def FVal.above (x : FVal) (q : ℚ) : Prop :=
  match x with
  | .inf _ => True
  | .fin n m e => q < |(FVal.fin n m e).toRat|
  | _ => False

/-- The scale byte and the codes of block `b` of row `i` of a tile (R150, R141): E is the least at which the kind's
largest magnitude M x 2^(E - 32) bounds every element, 63 where none does; each code is its element's under that scale,
the first in the low bits. -/
structure QuantBlock (acc : Memory) (kind : Nat) (tile : Tile) (i b scale codes : Nat) : Prop where
  scaled : ∃ E, scale = kind * 64 + E ∧ E ≤ 63 ∧
    (E = 63 ∨ ∀ k, k < 8 → ¬(Fmt.f32.decode (acc.readNat (tile.elem i (8 * b + k)) 4)).above
      (q4Max kind * (2 : ℚ) ^ ((E : Int) - 32))) ∧
    ∀ F, F < E → ∃ k, k < 8 ∧ (Fmt.f32.decode (acc.readNat (tile.elem i (8 * b + k)) 4)).above
      (q4Max kind * (2 : ℚ) ^ ((F : Int) - 32))
  coded : ∀ k, k < 8 → codes / 16 ^ k % 16 =
    (q4Encode scale (Fmt.f32.decode (acc.readNat (tile.elem i (8 * b + k)) 4))).bits % 16

/-- The bytes that a QUANT writes: for each block its scale byte and the four bytes of its codes. -/
def quantPlaces (tile : Tile) (codes scales eoff pitch : Nat) : List Nat :=
  tile.blocks.flatMap fun p =>
    let e := eoff + p.1 * pitch + 8 * p.2
    (scales + e / 8) :: List.range' (codes + e / 2) 4

end Sys2Proof.Machine
end

