-- ==== Sys2Proof/Laws/Exec.lean ====
section
/-! SUPPORT. What exec does with a SIMT instruction, by its opcode and fields alone: base and extended
forms of an opcode have one meaning. Steps of the agenda and instructions of the same name agree. -/

namespace Sys2Proof.Machine

/-- The meaning of an opcode for its fields and length. -/
def simtExec (op : Op) (x : Ext) (len : Nat) (s : State) : Out :=
  match op with
  | .add => simt .add x len true (laneInt2 intAdd) s
  | .sub => simt .sub x len true (laneInt2 intSub) s
  | .mul => simt .mul x len true (laneInt2 intMul) s
  | .mulh => simt .mulh x len true (laneInt2 intMulh) s
  | .mad => simt .mad x len true laneMad s
  | .adds => simt .adds x len true (laneInt2 intAdds) s
  | .subs => simt .subs x len true (laneInt2 intSubs) s
  | .and => simt .and x len true (laneBits2 bitsAnd) s
  | .or => simt .or x len true (laneBits2 bitsOr) s
  | .xor => simt .xor x len true (laneBits2 bitsXor) s
  | .andn => simt .andn x len true (laneBits2 bitsAndn) s
  | .shl => simt .shl x len true (laneShift shiftLeft) s
  | .shr => simt .shr x len true (laneShift shiftRight) s
  | .sar => simt .sar x len true (laneShift shiftArith) s
  | .rol => simt .rol x len true (laneShift rotateLeft) s
  | .min => simt .min x len true (laneInt2 intLesser) s
  | .max => simt .max x len true (laneInt2 intGreater) s
  | .abs => simt .abs x len true (lane1 Ty.regs intAbs) s
  | .neg => simt .neg x len true (lane1 Ty.regs intNeg) s
  | .clz => simt .clz x len true (lane1 (fun _ => 1) bitsClz) s
  | .popc => simt .popc x len true (lane1 (fun _ => 1) bitsPopc) s
  | .brev => simt .brev x len true (lane1 Ty.regs bitsBrev) s
  | .bfx => simt .bfx x len true laneBfx s
  | .bfi => simt .bfi x len true laneBfi s
  | .sel => simt .sel x len true laneSel s
  | .mov => simt .mov x len true laneMov s
  | .ldi => simt .ldi x len true laneLdi s
  | .lea => simt .lea x len true laneLea s
  | .cmp => simt .cmp x len true laneCmp s
  | .div => simt .div x len true (laneDiv intDiv) s
  | .rem => simt .rem x len true (laneDiv intRem) s
  | .br => simt .br x len false laneBr s
  | .bri => simt .bri x len true laneBri s
  | .call => simt .call x len false laneCall s
  | .calli => simt .calli x len true laneCalli s
  | .ret => simt .ret x len true laneRet s
  | .exit => afterGang exitGang s.gang (simt .exit x len true laneExit s)
  | .yield => yieldWith x len s
  | .nop => simt .nop x len true laneNop s
  | .loop => simt .loop x len false laneLoop s
  | .pand => simt .pand x len true (lanePred2 Bool.and) s
  | .por => simt .por x len true (lanePred2 Bool.or) s
  | .pxor => simt .pxor x len true (lanePred2 Bool.xor) s
  | .pnot => simt .pnot x len true lanePnot s
  | .pset => simt .pset x len true lanePset s
  | .pget => simt .pget x len true lanePget s
  | .vote => simtSquad .vote x len squadVote s
  | .shfl => simtSquad .shfl x len squadShfl s
  | .sred => simtSquad .sred x len (squadScan false) s
  | .sscan => simtSquad .sscan x len (squadScan true) s
  | .ssync => afterGang ssyncGang s.gang (simt .ssync x len false laneSsync s)
  | .elect => simtSquad .elect x len squadElect s
  | .match => simtSquad .match x len squadMatch s
  | .tbar => afterGang tbarGang s.gang (simt .tbar x len false laneTbar s)
  | .sysrd => simt .sysrd x len true laneSysrd s
  | .clock => simt .clock x len true laneClock s
  | .realign => simt .realign x len true laneRealign s
  | .fadd => simt .fadd x len true (laneF2 Fmt.add) s
  | .fsub => simt .fsub x len true (laneF2 Fmt.sub) s
  | .fmul => simt .fmul x len true (laneF2 Fmt.mul) s
  | .fma => simt .fma x len true laneFma s
  | .fmin => simt .fmin x len true (laneF2 fun f => f.minMax false) s
  | .fmax => simt .fmax x len true (laneF2 fun f => f.minMax true) s
  | .fabs => simt .fabs x len true (laneF1 Fmt.abs) s
  | .fneg => simt .fneg x len true (laneF1 Fmt.negBits) s
  | .fcmp => simt .fcmp x len true laneFcmp s
  | .fclass => simt .fclass x len true laneFclass s
  | .frcp => simt .frcp x len true (laneFfunc fun f => f.func .rcp) s
  | .frsq => simt .frsq x len true (laneFfunc fun f => f.func .rsq) s
  | .fexp2 => simt .fexp2 x len true (laneFfunc fun f => f.func .exp2) s
  | .flog2 => simt .flog2 x len true (laneFfunc fun f => f.func .log2) s
  | .fdiv => simt .fdiv x len true laneFdiv s
  | .fsqrt => simt .fsqrt x len true (laneFfunc Fmt.sqrt) s
  | .cvt => simt .cvt x len true laneCvt s
  | .cvtsr => simt .cvtsr x len true laneCvtsr s
  | .dot4 => simt .dot4 x len true laneDot s
  | .dot2 => simt .dot2 x len true laneDot s
  | .fscale => simt .fscale x len true laneFscale s
  | .frnd => simt .frnd x len true laneFrnd s
  | .fflags => simt .fflags x len true laneFflags s
  | .ld => simt .ld x len true laneLd s
  | .st => simt .st x len true (atRegister laneSt) s
  | .atom => simt .atom x len true (atRegister laneAtom) s
  | .red => simt .red x len true (atRegister laneRed) s
  | .cas => simt .cas x len true (atRegister laneCas) s
  | .faddw => simt .faddw x len true (atRegister laneFaddw) s
  | .waitw => simt .waitw x len true laneWaitw s
  | .pref => simt .pref x len true lanePref s
  | .pagereq => simt .pagereq x len true lanePagereq s
  | .clhint => simt .clhint x len true laneClhint s
  | .fence => simt .fence x len true laneFence s
  | .tspawn => simt .tspawn x len true laneTspawn s
  | .tdec => simt .tdec x len true laneTdec s
  | .tinc => simt .tinc x len true laneTinc s
  | .defer => 
    let o := simt .defer x len true laneDefer s
    match s.gang, o with
    | some g, .next s => .next (deferGang g s)
    | _, o => o
  | .rwait => simt .rwait x len true laneRwait s
  | .rpop => simt .rpop x len true laneRpop s
  | .obres => simt .obres x len true laneObres s
  | .obrel => simt .obrel x len true laneObrel s
  | .obld => simt .obld x len true laneObld s
  | .mma => simtSquad .mma x len squadMma s
  | .mmap => simtSquad .mmap x len squadMma s
  | .mzero => simtSquad .mzero x len squadMzero s
  | .mdrain => simtSquad .mdrain x len squadMdrain s
  | .mlease => simt .mlease x len true laneMlease s
  | .mfree => simt .mfree x len true laneMfree s
  | .quant => simtSquad .quant x len squadQuant s
  | .mrd => simtSquad .mrd x len (squadAcc State.readAcc) s
  | .mwr => simtSquad .mwr x len (squadAcc State.writeAcc) s
  | .cpy => simtSquad .cpy x len squadCpy s
  | .tcopy => simtSquad .tcopy x len squadTcopy s
  | .put => simtSquad .put x len squadWindow s
  | .get => simtSquad .get x len squadWindow s
  | .msg => simtSquad .msg x len squadWindow s
  | .nmcmd => simtSquad .nmcmd x len squadNmcmd s
  | .sealput => simt .sealput x len true laneSealput s
  | .sealget => simt .sealget x len true laneSealget s
  | .sealswap => simt .sealswap x len true laneSealswap s
  | .sealref => simt .sealref x len true laneSealref s
  | .unseal => simtSquad .unseal x len squadUnseal s
  | .trev => 
    match s.gang with
    | none => .fault .noAgent
    | some g =>
      let i : Issue := ⟨.trev, x, len, g.core, g.pc⟩
      let l := s.gangLaunch g
      if (issueCheck .trev x l).isNone && trevEmits i g s then
        match s.points g.core [s.event (siteOf g.core) (trevCode i) 0 g.core l.tenant 0 none] with
        | .stall s => .next s
        | .go _ => simt .trev x len true laneTrev s
      else simt .trev x len true laneTrev s
  | .xlook => simt .xlook x len true laneXlook s
  | .trap => simt .trap x len true laneTrap s
  | .rett => simt .rett x len true laneRett s
  | .csrrd => simt .csrrd x len true laneCsrrd s
  | .csrwr => simt .csrwr x len true laneCsrwr s
  | .tlbinv => simt .tlbinv x len true laneTlbinv s
  | .bkpt => simt .bkpt x len true laneBkpt s
  | .halt => haltWith x len s
  | .ctxsave => simt .ctxsave x len true (laneContext false) s
  | .ctxload => simt .ctxload x len true (laneContext true) s

theorem exec_simt_all (i : Instr) (s : State) :
    (match i.simt with
    | some (op, x, len) => exec i s = simtExec op x len s
    | none => True) := by
  cases i <;> first | exact trivial | (show exec _ s = simtExec _ _ _ s; rfl)

theorem exec_simt {i : Instr} {op : Op} {x : Ext} {len : Nat} (h : i.simt = some (op, x, len))
    (s : State) : exec i s = simtExec op x len s := by
  have := exec_simt_all i s
  rw [h] at this
  exact this

theorem exec_ev_all (i : Instr) (s : State) :
    (match i.ev with
    | some e => exec i s = runEv e s
    | none => True) := by
  cases i <;> first | exact trivial | (show exec _ s = runEv _ s; rfl)

theorem exec_ev {i : Instr} {e : Ev} (h : i.ev = some e) (s : State) : exec i s = runEv e s := by
  have := exec_ev_all i s
  rw [h] at this
  exact this

end Sys2Proof.Machine
end

