-- ==== Sys2Proof/Laws/Memory.lean ====
section
/-! SUPPORT. Memories: every operation keeps the canonical form, and reading after a write. -/

namespace Sys2Proof.Machine

theorem Memory.above_mono {lo lo' : Nat} (h : lo' ≤ lo) : ∀ {m : Memory}, m.above lo = true → m.above lo' = true
  | [], _ => rfl
  | (a, v) :: m, hm => by
    simp only [Memory.above, Bool.and_eq_true, decide_eq_true_eq] at hm ⊢
    exact ⟨⟨h.trans hm.1.1, hm.1.2⟩, hm.2⟩

/-- A byte below every listed one reads as unlisted. -/
theorem Memory.get_below {lo a : Nat} (h : a < lo) : ∀ {m : Memory}, m.above lo = true → m.get a = unlistedByte
  | [], _ => rfl
  | (b, v) :: m, hm => by
    simp only [Memory.above, Bool.and_eq_true, decide_eq_true_eq] at hm
    have hb : a < b := by omega
    simp [Memory.get, hb, Nat.ne_of_gt hb]

theorem Memory.put_above {lo a : Nat} (h : lo ≤ a) (v : Byte) :
    ∀ {m : Memory}, m.above lo = true → (m.put a v).above lo = true
  | [], _ => by by_cases hv : v = unlistedByte <;> simp [Memory.put, Memory.above, hv, h]
  | (b, w) :: m, hm => by
    have hm' := hm
    simp only [Memory.above, Bool.and_eq_true, decide_eq_true_eq] at hm
    by_cases h1 : a < b
    · by_cases hv : v = unlistedByte
      · simpa [Memory.put, h1, hv] using hm'
      · simp [Memory.put, h1, hv, Memory.above, h, hm]
    · by_cases h2 : b = a
      · subst h2
        by_cases hv : v = unlistedByte
        · simpa [Memory.put, hv] using Memory.above_mono (Nat.le_succ_of_le h) hm.2
        · simp [Memory.put, hv, Memory.above, h, hm.2]
      · simp only [Memory.put, h1, h2, if_false, Memory.above, Bool.and_eq_true, decide_eq_true_eq]
        exact ⟨hm.1, Memory.put_above (by omega) v hm.2⟩

/-- One byte written keeps the canonical form. -/
theorem Memory.put_wf {m : Memory} (h : m.wf = true) (a : Nat) (v : Byte) : (m.put a v).wf = true :=
  Memory.put_above (Nat.zero_le a) v h

theorem Memory.nil_wf : Memory.wf [] = true := rfl

theorem Memory.write_wf (bs : List Byte) : ∀ {m : Memory}, m.wf = true → ∀ a, (m.write a bs).wf = true := by
  induction bs with
  | nil => exact fun h _ => h
  | cons v bs ih => exact fun h a => ih (Memory.put_wf h a v) (a + 1)

theorem Memory.writeNat_wf {m : Memory} (h : m.wf = true) (a n v : Nat) : (m.writeNat a n v).wf = true :=
  Memory.write_wf _ h a

theorem Memory.filter_above (p : Host.Cell → Bool) : ∀ {m : Memory} {lo : Nat}, m.above lo = true →
    Memory.above lo (m.filter p) = true
  | [], _, _ => rfl
  | (a, v) :: m, lo, hm => by
    simp only [Memory.above, Bool.and_eq_true, decide_eq_true_eq] at hm
    by_cases h : p (a, v) = true
    · simp [h, Memory.above, hm.1.1, Memory.filter_above p hm.2]
      simpa using hm.1.2
    · simp only [List.filter_cons, h]
      exact Memory.above_mono (by omega) (Memory.filter_above p hm.2)

/-- Leaving some bytes out keeps the canonical form. -/
theorem Memory.filter_wf {m : Memory} (h : m.wf = true) (p : Host.Cell → Bool) :
    Memory.wf (m.filter p) = true := Memory.filter_above p h

/-- Any sequence of writes that a fold makes keeps the canonical form. -/
theorem Memory.foldl_wf {α : Type} (f : Memory → α → Memory)
    (hf : ∀ m x, Memory.wf m = true → Memory.wf (f m x) = true) (l : List α) :
    ∀ {m : Memory}, m.wf = true → Memory.wf (l.foldl f m) = true := by
  induction l with
  | nil => exact fun h => h
  | cons x l ih => exact fun h => ih (hf _ x h)

theorem copyRegion_wf {m : Memory} (h : m.wf = true) (site v : Nat) : (copyRegion m site v).wf = true :=
  Memory.foldl_wf _ (fun k c hk => by dsimp only; split <;> first | exact Memory.put_wf hk _ _ | exact hk) m
    (Memory.filter_wf h _)

theorem copyRange_wf {m : Memory} (h : m.wf = true) (src dst n : Nat) : (copyRange m src dst n).wf = true :=
  Memory.foldl_wf _ (fun k c hk => by split <;> first | exact Memory.put_wf hk _ _ | exact hk) m
    (Memory.filter_wf h _)

theorem bootBank_wf (site : Nat) : (bootBank site).wf = true :=
  Memory.writeNat_wf (Memory.writeNat_wf (Memory.write_wf _ (Memory.write_wf _ Memory.nil_wf _) _) _ _ _) _ _ _

/-- A byte reads as what was written last. -/
theorem Memory.get_put_self (a : Nat) (v : Byte) : ∀ {m : Memory} {lo : Nat}, m.above lo = true →
    (m.put a v).get a = v
  | [], _, _ => by by_cases hv : v = unlistedByte <;> simp [Memory.put, Memory.get, hv]
  | (b, w) :: m, lo, hm => by
    simp only [Memory.above, Bool.and_eq_true, decide_eq_true_eq] at hm
    by_cases h1 : a < b
    · by_cases hv : v = unlistedByte <;>
        simp [Memory.put, h1, hv, Memory.get, Nat.ne_of_gt h1]
    · by_cases h2 : b = a
      · subst h2
        by_cases hv : v = unlistedByte
        · simpa [Memory.put, hv] using Memory.get_below (Nat.lt_succ_self b) hm.2
        · simp [Memory.put, hv, Memory.get]
      · simp [Memory.put, h1, h2, Memory.get, Memory.get_put_self a v hm.2]

/-- A write leaves every other byte alone. -/
theorem Memory.get_put_ne {a c : Nat} (h : c ≠ a) (v : Byte) : ∀ {m : Memory} {lo : Nat},
    m.above lo = true → (m.put a v).get c = m.get c
  | [], _, _ => by
    by_cases hv : v = unlistedByte <;> simp [Memory.put, Memory.get, hv, Ne.symm h]
  | (b, w) :: m, lo, hm => by
    simp only [Memory.above, Bool.and_eq_true, decide_eq_true_eq] at hm
    by_cases h1 : a < b
    · by_cases hv : v = unlistedByte
      · simp [Memory.put, h1, hv]
      · by_cases h3 : c < a
        · have : c < b := by omega
          simp [Memory.put, h1, hv, Memory.get, Ne.symm h, h3, this, Nat.ne_of_gt this]
        · simp [Memory.put, h1, hv, Memory.get, Ne.symm h, h3]
    · by_cases h2 : b = a
      · subst h2
        by_cases hv : v = unlistedByte
        · simp only [Memory.put, h1, if_false, if_true, hv, Memory.get, Ne.symm h]
          by_cases h3 : c < b
          · simp [h3, Memory.get_below (show c < b + 1 by omega) hm.2]
          · simp [h3]
        · simp [Memory.put, hv, Memory.get, Ne.symm h]
      · simp [Memory.put, h1, h2, Memory.get, Memory.get_put_ne h v hm.2]

/-- What a write of several bytes leaves at an address, on a canonical memory. -/
theorem Memory.get_write (bs : List Byte) : ∀ {m : Memory}, m.wf = true → ∀ a c,
    (m.write a bs).get c = if a ≤ c ∧ c < a + bs.length then bs.getD (c - a) 0 else m.get c := by
  induction bs with
  | nil => intro m _ a c; rw [if_neg (by simp)]; rfl
  | cons v bs ih =>
    intro m h a c
    simp only [Memory.write, ih (Memory.put_wf h a v), List.length_cons]
    by_cases hc : c = a
    · subst hc
      rw [if_neg (by omega), if_pos (by omega)]
      simp [Memory.get_put_self c v h]
    · rw [Memory.get_put_ne hc v h]
      by_cases h1 : a ≤ c ∧ c < a + (bs.length + 1)
      · rw [if_pos h1, if_pos (by omega), show c - a = c - (a + 1) + 1 by omega]
        rfl
      · rw [if_neg h1, if_neg (by omega)]

end Sys2Proof.Machine
end

