-- ==== Sys2Proof/Laws/Issue.lean ====
section
/-! SUPPORT. What the skeleton of an instruction that acts lane by lane does, said once: where no thread
traps and no stream takes its events, each active thread has the lane's effect and stands at the next PC,
and nothing else changes but pick order, leads and counts. -/

namespace Sys2Proof.Machine

/-! ## Trace streams -/

theorem State.gate_untraced (s : State) {e : Event} (h : (s.site e.site).streamOf e.tenant = none) :
    s.gate e = .clear := by
  simp [State.gate, h]

theorem State.point_untraced (s : State) {e : Event} (h : (s.site e.site).streamOf e.tenant = none) :
    s.point e = .go s := by
  simp [State.point, s.gate_untraced h]

theorem State.points_untraced (s : State) (core : Nat) :
    ∀ es : List Event, (∀ e ∈ es, (s.site e.site).streamOf e.tenant = none) → s.points core es = .go s
  | [], _ => rfl
  | e :: es, h => by
    have h1 := h e (by simp)
    simp only [State.points, s.point_untraced h1]
    exact s.points_untraced core es fun e' he => h e' (by simp [he])

theorem State.emitEvent_untraced (s : State) (e : Event)
    (h : (s.site e.site).streamOf e.tenant = none) : s.emitEvent e = s := by
  simp [State.emitEvent, h]

theorem State.engineEvent_untraced (s : State) (e : Event)
    (h : (s.site e.site).streamOf e.tenant = none) : s.engineEvent e = s := by
  simp [State.engineEvent, s.gate_untraced h, s.emitEvent_untraced e h]

/-- A step in which no engine must stall is made (R417). -/
theorem State.atPoints_clear (s : State) (e : Option Ev) {t : State} (h : t.stops = []) :
    s.atPoints e (.next t) = .next t := by
  simp [State.atPoints, h]

/-- A step in which an engine must stall is held, and made again (R417). -/
theorem State.atPoints_held (s : State) (e : Option Ev) {t : State} (h : t.stops ≠ []) :
    s.atPoints e (.next t) = .next ((s.stallEmitters t.stops).remake e) := by
  simp [State.atPoints, h]

theorem State.emitEvents_untraced (s : State) :
    ∀ es : List Event, (∀ e ∈ es, (s.site e.site).streamOf e.tenant = none) →
      es.foldl State.emitEvent s = s
  | [], _ => rfl
  | e :: es, h => by
    simp only [List.foldl_cons]
    rw [s.emitEvent_untraced e (h e (by simp))]
    exact s.emitEvents_untraced es fun e' he => h e' (by simp [he])

theorem gangEvents_at (s0 : State) (p : Progress) (g : Gang) :
    ∀ e ∈ gangEvents s0 p g, e.site = siteOf g.core ∧ e.tenant = (s0.gangLaunch g).tenant := by
  intro e he
  simp only [gangEvents, List.mem_append, List.mem_map, List.mem_cons, List.not_mem_nil, or_false] at he
  rcases he with ((rfl | he) | ⟨k, -, rfl⟩) | ⟨r, -, rfl⟩
  · exact ⟨rfl, rfl⟩
  · split at he
    · simp only [List.mem_cons, List.not_mem_nil, or_false] at he
      subst he; exact ⟨rfl, rfl⟩
    · simp at he
  · exact ⟨rfl, rfl⟩
  · exact ⟨rfl, rfl⟩

theorem AMap.find?_map {κ α β : Type} [DecidableEq κ] (f : α → β) (k : κ) :
    ∀ m : AMap κ α, AMap.find? k (m.map fun p => (p.1, f p.2)) = (AMap.find? k m).map f
  | [] => rfl
  | (k', v) :: m => by
    by_cases h : k' = k
    · simp [AMap.find?, h]
    · simp [AMap.find?, h, AMap.find?_map f k m]

/-- Dropping the passes of a picker changes no stream's registers. -/
theorem State.streamOf_clearPass (s : State) (n c tenant : Nat) :
    ((s.clearPass n c).site n).streamOf tenant = (s.site n).streamOf tenant := by
  simp only [State.clearPass, State.site_modSite_self, Site.streamOf]
  congr 1
  funext k
  simp only [Site.stream, AMap.getD]
  have hm := AMap.find?_map (fun t : Stream =>
    { t with stalls := t.stalls.filter fun q => !(q.1 == emitter 0 c && q.2 == 0) }) k (s.site n).streams
  simp only [hm]
  cases AMap.find? k (s.site n).streams <;> rfl

/-! ## The end of an issue -/

theorem State.takeTraps_nil (s : State) : s.takeTraps [] = s := rfl

/-- A change of lead changes one squad's lead. -/
theorem State.relead_rest (s : State) (q : Sid) (y : Bool) :
    s.relead q y = { s with squads := (s.relead q y).squads } ∧
      ∀ r, (s.relead q y).squad r = { s.squad r with lead := ((s.relead q y).squad r).lead } := by
  have key : ∀ f : Squad → Squad, (∀ v, f v = { v with lead := (f v).lead }) →
      ∀ r, (s.modSquad q f).squad r = { s.squad r with lead := ((s.modSquad q f).squad r).lead } := by
    intro f hf r
    by_cases h : r = q
    · subst h; rw [State.squad_modSquad_self]; exact hf _
    · rw [s.squad_modSquad_ne h]
  unfold State.relead
  split
  · split
    · exact ⟨rfl, fun r => rfl⟩
    · exact ⟨rfl, key _ fun v => rfl⟩
  · exact ⟨rfl, key _ fun v => rfl⟩

theorem State.releads_rest (qs : List Sid) : ∀ s : State,
    (qs.foldl (fun s q => s.relead q false) s) =
        { s with squads := (qs.foldl (fun s q => s.relead q false) s).squads } ∧
      ∀ r, (qs.foldl (fun s q => s.relead q false) s).squad r =
        { s.squad r with lead := ((qs.foldl (fun s q => s.relead q false) s).squad r).lead } := by
  induction qs with
  | nil => exact fun s => ⟨rfl, fun _ => rfl⟩
  | cons q qs ih =>
    intro s
    have h1 := s.relead_rest q false
    have h2 := ih (s.relead q false)
    simp only [List.foldl_cons]
    refine ⟨?_, fun r => ?_⟩
    · generalize hu : qs.foldl (fun s q => s.relead q false) (s.relead q false) = u at h2 ⊢
      rw [h2.1]; rw [h1.1]
    · rw [h2.2 r]; rw [h1.2 r]

theorem State.clearPass_site (s : State) (n c k : Nat) :
    (s.clearPass n c).site k = { s.site k with streams := ((s.clearPass n c).site k).streams } := by
  by_cases h : k = n
  · subst h; simp [State.clearPass]
  · simp [State.clearPass, s.site_modSite_ne h]

/-- What the end of a calm issue makes of the state its lanes have left. -/
theorem Progress.finish_rest (v s : State) (g : Gang)
    (h0 : (s.site (siteOf g.core)).streamOf (s.gangLaunch g).tenant = none)
    (h1 : (v.site (siteOf g.core)).streamOf (s.gangLaunch g).tenant = none) :
    ∃ t, (Progress.mk v []).finish s g = t ∧
      t = { v with squads := t.squads, cores := t.cores, sites := t.sites, gang := none } ∧
      (∀ q, t.squad q = { v.squad q with lead := (t.squad q).lead }) ∧
      (∀ c, t.core c = { v.core c with
        order := (t.core c).order, gangCount := (t.core c).gangCount, membGangs := (t.core c).membGangs }) ∧
      (∀ n, t.site n = { v.site n with streams := (t.site n).streams }) := by
  have hev := gangEvents_at s ⟨v, []⟩ g
  have hp : s.points g.core (gangEvents s ⟨v, []⟩ g) = .go s :=
    s.points_untraced _ _ fun e he => by rw [(hev e he).1, (hev e he).2]; exact h0
  have hcp : ((v.clearPass (siteOf g.core) g.core).site (siteOf g.core)).streamOf
      (s.gangLaunch g).tenant = none := by rw [State.streamOf_clearPass]; exact h1
  let v1 := (v.clearPass (siteOf g.core) g.core).toBack g.core g.move.toList
  have hr := State.releads_rest g.squads v1
  let v2 := g.squads.foldl (fun s q => s.relead q false) v1
  have hr1 : v2 = { v1 with squads := v2.squads } := hr.1
  let v3 := v2.modCore g.core fun co =>
    { co with
      gangCount := co.gangCount + 1
      membGangs := co.membGangs + if (s.gangLaunch g).memb then 1 else 0 }
  have hs3 : v3.sites = (v.clearPass (siteOf g.core) g.core).sites := by
    have h : v2.sites = v1.sites := (congrArg State.sites hr1).trans rfl
    exact h
  have hemit : (gangEvents s ⟨v, []⟩ g).foldl State.emitEvent v2 = v2 := by
    apply State.emitEvents_untraced
    intro e he
    rw [(hev e he).1, (hev e he).2]
    show ((AMap.getD v2.sites _ _).streamOf _) = none
    rw [show v2.sites = v3.sites from rfl, hs3]; exact hcp
  refine ⟨{ v3 with gang := none }, ?_, ?_, fun q => ?_, fun c => ?_, fun n => ?_⟩
  · simp only [Progress.finish, hp, State.takeTraps_nil]
    exact congrArg (fun u : State =>
      { u.modCore g.core fun co =>
          { co with
            gangCount := co.gangCount + 1
            membGangs := co.membGangs + if (s.gangLaunch g).memb then 1 else 0 } with gang := none }) hemit
  · show ({ v3 with gang := none } : State) = { v with squads := v3.squads, cores := v3.cores, sites := v3.sites, gang := none }
    exact congrArg (fun u : State => { u with cores := v3.cores, sites := v3.sites, gang := none }) hr1
  · exact hr.2 q
  · show v3.core c = { v.core c with
        order := (v3.core c).order, gangCount := (v3.core c).gangCount, membGangs := (v3.core c).membGangs }
    have hc2 : ∀ k, v2.core k = v1.core k := fun k => by
      exact (congrArg (fun u : State => u.core k) hr1).trans rfl
    by_cases h : c = g.core
    · subst h
      simp only [v3, State.core_modCore_self]
      rw [hc2]
      simp only [v1, State.toBack, State.core_modCore_self]
      rfl
    · simp only [v3, v2.core_modCore_ne h]
      rw [hc2]
      simp only [v1, State.toBack, State.core_modCore_ne _ h]
      rfl
  · show (AMap.getD v3.sites _ _) = _
    rw [hs3]; exact v.clearPass_site _ _ _

/-! ## Lane by lane -/

@[simp] theorem State.clock_modThread (s : State) (t : Tid) (f : Thread → Thread) :
    (s.modThread t f).clock = s.clock := rfl

theorem State.issued_eq (s : State) (t : Tid) :
    s.issued t = s.modThread t fun th => th.stepped s.clock := rfl

theorem State.goto_eq (s : State) (t : Tid) (pc : DWord) :
    s.goto t pc = s.modThread t fun th => th.at_ pc := rfl

/-- What a lane's effect must do in each state that the lanes before it can leave. `R` relates a state to
what lanes may make of it, `E` says what the lane's thread and the rest of the state are then. -/
def LaneIs (lane : Issue → Tid → State → LaneOut) (i : Issue) (s : State) (t : Tid)
    (R : State → State → Prop) (E : Tid → State → Prop) : Prop :=
  ∀ u, R s u → u.clock = s.clock → u.thread t = (s.thread t).stepped s.clock → ∃ v,
    (∀ s0, (Progress.mk s0 []).apply i t s0 (lane i t u) = ⟨v, []⟩) ∧ R u v ∧ v.clock = s.clock ∧
      E t v ∧ ∀ w, w ≠ t → v.thread w = u.thread w

/-- The threads of a gang one by one, for effects that a preorder `R` on states bounds. -/
theorem lanes_fold {R : State → State → Prop} (refl : ∀ s, R s s)
    (trans : ∀ a b c, R a b → R b c → R a c) (thread : ∀ s t f, R s (s.modThread t f))
    {E : Tid → State → Prop}
    (stable : ∀ t v w, E t v → R v w → w.thread t = v.thread t → E t w)
    (i : Issue) (guarded : Bool) (lane : Issue → Tid → State → LaneOut) (s : State) :
    ∀ (ms : List (Nat × Tid)) (u : State), R s u → u.clock = s.clock →
      (ms.map Prod.snd).Nodup →
      (∀ m ∈ ms, u.thread m.2 = s.thread m.2) →
      (∀ m ∈ ms, (s.thread m.2).pendingTrap m.2 = none) →
      (∀ m ∈ ms, i.violates (s.thread m.2) = false) →
      (∀ m ∈ ms, (guarded = true → laneActive i.x (s.thread m.2) = true) → LaneIs lane i s m.2 R E) →
      ∃ v, ms.foldl (issueLane i guarded lane) ⟨u, []⟩ = ⟨v, []⟩ ∧ R u v ∧ v.clock = s.clock ∧
        (∀ m ∈ ms, (guarded = true → laneActive i.x (s.thread m.2) = true) → E m.2 v) ∧
        (∀ m ∈ ms, guarded = true → laneActive i.x (s.thread m.2) = false →
          v.thread m.2 = ((s.thread m.2).stepped s.clock).at_ i.nextPc) ∧
        (∀ w, w ∉ ms.map Prod.snd → v.thread w = u.thread w)
  | [], u, _, hc, _, _, _, _, _ => ⟨u, rfl, refl u, hc, by simp, by simp, fun _ _ => rfl⟩
  | m :: ms, u, hr, hck, hnd, hsame, hcalm, hclear, hlane => by
    simp only [List.map_cons, List.nodup_cons] at hnd
    have hth := hsame m (by simp)
    have hp : (u.thread m.2).pendingTrap m.2 = none := by rw [hth]; exact hcalm m (by simp)
    have hv : i.violates (u.thread m.2) = false := by rw [hth]; exact hclear m (by simp)
    have hact : laneActive i.x (u.thread m.2) = laneActive i.x (s.thread m.2) := by rw [hth]
    have hstep : ∃ v, issueLane i guarded lane ⟨u, []⟩ m = ⟨v, []⟩ ∧ R u v ∧ v.clock = s.clock ∧
        ((guarded = true → laneActive i.x (s.thread m.2) = true) → E m.2 v) ∧
        (guarded = true → laneActive i.x (s.thread m.2) = false →
          v.thread m.2 = ((s.thread m.2).stepped s.clock).at_ i.nextPc) ∧
        ∀ w, w ≠ m.2 → v.thread w = u.thread w := by
      by_cases ha : guarded = true ∧ laneActive i.x (s.thread m.2) = false
      · refine ⟨(u.issued m.2).goto m.2 i.nextPc, ?_, ?_, ?_, fun h => ?_, fun _ _ => ?_,
          fun w hw => ?_⟩
        · simp only [issueLane, hp, hv, hact, ha.1, ha.2, Bool.not_false, Bool.and_self, if_true,
            Bool.false_eq_true, if_false]
        · exact trans _ _ _ (thread _ _ _) (thread _ _ _)
        · exact hck
        · simp [h ha.1] at ha
        · rw [State.goto_eq, State.issued_eq, State.thread_modThread_self,
            State.thread_modThread_self, hth, hck]
        · rw [State.goto_eq, State.issued_eq, State.thread_modThread_ne _ hw,
            State.thread_modThread_ne _ hw]
      · have ha' : guarded = true → laneActive i.x (s.thread m.2) = true := by
          intro hg; by_contra hc; exact ha ⟨hg, by simpa using hc⟩
        have hi : (u.issued m.2).thread m.2 = (s.thread m.2).stepped s.clock := by
          rw [State.issued_eq, State.thread_modThread_self, hth, hck]
        obtain ⟨v, hap, hrv, hvc, hE, ho⟩ := hlane m (by simp) ha' (u.issued m.2)
          (trans _ _ _ hr (thread _ _ _)) hck hi
        refine ⟨v, ?_, trans _ _ _ (thread _ _ _) hrv, hvc, fun _ => hE,
          fun h hc => absurd ⟨h, hc⟩ ha, fun w hw => ?_⟩
        · have hc : (guarded && !laneActive i.x (u.thread m.2)) = false := by
            rw [hact]; cases hgu : guarded <;> simp_all
          simp only [issueLane, hp, hv, hc, Bool.false_eq_true, if_false]
          exact hap u
        · rw [ho w hw, State.issued_eq, State.thread_modThread_ne _ hw]
    obtain ⟨v1, he, hr1, hc1, h1, h2, h3⟩ := hstep
    have hne : ∀ m' ∈ ms, m'.2 ≠ m.2 := fun m' hm' hc =>
      hnd.1 (by rw [← hc]; exact List.mem_map_of_mem hm')
    obtain ⟨v, hf, hrv, hcv, g1, g2, g3⟩ := lanes_fold refl trans thread stable i guarded lane s ms v1
      (trans _ _ _ hr hr1) hc1 hnd.2
      (fun m' hm' => (h3 m'.2 (hne m' hm')).trans (hsame m' (by simp [hm'])))
      (fun m' hm' => hcalm m' (by simp [hm'])) (fun m' hm' => hclear m' (by simp [hm']))
      (fun m' hm' => hlane m' (by simp [hm']))
    refine ⟨v, ?_, trans _ _ _ hr1 hrv, hcv, ?_, ?_, ?_⟩
    · rw [List.foldl_cons, he, hf]
    · intro m' hm' hg
      rcases List.mem_cons.1 hm' with rfl | hm'
      · exact stable _ _ _ (h1 hg) hrv (g3 _ hnd.1)
      · exact g1 m' hm' hg
    · intro m' hm' hg hc
      rcases List.mem_cons.1 hm' with rfl | hm'
      · rw [g3 _ hnd.1]; exact h2 hg hc
      · exact g2 m' hm' hg hc
    · intro w hw
      simp only [List.map_cons, List.mem_cons, not_or] at hw
      rw [g3 w hw.2]; exact h3 w hw.1

/-- Only threads differ. -/
def SameButThreads (u v : State) : Prop := v = { u with threads := v.threads }

/-- Only threads, serial numbers, free values and further steps to come differ. -/
def SameButLater (u v : State) : Prop :=
  v = { u with threads := v.threads, agenda := v.agenda, serial := v.serial, free := v.free } ∧
    ∃ l, v.agenda = u.agenda ++ l

theorem SameButThreads.trans {a b c : State} (h : SameButThreads a b) (h' : SameButThreads b c) :
    SameButThreads a c := by
  unfold SameButThreads at *; rw [h'] ; rw [h]

theorem SameButLater.trans {a b c : State} (h : SameButLater a b) (h' : SameButLater b c) :
    SameButLater a c := by
  obtain ⟨h1, l1, h2⟩ := h
  obtain ⟨h3, l2, h4⟩ := h'
  refine ⟨?_, l1 ++ l2, by rw [h4, h2, List.append_assoc]⟩
  rw [h3]; rw [h1]

/-- The lane goes on at the next instruction, having changed its own thread by `f` only. -/
def LaneSets (lane : Issue → Tid → State → LaneOut) (i : Issue) (s : State) (t : Tid)
    (f : Tid → Thread → Thread) : Prop :=
  ∀ u, SameButThreads s u → u.thread t = (s.thread t).stepped s.clock →
    ∃ v, lane i t u = .next v ∧ SameButThreads u v ∧ v.thread t = f t ((s.thread t).stepped s.clock) ∧
      ∀ w, w ≠ t → v.thread w = u.thread w

/-- An instruction whose lanes only change their own threads: it completes, with each active thread's
effect and nothing else. -/
theorem simt_lanes {s : State} {g : Gang} {op : Op} {x : Ext} {len : Nat}
    {lane : Issue → Tid → State → LaneOut} {f : Tid → Thread → Thread} (h : Issuing s g op x len)
    (hlane : ∀ m ∈ g.members, laneActive x (s.thread m.2) = true →
      LaneSets lane ⟨op, x, len, g.core, g.pc⟩ s m.2 f) :
    ∃ t, simt op x len true lane s = .next t ∧ Lanes s t g x f (g.nextPc len) := by
  let i : Issue := ⟨op, x, len, g.core, g.pc⟩
  obtain ⟨v, hf, hr, hc, h1, h2, h3⟩ := lanes_fold (R := SameButThreads)
    (E := fun t v => v.thread t = (f t ((s.thread t).stepped s.clock)).at_ i.nextPc)
    (fun _ => rfl) (fun _ _ _ => SameButThreads.trans) (fun _ _ _ => rfl)
    (fun t v w he _ hw => hw.trans he) i true lane s g.members s rfl rfl h.distinct (fun _ _ => rfl)
    h.calm h.clear (fun m hm ha u hu huc hut => by
      obtain ⟨v, hl, hv, hvt, ho⟩ := hlane m hm (ha rfl) u hu hut
      refine ⟨v.goto m.2 i.nextPc, fun s0 => ?_, hv.trans rfl, ?_, ?_, fun w hw => ?_⟩
      · rw [hl]; rfl
      · show v.clock = s.clock
        rw [hv]; exact huc
      · show (v.goto m.2 i.nextPc).thread m.2 = _
        rw [State.goto_eq, State.thread_modThread_self, hvt]
      · rw [State.goto_eq, State.thread_modThread_ne _ hw]; exact ho w hw)
  have hsites : v.sites = s.sites := by rw [hr]
  obtain ⟨t, ht, hrest, hq, hco, hsi⟩ := Progress.finish_rest v s g h.untraced
    (by show (AMap.getD v.sites _ _).streamOf _ = none; rw [hsites]; exact h.untraced)
  have hth : ∀ w, t.thread w = v.thread w := fun w => by
    show AMap.getD t.threads _ _ = _; rw [hrest]; rfl
  refine ⟨t, ?_, fun m hm ha => ?_, fun m hm ha => ?_, ⟨fun u hu => ?_, fun q => ?_, fun c => ?_,
    fun n => ?_, ?_⟩⟩
  · simp only [simt, h.gang, h.legal]
    rw [hf, ht]
  · rw [hth]; exact h1 m hm fun _ => ha
  · rw [hth]; exact h2 m hm rfl ha
  · rw [hth]; exact h3 u hu
  · rw [hq]; rw [hr]; rfl
  · rw [hco]; rw [hr]; rfl
  · rw [hsi]; rw [hr]; rfl
  · rw [hrest]; rw [hr]

/-! ## Operands read alike in states that differ in threads only -/

theorem SameButThreads.launchOf {s u : State} (h : SameButThreads s u) (t : Tid) :
    u.launchOf t = s.launchOf t := by rw [h]; rfl

theorem SameButThreads.k {s u : State} (h : SameButThreads s u) (t : Tid) (i : Nat) :
    u.k t i = s.k t i := by rw [h]; rfl

@[simp] theorem Thread.stepped_x (th : Thread) (c i : Nat) : (th.stepped c).x i = th.x i := rfl
@[simp] theorem Thread.stepped_p (th : Thread) (c i : Nat) : (th.stepped c).p i = th.p i := rfl

@[simp] theorem Thread.stepped_xs (th : Thread) (c : Nat) : ∀ n i, (th.stepped c).xs i n = th.xs i n
  | 0, _ => rfl
  | n + 1, i => by simp only [Thread.xs, Thread.stepped_x, Thread.stepped_xs th c n]

@[simp] theorem Thread.stepped_xp (th : Thread) (c i : Nat) : (th.stepped c).xp i = th.xp i := by
  simp [Thread.xp]

@[simp] theorem Thread.raise_zero (th : Thread) : th.raise 0 = th := by simp [Thread.raise]

/-- A state in which the lane `t` of `s` is about to act. -/
structure LaneAt (s u : State) (t : Tid) : Prop where
  same : SameButThreads s u
  thread : u.thread t = (s.thread t).stepped s.clock

theorem LaneAt.operandB {s u : State} {t : Tid} (h : LaneAt s u t) (x : Ext) (n : Nat) :
    operandB u x t n = operandB s x t n := by
  simp [Machine.operandB, h.thread, h.same.k]

theorem LaneAt.srcA {s u : State} {t : Tid} (h : LaneAt s u t) (i : Issue) :
    srcA u i t = srcA s i t := by simp [Machine.srcA, h.thread]

theorem LaneAt.srcB {s u : State} {t : Tid} (h : LaneAt s u t) (i : Issue) :
    srcB u i t = srcB s i t := by simp [Machine.srcB, h.operandB]

theorem LaneAt.srcC {s u : State} {t : Tid} (h : LaneAt s u t) (i : Issue) :
    srcC u i t = srcC s i t := by simp [Machine.srcC, h.thread]

theorem LaneAt.effAddr {s u : State} {t : Tid} (h : LaneAt s u t) (i : Issue) :
    effAddr u i t = effAddr s i t := by
  simp [Machine.effAddr, Machine.displacement, h.thread, h.same.k]

/-- A lane function that is one change of its own thread. -/
theorem LaneSets.mod {lane : Issue → Tid → State → LaneOut} {i : Issue} {s : State} {t : Tid}
    {f : Tid → Thread → Thread}
    (h : ∀ u, LaneAt s u t → lane i t u = .next (u.modThread t (f t))) : LaneSets lane i s t f :=
  fun u hu hut => ⟨_, h u ⟨hu, hut⟩, rfl, by rw [State.thread_modThread_self, hut],
    fun _ hw => u.thread_modThread_ne hw _⟩

theorem AMap.set_set {κ α : Type} [DecidableEq κ] (k : κ) (v w : α) :
    ∀ m : AMap κ α, AMap.set k w (AMap.set k v m) = AMap.set k w m
  | [] => by simp [AMap.set]
  | (k', x) :: m => by
    by_cases h : k' = k
    · simp [AMap.set, h]
    · simp [AMap.set, h, AMap.set_set k v w m]

/-- Two changes of one thread are one change. -/
@[simp] theorem State.modThread_modThread (s : State) (t : Tid) (f h : Thread → Thread) :
    (s.modThread t f).modThread t h = s.modThread t fun th => h (f th) := by
  show ({ s with threads := _ } : State) = { s with threads := _ }
  congr 1
  simp only [State.thread, State.modThread, State.setThread, AMap.getD_set_self, AMap.set_set]

/-! ## Long-latency lanes -/

/-- The window that a lane opens, when its results are known at issue (R182). -/
def Issue.window (i : Issue) (id : Nat) (regs : List (Nat × Word)) (flags : Nat) : Window :=
  { id, pc := i.pc, left := i.x.la.toNat, issued := 0, pend := pendingSet i.op i.x, known := true,
    complete := false, regs, preds := [], flags, fault := none }

/-- In every state that the lanes before it can leave, the lane opens a window with the results that `f`
and `fl` give in `s`. -/
def LaneOpens (lane : Issue → Tid → State → LaneOut) (i : Issue) (s : State) (t : Tid)
    (f : Tid → List (Nat × Word)) (fl : Tid → Nat) : Prop :=
  ∀ u, SameButLater s u → u.thread t = (s.thread t).stepped s.clock →
    lane i t u = u.later i t (f t) [] (fl t)

/-- What a lane that opens a window leaves. -/
theorem State.later_eq (u : State) (i : Issue) (t : Tid) (r : List (Nat × Word)) (fl : Nat) :
    ∃ v, u.later i t r [] fl = .next v ∧ SameButLater u v ∧
      v.thread t = { u.thread t with windows := (u.thread t).windows ++ [i.window u.serial r fl] } ∧
      (∀ w, w ≠ t → v.thread w = u.thread w) ∧
      ({ at_ := u.tick + coreTicks, ev := .longLatencyComplete t u.serial } : Due) ∈ v.agenda := by
  refine ⟨_, rfl, ⟨rfl, _, rfl⟩, ?_, fun w hw => ?_, ?_⟩
  · show AMap.getD (AMap.set t _ u.threads) t _ = _
    rw [AMap.getD_set_self]; rfl
  · show AMap.getD (AMap.set t _ u.threads) w _ = _
    rw [AMap.getD_set_ne hw]; rfl
  · exact List.mem_append_right _ (by simp)

theorem SameButLater.setThread (u : State) (t : Tid) (f : Thread → Thread) :
    SameButLater u (u.modThread t f) := ⟨rfl, [], by simp [State.modThread, State.setThread]⟩

/-- An instruction whose lanes only open windows: it completes, and nothing else changes. -/
theorem simt_later {s : State} {g : Gang} {op : Op} {x : Ext} {len : Nat}
    {lane : Issue → Tid → State → LaneOut} {f : Tid → List (Nat × Word)} {fl : Tid → Nat}
    (h : Issuing s g op x len)
    (hlane : ∀ m ∈ g.members, laneActive x (s.thread m.2) = true →
      LaneOpens lane ⟨op, x, len, g.core, g.pc⟩ s m.2 f fl) :
    ∃ t, simt op x len true lane s = .next t ∧ LanesLater s t g op x f fl (g.nextPc len) := by
  let i : Issue := ⟨op, x, len, g.core, g.pc⟩
  obtain ⟨v, hf, hr, hc, h1, h2, h3⟩ := lanes_fold (R := SameButLater)
    (E := fun t v => ∃ id at_,
      v.thread t = { ((s.thread t).stepped s.clock).at_ i.nextPc with
        windows := ((s.thread t).stepped s.clock).windows ++ [i.window id (f t) (fl t)] } ∧
      ({ at_, ev := .longLatencyComplete t id } : Due) ∈ v.agenda)
    (fun _ => ⟨rfl, [], by simp⟩) (fun _ _ _ => SameButLater.trans) SameButLater.setThread
    (fun t v w he hr hw => by
      obtain ⟨id, at_, hth, hag⟩ := he
      obtain ⟨-, l, hl⟩ := hr
      exact ⟨id, at_, hw.trans hth, by rw [hl]; exact List.mem_append_left _ hag⟩)
    i true lane s g.members s ⟨rfl, [], by simp⟩ rfl h.distinct (fun _ _ => rfl)
    h.calm h.clear (fun m hm ha u hu huc hut => by
      obtain ⟨v, hl, hv, hvt, ho, hag⟩ := u.later_eq i m.2 (f m.2) (fl m.2)
      have hlu : lane i m.2 u = .next v := (hlane m hm (ha rfl) u hu hut).trans hl
      refine ⟨v.goto m.2 i.nextPc, fun s0 => ?_, hv.trans (SameButLater.setThread _ _ _), ?_,
        ⟨u.serial, u.tick + coreTicks, ?_, hag⟩, fun w hw => ?_⟩
      · rw [hlu]; rfl
      · show v.clock = s.clock
        rw [hv.1]; exact huc
      · rw [State.goto_eq, State.thread_modThread_self, hvt, hut]; rfl
      · rw [State.goto_eq, State.thread_modThread_ne _ hw]; exact ho w hw)
  have hsites : v.sites = s.sites := by rw [hr.1]
  obtain ⟨t, ht, hrest, hq, hco, hsi⟩ := Progress.finish_rest v s g h.untraced
    (by show (AMap.getD v.sites _ _).streamOf _ = none; rw [hsites]; exact h.untraced)
  have hth : ∀ w, t.thread w = v.thread w := fun w => by
    show AMap.getD t.threads _ _ = _; rw [hrest]; rfl
  have hag : t.agenda = v.agenda := by rw [hrest]
  refine ⟨t, ?_, fun m hm ha => ?_, fun m hm ha => ?_, ⟨fun u hu => ?_, fun q => ?_, fun c => ?_,
    fun n => ?_, ?_, ?_⟩⟩
  · simp only [simt, h.gang, h.legal]
    rw [hf, ht]
  · rw [hth, hag]; exact h1 m hm fun _ => ha
  · rw [hth]; exact h2 m hm rfl ha
  · rw [hth]; exact h3 u hu
  · rw [hq]; rw [hr.1]; rfl
  · rw [hco]; rw [hr.1]; rfl
  · rw [hsi]; rw [hr.1]; rfl
  · rw [hag]; exact hr.2
  · rw [hrest]; rw [hr.1]

theorem SameButLater.k {s u : State} (h : SameButLater s u) (t : Tid) (i : Nat) :
    u.k t i = s.k t i := by rw [h.1]; rfl

/-- A state in which the lane `t` of `s` is about to act, after lanes that have opened windows. -/
structure LaneAtLater (s u : State) (t : Tid) : Prop where
  same : SameButLater s u
  thread : u.thread t = (s.thread t).stepped s.clock

theorem LaneAtLater.operandB {s u : State} {t : Tid} (h : LaneAtLater s u t) (x : Ext) (n : Nat) :
    operandB u x t n = operandB s x t n := by
  simp [Machine.operandB, h.thread, h.same.k]

theorem LaneAtLater.srcA {s u : State} {t : Tid} (h : LaneAtLater s u t) (i : Issue) :
    srcA u i t = srcA s i t := by simp [Machine.srcA, h.thread]

theorem LaneAtLater.srcB {s u : State} {t : Tid} (h : LaneAtLater s u t) (i : Issue) :
    srcB u i t = srcB s i t := by simp [Machine.srcB, h.operandB]

/-! ## Lanes that go on at a PC of their own -/

/-- The lane changes its own thread by `f` only, and goes on at `pc`. -/
def LaneGoes (lane : Issue → Tid → State → LaneOut) (i : Issue) (s : State) (t : Tid)
    (f : Thread → Thread) (pc : DWord) : Prop :=
  ∀ u, LaneAt s u t → ∃ v, (lane i t u = .jump v pc ∨ (lane i t u = .next v ∧ pc = i.nextPc)) ∧
    SameButThreads u v ∧ v.thread t = f ((s.thread t).stepped s.clock) ∧
    ∀ w, w ≠ t → v.thread w = u.thread w

/-- An instruction whose lanes only change their own threads, each going on at a PC of its own. -/
theorem simt_jumps {s : State} {g : Gang} {op : Op} {x : Ext} {len : Nat} {guarded : Bool}
    {lane : Issue → Tid → State → LaneOut} {f : Tid → Thread → Thread} {target : Tid → DWord}
    (h : Issuing s g op x len)
    (hlane : ∀ m ∈ g.members, laneActive x (s.thread m.2) = true →
      LaneGoes lane ⟨op, x, len, g.core, g.pc⟩ s m.2 (f m.2) (target m.2))
    (hrest : ∀ m ∈ g.members, guarded = false → laneActive x (s.thread m.2) = false →
      LaneGoes lane ⟨op, x, len, g.core, g.pc⟩ s m.2 (fun th => th) (g.nextPc len)) :
    ∃ t, simt op x len guarded lane s = .next t ∧ Jumps s t g x f target (g.nextPc len) := by
  let i : Issue := ⟨op, x, len, g.core, g.pc⟩
  obtain ⟨v, hf, hr, hc, h1, h2, h3⟩ := lanes_fold (R := SameButThreads)
    (E := fun t v =>
      (laneActive x (s.thread t) = true →
        v.thread t = (f t ((s.thread t).stepped s.clock)).at_ (target t)) ∧
      (laneActive x (s.thread t) = false → v.thread t = ((s.thread t).stepped s.clock).at_ (g.nextPc len)))
    (fun _ => rfl) (fun _ _ _ => SameButThreads.trans) (fun _ _ _ => rfl)
    (fun t v w he _ hw => ⟨fun ha => hw.trans (he.1 ha), fun ha => hw.trans (he.2 ha)⟩) i guarded lane s
    g.members s rfl rfl h.distinct (fun _ _ => rfl) h.calm h.clear (fun m hm ha u hu huc hut => by
      have fin : ∀ (fn : Thread → Thread) (pc : DWord), LaneGoes lane i s m.2 fn pc → ∃ v,
          (∀ s0, (Progress.mk s0 []).apply i m.2 s0 (lane i m.2 u) = ⟨v, []⟩) ∧ SameButThreads u v ∧
            v.clock = s.clock ∧ v.thread m.2 = (fn ((s.thread m.2).stepped s.clock)).at_ pc ∧
            ∀ w, w ≠ m.2 → v.thread w = u.thread w := by
        intro fn pc hg
        obtain ⟨v, hl, hv, hvt, ho⟩ := hg u ⟨hu, hut⟩
        refine ⟨v.goto m.2 pc, fun s0 => ?_, hv.trans rfl, ?_, ?_, fun w hw => ?_⟩
        · rcases hl with hl | ⟨hl, rfl⟩ <;> rw [hl] <;> rfl
        · show v.clock = s.clock
          rw [hv]; exact huc
        · rw [State.goto_eq, State.thread_modThread_self, hvt]
        · rw [State.goto_eq, State.thread_modThread_ne _ hw]; exact ho w hw
      cases hact : laneActive x (s.thread m.2) with
      | true =>
        obtain ⟨v, a, b, c, d, e⟩ := fin _ _ (hlane m hm hact)
        exact ⟨v, a, b, c, ⟨fun _ => d, fun hc => absurd (hact.symm.trans hc) (by simp)⟩, e⟩
      | false =>
        have hg : guarded = false := by
          cases guarded
          · rfl
          · exact absurd (ha rfl) (by simp [i, hact])
        obtain ⟨v, a, b, c, d, e⟩ := fin _ _ (hrest m hm hg hact)
        exact ⟨v, a, b, c, ⟨fun hc => absurd (hact.symm.trans hc) (by simp), fun _ => d⟩, e⟩)
  have hsites : v.sites = s.sites := by rw [hr]
  obtain ⟨t, ht, hrest, hq, hco, hsi⟩ := Progress.finish_rest v s g h.untraced
    (by show (AMap.getD v.sites _ _).streamOf _ = none; rw [hsites]; exact h.untraced)
  have hth : ∀ w, t.thread w = v.thread w := fun w => by
    show AMap.getD t.threads _ _ = _; rw [hrest]; rfl
  refine ⟨t, ?_, fun m hm ha => ?_, fun m hm ha => ?_, ⟨fun u hu => ?_, fun q => ?_, fun c => ?_,
    fun n => ?_, ?_⟩⟩
  · simp only [simt, h.gang, h.legal]
    rw [hf, ht]
  · rw [hth]; exact (h1 m hm fun _ => ha).1 ha
  · cases guarded
    · rw [hth]; exact (h1 m hm fun hc => by simp at hc).2 ha
    · rw [hth]; exact h2 m hm rfl ha
  · rw [hth]; exact h3 u hu
  · rw [hq]; rw [hr]; rfl
  · rw [hco]; rw [hr]; rfl
  · rw [hsi]; rw [hr]; rfl
  · rw [hrest]; rw [hr]

/-! ## One thread alone -/

/-- An instruction that one thread issues alone, whose lane answers a next state or a jump: the machine is
that state with the thread at its PC, settled. -/
theorem simt_sole {s : State} {g : Gang} {op : Op} {x : Ext} {len : Nat} {guarded : Bool}
    {lane : Issue → Tid → State → LaneOut} {u : Tid} {v : State} (h : Sole s g op x len u)
    (hlane : ∀ s0, (Progress.mk s0 []).apply ⟨op, x, len, g.core, g.pc⟩ u s0
      (lane ⟨op, x, len, g.core, g.pc⟩ u (s.modThread u fun th => th.stepped s.clock)) = ⟨v, []⟩)
    (hv : (v.site (siteOf g.core)).streamOf (s.gangLaunch g).tenant = none) :
    ∃ t, simt op x len guarded lane s = .next t ∧ Settled v t := by
  obtain ⟨p, hp⟩ := h.only
  have hm : (p, u) ∈ g.members := by rw [hp]; simp
  obtain ⟨t, ht, hrest, hq, hco, hsi⟩ := Progress.finish_rest v s g h.untraced hv
  refine ⟨t, ?_, ⟨hq, hco, hsi, hrest⟩⟩
  have hcalm := h.calm (p, u) hm
  have hclear := h.clear (p, u) hm
  have hact : laneActive x (s.thread u) = true := h.active
  simp only [simt, h.gang, h.legal]
  rw [hp]
  simp only [List.foldl_cons, List.foldl_nil, issueLane]
  simp only at hcalm hclear
  rw [hcalm, hclear, hact]
  simp only [Bool.not_true, Bool.and_false, Bool.false_eq_true, if_false]
  rw [State.issued_eq, hlane s, ht]

end Sys2Proof.Machine
end

