-- ==== Sys2Proof/Laws/Squads.lean ====
section
/-! SUPPORT. What the skeleton of an instruction that acts squad by squad does, said once. -/

namespace Sys2Proof.Machine

/-- One change of each of some threads. -/
theorem modEach {κ : Type} (f : Tid → Thread → Thread) :
    ∀ (ts : List Tid), ts.Nodup → ∀ s : State,
      SameButThreads s (ts.foldl (fun s t => s.modThread t (f t)) s) ∧
      (∀ t ∈ ts, (ts.foldl (fun s t => s.modThread t (f t)) s).thread t = f t (s.thread t)) ∧
      ∀ w, w ∉ ts → (ts.foldl (fun s t => s.modThread t (f t)) s).thread w = s.thread w
  | [], _, s => ⟨rfl, by simp, fun _ _ => rfl⟩
  | t :: ts, hnd, s => by
    rw [List.nodup_cons] at hnd
    obtain ⟨h1, h2, h3⟩ := modEach (κ := κ) f ts hnd.2 (s.modThread t (f t))
    simp only [List.foldl_cons]
    refine ⟨SameButThreads.trans (show SameButThreads s (s.modThread t (f t)) from rfl) h1, fun u hu => ?_, fun w hw => ?_⟩
    · rcases List.mem_cons.1 hu with rfl | hu
      · rw [h3 _ hnd.1, State.thread_modThread_self]
      · have hne : u ≠ t := fun hc => hnd.1 (hc ▸ hu)
        rw [h2 u hu, State.thread_modThread_ne _ hne]
    · simp only [List.mem_cons, not_or] at hw
      rw [h3 w hw.2, State.thread_modThread_ne _ hw.1]

/-- The threads of a squad in a gang. -/
def Gang.of (g : Gang) (q : Sid) : List Tid := (g.members.filter fun m => m.2.sid == q).map (·.2)

theorem Gang.mem_of {g : Gang} {q : Sid} {t : Tid} :
    t ∈ g.of q ↔ t ∈ g.members.map Prod.snd ∧ t.sid = q := by
  simp only [Gang.of, List.mem_map, List.mem_filter, beq_iff_eq]
  constructor
  · rintro ⟨m, ⟨hm, hq⟩, rfl⟩; exact ⟨⟨m, hm, rfl⟩, hq⟩
  · rintro ⟨⟨m, hm, rfl⟩, hq⟩; exact ⟨m, ⟨hm, hq⟩, rfl⟩

theorem Gang.nodup_of {g : Gang} (h : (g.members.map Prod.snd).Nodup) (q : Sid) : (g.of q).Nodup :=
  (List.filter_sublist.map _).nodup h

theorem Gang.of_active {g : Gang} {s : State} {x : Ext} {t : Tid} :
    (g.of t.sid).filter (fun u => laneActive x (s.thread u)) = peers s g x t := by
  simp only [Gang.of, peers, List.filter_map, List.filter_filter]
  congr 1
  apply List.filter_congr
  intro m _
  simp [Bool.and_comm]

/-- The squad's effect changes its active threads by `f` and nothing else. -/
def SquadSets (eff : Issue → Sid → List Tid → State → SquadOut) (i : Issue) (g : Gang) (s : State)
    (q : Sid) (f : Tid → Thread → Thread) : Prop :=
  ∀ u, SameButThreads s u → (∀ t ∈ g.of q, u.thread t = (s.thread t).stepped s.clock) → ∃ v,
    eff i q ((g.of q).filter fun t => laneActive i.x (s.thread t)) u = { s := v } ∧
      SameButThreads u v ∧
      (∀ t ∈ g.of q, laneActive i.x (s.thread t) = true →
        v.thread t = f t ((s.thread t).stepped s.clock)) ∧
      (∀ t ∈ g.of q, laneActive i.x (s.thread t) = false → v.thread t = u.thread t) ∧
      ∀ w, w ∉ g.of q → v.thread w = u.thread w

theorem filterMap_none {α β : Type} (f : α → Option β) :
    ∀ l : List α, (∀ a ∈ l, f a = none) → l.filterMap f = []
  | [], _ => rfl
  | a :: l, h => by
    rw [List.filterMap_cons, h a (by simp)]
    exact filterMap_none f l fun b hb => h b (by simp [hb])

/-- One squad of a calm gang. -/
theorem issueSquad_calm {i : Issue} {c : Bool} {eff : Issue → Sid → List Tid → State → SquadOut}
    {g : Gang} {s u : State} {q : Sid} {f : Tid → Thread → Thread} (hu : SameButThreads s u)
    (hsame : ∀ t ∈ g.of q, u.thread t = s.thread t) (hnd : (g.of q).Nodup)
    (hcalm : ∀ t ∈ g.of q, (s.thread t).pendingTrap t = none)
    (hclear : ∀ t ∈ g.of q, i.violates (s.thread t) = false)
    (he : SquadSets eff i g s q f) :
    ∃ v, issueSquad i c eff g ⟨u, []⟩ q = ⟨v, []⟩ ∧ SameButThreads s v ∧
      (∀ t ∈ g.of q, laneActive i.x (s.thread t) = true →
        v.thread t = (f t ((s.thread t).stepped s.clock)).at_ i.nextPc) ∧
      (∀ t ∈ g.of q, laneActive i.x (s.thread t) = false →
        v.thread t = ((s.thread t).stepped s.clock).at_ i.nextPc) ∧
      ∀ w, w ∉ g.of q → v.thread w = u.thread w := by
  have hck : u.clock = s.clock := by rw [hu]
  have hp : ((g.of q).filterMap fun t => (u.thread t).pendingTrap t) = [] :=
    filterMap_none _ _ fun t ht => by rw [hsame t ht]; exact hcalm t ht
  have hb : ((g.of q).filter fun t => ((u.thread t).pendingTrap t).isNone && i.violates (u.thread t))
      = [] := by
    rw [List.filter_eq_nil_iff]
    intro t ht
    rw [hsame t ht, hclear t ht]; simp
  have hact : ((g.of q).filter fun t => laneActive i.x (u.thread t)) =
      (g.of q).filter fun t => laneActive i.x (s.thread t) :=
    List.filter_congr fun t ht => by rw [hsame t ht]
  obtain ⟨k1, k2, k3⟩ := modEach (κ := Unit) (fun _ th => th.stepped s.clock) (g.of q) hnd u
  have hiss : (g.of q).foldl State.issued u =
      (g.of q).foldl (fun s' t => s'.modThread t fun th => th.stepped s.clock) u := by
    have : ∀ (ts : List Tid) (w : State), w.clock = s.clock → ts.foldl State.issued w =
        ts.foldl (fun s' t => s'.modThread t fun th => th.stepped s.clock) w := by
      intro ts
      induction ts with
      | nil => intro w _; rfl
      | cons t ts ih =>
        intro w hw
        simp only [List.foldl_cons]
        rw [State.issued_eq, hw]
        exact ih _ hw
    exact this _ u hck
  obtain ⟨v, hv, hvs, hva, hvi, hvo⟩ := he ((g.of q).foldl State.issued u)
    (by rw [hiss]; exact hu.trans k1) (fun t ht => by rw [hiss, k2 t ht, hsame t ht])
  obtain ⟨l1, l2, l3⟩ := modEach (κ := Unit) (fun _ th => th.at_ i.nextPc) (g.of q) hnd v
  refine ⟨(g.of q).foldl (fun s' t => s'.modThread t fun th => th.at_ i.nextPc) v, ?_, ?_, ?_, ?_, ?_⟩
  · have hset : ∀ (ts : List Tid) (w : State),
        ts.foldl (({ s := v } : SquadOut).settle i u) ⟨w, []⟩ =
          ⟨ts.foldl (fun s' t => s'.modThread t fun th => th.at_ i.nextPc) w, []⟩ := by
      intro ts
      induction ts with
      | nil => intro w; rfl
      | cons t ts ih => intro w; exact ih _
    simp only [issueSquad]
    rw [show (g.members.filter fun m => m.2.sid == q).map (·.2) = g.of q from rfl, hp, hb]
    simp only [List.foldl_nil, List.map_nil, List.append_nil, List.contains_nil, Bool.or_self,
      Bool.not_false, List.filter_true, bne_self_eq_false, Bool.and_false, Bool.false_eq_true, if_false]
    rw [hact, hv]
    simp only [Bool.false_eq_true, if_false]
    exact hset _ _
  · exact (((hu.trans k1).trans (by rw [← hiss]; exact hvs)).trans l1)
  · intro t ht ha
    rw [l2 t ht, hva t ht ha]
  · intro t ht ha
    rw [l2 t ht, hvi t ht ha, hiss, k2 t ht, hsame t ht]
  · intro w hw
    rw [l3 w hw, hvo w hw, hiss, k3 w hw]

/-- The squads of a calm gang one by one. -/
theorem squads_fold {i : Issue} {c : Bool} {eff : Issue → Sid → List Tid → State → SquadOut} {g : Gang}
    {s : State} {f : Tid → Thread → Thread} (hnd : (g.members.map Prod.snd).Nodup)
    (hcalm : ∀ m ∈ g.members, (s.thread m.2).pendingTrap m.2 = none)
    (hclear : ∀ m ∈ g.members, i.violates (s.thread m.2) = false) :
    ∀ (qs : List Sid), qs.Nodup → (∀ q ∈ qs, SquadSets eff i g s q f) → ∀ u, SameButThreads s u →
      (∀ q ∈ qs, ∀ t ∈ g.of q, u.thread t = s.thread t) →
      ∃ v, qs.foldl (issueSquad i c eff g) ⟨u, []⟩ = ⟨v, []⟩ ∧ SameButThreads s v ∧
        (∀ q ∈ qs, ∀ t ∈ g.of q, laneActive i.x (s.thread t) = true →
          v.thread t = (f t ((s.thread t).stepped s.clock)).at_ i.nextPc) ∧
        (∀ q ∈ qs, ∀ t ∈ g.of q, laneActive i.x (s.thread t) = false →
          v.thread t = ((s.thread t).stepped s.clock).at_ i.nextPc) ∧
        ∀ w, (∀ q ∈ qs, w ∉ g.of q) → v.thread w = u.thread w
  | [], _, _, u, hu, _ => ⟨u, rfl, hu, by simp, by simp, fun _ _ => rfl⟩
  | q :: qs, hq, he, u, hu, hsame => by
    rw [List.nodup_cons] at hq
    have hm : ∀ {q' t}, t ∈ g.of q' → ∃ m ∈ g.members, m.2 = t := fun ht => by
      have := (Gang.mem_of.1 ht).1
      simpa using this
    obtain ⟨v1, h1, h2, h3, h4, h5⟩ := issueSquad_calm (c := c) hu (hsame q (by simp))
      (Gang.nodup_of hnd q)
      (fun t ht => by obtain ⟨m, hm, rfl⟩ := hm ht; exact hcalm m hm)
      (fun t ht => by obtain ⟨m, hm, rfl⟩ := hm ht; exact hclear m hm) (he q (by simp))
    have hdis : ∀ q' ∈ qs, ∀ t ∈ g.of q', t ∉ g.of q := fun q' hq' t ht hc =>
      hq.1 (((Gang.mem_of.1 ht).2.symm.trans (Gang.mem_of.1 hc).2) ▸ hq')
    obtain ⟨v, g1, g2, g3, g4, g5⟩ := squads_fold hnd hcalm hclear qs hq.2
      (fun q' hq' => he q' (by simp [hq'])) v1 h2
      (fun q' hq' t ht => (h5 t (hdis q' hq' t ht)).trans (hsame q' (by simp [hq']) t ht))
    have hback : ∀ t ∈ g.of q, v.thread t = v1.thread t := fun t ht =>
      g5 t fun q' hq' hc => hdis q' hq' t hc ht
    refine ⟨v, by rw [List.foldl_cons, h1, g1], g2, ?_, ?_, ?_⟩
    · intro q' hq' t ht ha
      rcases List.mem_cons.1 hq' with rfl | hq'
      · rw [hback t ht]; exact h3 t ht ha
      · exact g3 q' hq' t ht ha
    · intro q' hq' t ht ha
      rcases List.mem_cons.1 hq' with rfl | hq'
      · rw [hback t ht]; exact h4 t ht ha
      · exact g4 q' hq' t ht ha
    · intro w hw
      rw [g5 w fun q' hq' => hw q' (by simp [hq']), h5 w (hw q (by simp))]

/-- An instruction whose squads only change their own threads: it completes, with each active thread's
effect and nothing else. -/
theorem simtSquad_lanes {s : State} {g : Gang} {op : Op} {x : Ext} {len : Nat}
    {eff : Issue → Sid → List Tid → State → SquadOut} {f : Tid → Thread → Thread}
    (h : Issuing s g op x len) (he : ∀ q, SquadSets eff ⟨op, x, len, g.core, g.pc⟩ g s q f) :
    ∃ t, simtSquad op x len eff s = .next t ∧ Lanes s t g x f (g.nextPc len) := by
  obtain ⟨v, hf, hr, h1, h2, h3⟩ := squads_fold (c := (op.uses x).collective) h.distinct h.calm h.clear
    g.squads (List.nodup_dedup _) (fun q _ => he q) s rfl (fun _ _ _ _ => rfl)
  have hmem : ∀ m ∈ g.members, m.2.sid ∈ g.squads ∧ m.2 ∈ g.of m.2.sid := fun m hm =>
    ⟨List.mem_dedup.2 (List.mem_map_of_mem hm), Gang.mem_of.2 ⟨List.mem_map_of_mem hm, rfl⟩⟩
  have hsites : v.sites = s.sites := by rw [hr]
  obtain ⟨t, ht, hrest, hq, hco, hsi⟩ := Progress.finish_rest v s g h.untraced
    (by show (AMap.getD v.sites _ _).streamOf _ = none; rw [hsites]; exact h.untraced)
  have hth : ∀ w, t.thread w = v.thread w := fun w => by
    show AMap.getD t.threads _ _ = _; rw [hrest]; rfl
  refine ⟨t, ?_, fun m hm ha => ?_, fun m hm ha => ?_, ⟨fun u hu => ?_, fun q => ?_, fun c => ?_,
    fun n => ?_, ?_⟩⟩
  · simp only [simtSquad, h.gang, h.legal]
    rw [hf, ht]
  · rw [hth]; exact h1 _ (hmem m hm).1 m.2 (hmem m hm).2 ha
  · rw [hth]; exact h2 _ (hmem m hm).1 m.2 (hmem m hm).2 ha
  · rw [hth]; exact h3 u fun q _ hc => hu (Gang.mem_of.1 hc).1
  · rw [hq]; rw [hr]; rfl
  · rw [hco]; rw [hr]; rfl
  · rw [hsi]; rw [hr]; rfl
  · rw [hrest]; rw [hr]

end Sys2Proof.Machine
end

