-- ==== Sys2Proof/Certificates/Slice0/Obligations.lean ====
section
/-! DEFINITION. The statements for the provers: what each rule of the spec says an instruction or a step of
the module does, what it leaves alone, and where it completes. -/

open Sys2Proof Sys2Proof.Machine

/-- R169, R171: the registers and predicates of a thread. x0 reads as zero and p0 as 1, and writes to them
are discarded; any other register or predicate reads what was last written, and a write leaves the others
alone. A pair or quad has its lowest bits in its lowest register; one that begins at x0 takes x0 as zero
and has its other registers written. A pair at an odd number, a quad at one that is not a multiple of 4,
a register at or above the launch's count and a predicate above p7 trap ILLEGAL_REGISTER where every
decode check passes. -/
def Obligations.RegistersAndPredicates : Prop :=
  (∀ (th : Thread) (i j : Nat) (v : Word) (b : Bool),
    th.x 0 = 0 ∧ th.setX 0 v = th ∧ th.p 0 = true ∧ th.setP 0 b = th ∧
    (i ≠ 0 → (th.setX i v).x i = v) ∧ (j ≠ i → (th.setX i v).x j = th.x j) ∧
    (i ≠ 0 → i < 8 → (th.setP i b).p i = b) ∧ (j ≠ i → i < 8 → (th.setP i b).p j = th.p j) ∧
    (∀ k, (th.setX i v).p k = th.p k ∧ (th.setP i b).x k = th.x k)) ∧
  (∀ (th : Thread) (i n v : Nat), n ∈ [1, 2, 4] →
    th.xs i n = ((List.range n).map fun k => (th.x (i + k)).toNat * 2 ^ (32 * k)).sum ∧
    (∀ k, k < n → (th.setXs i n v).x (i + k) = if i + k = 0 then 0 else BitVec.ofNat 32 (v / 2 ^ (32 * k))) ∧
    (∀ j, j < i ∨ i + n ≤ j → (th.setXs i n v).x j = th.x j)) ∧
  (∀ (op : Op) (x : Ext) (l : Launch) (o : Operand), decodeCheck op x = none → o ∈ op.operands x →
    (if o.pred then 8 ≤ o.num else o.num % o.count ≠ 0 ∨ l.regs < o.num + o.count) →
    issueCheck op x l = some 0x06)

/-- R185: the fate of every opcode that the map does not list. A word whose opcode is 0x00, the zero word
among them, is a ZERO_WORD trap, and a word with another unassigned opcode an ILLEGAL_OPCODE trap,
whatever its other bits. -/
def Obligations.UnassignedOpcodes : Prop :=
  ∀ w : Nat,
    (w / 4 % 256 = 0 → decodeSimt w = .trap 0x01) ∧
    (w / 4 % 256 ∈ (List.range' 0x29 0x17 ++ List.range' 0x51 0xF ++ List.range' 0x77 9 ++
        List.range' 0x8A 0x16 ++ List.range' 0xA7 0x19 ++ List.range' 0xCC 0x14 ++ List.range' 0xED 3 ++
        List.range' 0xF9 7) → decodeSimt w = .trap 0x02)

/-- R186, R176, R175: the spec's worked words decode to the instructions they stand for (08_assembly.md,
09_isa_scalar.md, 14_scribe.md, 18_traps.md). -/
def Obligations.DecodingWords : Prop :=
  decodeSimt 0x070C1404 = .ok (.add false 7 6 5) 4 ∧
  decodeSimt 0xFD002480 = .ok (.br 0xFD true 1) 4 ∧
  decodeSimt (0x00082A01 + 0x18000E32 * 2 ^ 32 + 0x00040000 * 2 ^ 64) =
    .ok (.ld { Ext.zero with d := 10, a := 4, gp := 2, la := 3, ty := 14, rf := 3, imm := 16 }) 12 ∧
  decodeSimt (0x000A0875 + 0x00000500 * 2 ^ 32 + 0x00028081 * 2 ^ 64) =
    .ok (.cmp { Ext.zero with d := 2, a := 5, ty := 5, imm := 10, sub := 2, sel := 1 }) 12 ∧
  decodeSimt (0x0012251D + 0x00000001 * 2 ^ 32 + 0x000040C2 * 2 ^ 64) =
    .ok (.shfl { Ext.zero with d := 9, a := 9, gp := 1, imm := 1, sub := 3, sel := 2 }) 12 ∧
  decodeSimt (0x000003DD + 0x00608000 * 2 ^ 32) =
    .ok (.ctxsave { Ext.zero with c := 4, e := 6 }) 12 ∧
  decodeScribe 0x0C600039 = .ok (.scribeFence 0x63) 4 ∧
  decodeScribe 0x000118A3 = .ok (.vfma 0 1 3 2) 4 ∧ decodeScribe 0x080018C1 = .ok (.sadd 0x40 0 3 3) 4 ∧
  decodeScribe 0x2006291E = .ok (.vaadd 1 0 6 5 4) 4 ∧ decodeScribe 0x1F5F2813 = .ok (.scribeLoop 0xFA 0x1F 5) 4

/-- R174-R181, R186, R299: the encoder and the decoder agree. The words of every well-formed instruction
decode to it with every operand and its length, and bits of that length that decode to an instruction are
the words of that instruction, which is well formed: no bit of an encoding is dropped. -/
def Obligations.DecodeEncode : Prop :=
  (∀ (i : Instr) (w len : Nat), i.wf = true → encode i = some (w, len) → w < 2 ^ (8 * len) ∧
    (i.simt.isSome = true → decodeSimt w = .ok i len) ∧
    (i.scribe.isSome = true → decodeScribe w = .ok i len)) ∧
  (∀ (i : Instr) (w len : Nat), w < 2 ^ (8 * len) →
    ((decodeSimt w = .ok i len → i.simt.isSome = true ∧ i.wf = true ∧ encode i = some (w, len)) ∧
    (len = 4 → decodeScribe w = .ok i 4 → i.scribe.isSome = true ∧ i.wf = true ∧ encode i = some (w, 4))))

/-- R37-R39, R174, R181, R185, R294, R299: a step runs the decoded instruction. With no step of the module
due, the turn of a core whose picker chooses a gang fetches the bytes at the gang's PC, and where they
decode to an instruction the step is that instruction's; a word of LEN 00 within the code object is the
four bytes that its translation gives. Bits that do not decode trap the gang with the cause of the first
check that fails, and a Scribe core's word runs on that core in the same way. A step that is due comes
before every turn, a thread that its watchdog has reached before its core's gang, and a round without turns
left ends once every convergence window whose time is over has closed.

R417: a step in which an engine comes to an event point where a lossless stream makes it stall is not made:
the emitter stalls, and the step is to be made again; a turn in whose preparation an engine must stall is over.

The model's own choices, and no rules of the spec, are the order of a due step before every turn and of the listed turns
(log entries 2 and 30) and that a step is held whole and made again (log entry 44). -/
def Obligations.StepRunsDecoded : Prop :=
  ∀ s : State,
    (∀ e rest, s.dueNow = some (e, rest) → 
      step s = ({ s with agenda := rest } : State).atPoints (some e) (runEv e { s with agenda := rest })) ∧
    (s.dueNow = none → s.todo = [] → s.windowsOver = [] → step s = .next s.endRound) ∧
    (∀ q qs, s.dueNow = none → s.todo = [] → s.windowsOver = q :: qs →
      step s = s.atPoints (some (.convergenceTimeout q)) (runEv (.convergenceTimeout q) s)) ∧
    (∀ c rest u us, s.dueNow = none → s.todo = .core c :: rest → (s.core c).stopped = false →
      s.watched c = u :: us → step s = s.atPoints (some (.watchdog u)) (runEv (.watchdog u) s)) ∧
    (∀ c rest g, s.dueNow = none → s.todo = .core c :: rest → (s.core c).stopped = false →
      s.watched c = [] → ({ s.choose c with todo := rest } : State).gang = some g →
      let v : State := { s.choose c with todo := rest }
      (∀ w s2 i len, v.fetchAt c (v.gangCode g) g.pc = .ok w s2 → decodeSimt w = .ok i len →
        step s = s2.atPoints none (exec i s2)) ∧
      (∀ w s2 n, v.fetchAt c (v.gangCode g) g.pc = .ok w s2 → decodeSimt w = .trap n →
        step s = if n = 0x01 then s2.atPoints none (exec (.illegalOpcode true) s2)
          else if n = 0x02 then s2.atPoints none (exec (.illegalOpcode false) s2)
          else .next (trapGang g n 0 s2)) ∧
      (∀ pa s1, (v.gangCode g).codeBase.toNat ≤ g.pc.toNat →
        g.pc.toNat + 4 ≤ (v.gangCode g).codeBase.toNat + (v.gangCode g).codeLen →
        v.translate c (v.gangCode g).space g.pc.toNat .fetch = .ok (pa, s1) →
        v.accessHeld pa = false → s1.badLoc 0 (.glob pa) 4 = false → s1.readLoc 0 (.glob pa) 4 % 4 = 0 →
        v.fetchAt c (v.gangCode g) g.pc = .ok (s1.readLoc 0 (.glob pa) 4) s1)) ∧
    (∀ sc rest w s2, s.dueNow = none → s.todo = .scribe sc :: rest →
      (s.scribeCore sc).task.isSome = true → (s.scribeCore sc).stall = none →
      ({ s with todo := rest } : State).scribeWord sc = .ok (w, s2) →
      let v : State := { s2 with scribe := some sc }
      (∀ i len, decodeScribe w = .ok i len → step s = v.atPoints none (exec i v)) ∧
      (∀ n, decodeScribe w = .trap n →
        step s = v.atPoints none (exec (.scribeIllegalOpcode (.ofNat 8 n)) v))) ∧
    (∀ e t, (t.stops = [] → s.atPoints e (.next t) = .next t) ∧
      (t.stops ≠ [] → s.atPoints e (.next t) = .next ((s.stallEmitters t.stops).remake e)))

/-- R181, R185, R174: a gang whose word has no opcode, is zero, or lies outside its code object, and one
whose instruction fails a check of R181 steps 4 to 9, traps whole, whatever the guards: each thread is in
trap delivery with the cause, the PC and the same PC to resume at (R320, R321, R326), its registers and
predicates as they were, and nothing is stored.

Each of these steps completes, under the conditions here on the state and its operands alone (exec answers a next
state, that of its own effect): illegalOpcode, codeBounds. -/
def Obligations.WholeGangTraps : Prop :=
  ∀ (s : State) (g : Gang) (i : Instr) (c : Nat), Issuing s g .nop .zero 4 →
    ((i, c) ∈ ([(.illegalOpcode false, 0x02), (.illegalOpcode true, 0x01), (.codeBounds, 0x0B)] :
        List (Instr × Nat)) ∨
      ∃ op x len, i.simt = some (op, x, len) ∧ issueCheck op x (s.gangLaunch g) = some c) →
    ∃ t, exec i s = .next t ∧ NoStore s t ∧ ∀ m ∈ g.members,
      (t.thread m.2).status = .trapped ∧ (t.thread m.2).trapCause = BitVec.ofNat 32 c ∧
      (t.thread m.2).trapPc = g.pc &&& 0xFFFFFFFFFFFFF#64 ∧ (t.thread m.2).resume = g.pc ∧
      (t.thread m.2).regs = (s.thread m.2).regs ∧ (t.thread m.2).preds = (s.thread m.2).preds

/-- No instruction is refused and no step stops the machine: the meaning of an instruction answers a next
state whenever a gang and a Scribe core are chosen to carry it out, and a step always answers one. -/
def Obligations.StepsAnswer : Prop :=
  (∀ (i : Instr) (s : State), s.gang.isSome = true → s.scribe.isSome = true → ∃ t, exec i s = .next t) ∧
    (∀ (i : Instr) (s : State) (r : Refusal), exec i s ≠ .refused r) ∧
    ∀ s : State, ∃ t, step s = .next t

/-- Every step keeps the canonical form of every memory of the machine: DRAM, the scratchpads and
accumulator shares of the teams, the operand buffers, the SRAMs of the Scribe cores and the route banks
list rising addresses and no byte that an unlisted address reads as. -/
def Obligations.StepKeepsMemories : Prop :=
  ∀ s t : State, s.memoriesWf → step s = .next t → t.memoriesWf

/-- R340, R344, R347, R351, R383, R391, R405, R419: reset leaves no thread, squad, team, launch, command or
packet on the module, every memory in canonical form with nothing listed, the launch queues off with no
slot waiting, the sites' registers at the values their tables give, and the boot as the one step to come.
(Memory with nothing listed, and so zero, is the model's own choice: notes/assumptions/3.md.) -/
def Obligations.ResetState : Prop :=
  let s := State.reset
  s.memoriesWf ∧ (∀ a, s.mem.get a = 0) ∧ s.threads = [] ∧ s.squads = [] ∧ s.teams = [] ∧ s.launches = [] ∧
    s.commands = [] ∧ s.packets = [] ∧ (∀ q, s.queue q = .reset ∧ (s.queue q).enabled = false) ∧
    (∀ n, (s.site n).l2live = 0x3F ∧ (s.site n).steercfg = 1000 ∧ (s.site n).netver = 1 ∧
      (s.site n).cap = 64 ∧ (s.site n).trapqcfg = 0 ∧ (s.site n).wregcfg = 0 ∧ (s.site n).sealpcfg = 0) ∧
    s.netroot = 26 ∧ s.plan = .event .boot { s with agenda := [] }

/-- R195, R193, R194, R178, R169: ADD, SUB, MUL, MULH, MIN and MAX, base and extended forms, complete; in
each active lane X(D) is the exact result of the two values by the type's signedness, reduced to the
type's width and widened; MULH's is the high w bits of the product. Nothing else changes (Lanes). A type
outside the instruction's class traps ILLEGAL_TYPE where every other decode check passes.

R195, R134, R144: ADDS and SUBS clamp the exact result to the type's range, and raise SAT in the
lane's FFLAGS exactly where that changed it.

R195: AND, OR, XOR and ANDN act on each bit of the two values; SHL, SHR, SAR and ROL shift or rotate a
by the one-word operand B modulo the width: bit j of the result is the bit named here, for every j below
the width. No flag is raised. -/
def Obligations.TwoSourceInstructions : Prop :=
  ((∀ (op : Op) (x : Ext) (class_ : List Ty), (op, class_) ∈ ([.add, .sub, .mul, .mulh, .adds, .subs, .min,
        .max].map (fun o => (o, ([.b32, .i8, .n8, .i16, .n16, .i32, .n32, .i64, .n64] : List Ty))) ++
        [.and, .or, .xor, .andn, .shl, .shr, .sar, .rol].map (fun o => (o, [.b32, .b64])) : List (Op × List Ty)) →
      decodeCheck op { x with ty := 0 } = none → (∀ ty, Ty.ofCode x.ty.toNat = some ty → ty ∉ class_) →
      decodeCheck op x = some 0x05) ∧
    ∀ (s : State) (g : Gang) (i : Instr) (op : Op) (x : Ext) (len : Nat) (f : Int → Int → Int),
      i.simt = some (op, x, len) → Issuing s g op x len →
      (op, f) ∈ ([(.add, fun a b => a + b), (.sub, fun a b => a - b), (.mul, fun a b => a * b),
        (.mulh, fun a b => a * b / 2 ^ tyBits x.type),
        (.min, fun a b => if a ≤ b then a else b), (.max, fun a b => if a ≤ b then b else a)] :
          List (Op × (Int → Int → Int))) →
      ∃ t, exec i s = .next t ∧ Lanes s t g x (fun u th =>
        th.setXs x.d.toNat x.type.regs (fillInt x.type
          (f (srcInt x.type (srcA s (g.issue op x len) u)) (srcInt x.type (srcB s (g.issue op x len) u)))))
        (g.nextPc len)) ∧
  (∀ (s : State) (g : Gang) (i : Instr) (op : Op) (x : Ext) (len : Nat) (f : Int → Int → Int),
      i.simt = some (op, x, len) → Issuing s g op x len →
      (op, f) ∈ ([(.adds, fun a b => a + b), (.subs, fun a b => a - b)] : List (Op × (Int → Int → Int))) →
      ∃ t, exec i s = .next t ∧ Lanes s t g x (fun u th =>
        let v := f (srcInt x.type (srcA s (g.issue op x len) u)) (srcInt x.type (srcB s (g.issue op x len) u))
        let lo := intMin (tySigned x.type) (tyBits x.type)
        let hi := intMax (tySigned x.type) (tyBits x.type)
        let r := if v < lo then lo else if hi < v then hi else v
        (th.setXs x.d.toNat x.type.regs (fillInt x.type r)).raise (if r = v then 0 else flagSAT))
        (g.nextPc len)) ∧
  (∀ (s : State) (g : Gang) (i : Instr) (op : Op) (x : Ext) (len : Nat),
      i.simt = some (op, x, len) → Issuing s g op x len →
      op ∈ ([.and, .or, .xor, .andn, .shl, .shr, .sar, .rol] : List Op) →
      ∃ (t : State) (r : Tid → Nat), exec i s = .next t ∧
        Lanes s t g x (fun u th => th.setXs x.d.toNat x.type.regs (r u)) (g.nextPc len) ∧
        ∀ u j, j < tyBits x.type →
          let w := tyBits x.type
          let a := srcA s (g.issue op x len) u
          let b := srcB s (g.issue op x len) u
          let c := operandB s x u 1 % w
          (r u).testBit j = match op with
            | .and => a.testBit j && b.testBit j
            | .or => a.testBit j || b.testBit j
            | .xor => Bool.xor (a.testBit j) (b.testBit j)
            | .andn => a.testBit j && !b.testBit j
            | .shl => decide (c ≤ j) && a.testBit (j - c)
            | .shr => decide (j + c < w) && a.testBit (j + c)
            | .sar => if j + c < w then a.testBit (j + c) else a.testBit (w - 1)
            | _ => a.testBit ((j + w - c) % w))

/-- R196: ABS and NEG wrap; CLZ counts the leading zero bits and POPC the one bits, into one register;
BREV moves bit j to bit width - 1 - j. B, BK and BSEL must be zero, and a type outside the class traps
ILLEGAL_TYPE. -/
def Obligations.OneSourceInstructions : Prop :=
  (∀ (op : Op) (x : Ext), op ∈ ([.abs, .neg, .clz, .popc, .brev] : List Op) →
    (x.lit = none → x.short = false → x.b ≠ 0 ∨ x.bk = true ∨ x.sel ≠ 0 → decodeCheck op x = some 0x03) ∧
    (decodeCheck op { x with ty := 0 } = none →
      (∀ ty, Ty.ofCode x.ty.toNat = some ty →
        ty ∉ (if op = .abs ∨ op = .neg then [.b32, .i8, .i16, .i32, .i64] else [.b32, .b64] : List Ty)) →
      decodeCheck op x = some 0x05)) ∧
  ∀ (s : State) (g : Gang) (i : Instr) (op : Op) (x : Ext) (len : Nat),
    i.simt = some (op, x, len) → Issuing s g op x len →
    op ∈ ([.abs, .neg, .clz, .popc, .brev] : List Op) →
    ∃ (t : State) (r : Tid → Nat), exec i s = .next t ∧
      Lanes s t g x (fun u th => th.setXs x.d.toNat
        (if op = .clz ∨ op = .popc then 1 else x.type.regs) (r u)) (g.nextPc len) ∧
      ∀ u,
        let w := tyBits x.type
        let a := srcA s (g.issue op x len) u
        match op with
        | .abs => r u = fillInt x.type (if srcInt x.type a < 0 then -(srcInt x.type a) else srcInt x.type a)
        | .neg => r u = fillInt x.type (-(srcInt x.type a))
        | .clz => r u ≤ w ∧ (∀ j, w - r u ≤ j → j < w → a.testBit j = false) ∧
            (r u < w → a.testBit (w - 1 - r u) = true)
        | .popc => r u = ((List.range w).filter a.testBit).length
        | _ => ∀ j, j < w → (r u).testBit j = a.testBit (w - 1 - j)

/-- R197: MAD, BFX, BFI and SEL. BFX's field is bits pos + len - 1 to pos of a, those at or above the
width dropped, extended by the type's signedness; BFI replaces that field of X(D) by the low bits of a;
SEL takes a or b by P(C). That bits at or above the width are dropped, and the field that is left is extended from its
last bit, is the model's reading (log entry 52).

R198: MOV copies X(A), or operand B where A is 0, a narrow integer extended; LDI writes the
sign-extended immediate; LEA writes the effective address XP(A) + displacement without any check. -/
def Obligations.ThreeSourcesAndMoves : Prop :=
  (∀ (s : State) (g : Gang) (i : Instr) (op : Op) (x : Ext) (len : Nat),
      i.simt = some (op, x, len) → Issuing s g op x len →
      op ∈ ([.mad, .bfx, .bfi, .sel] : List Op) →
      ∃ (t : State) (r : Tid → Nat), exec i s = .next t ∧
        Lanes s t g x (fun u th => th.setXs x.d.toNat x.type.regs (r u)) (g.nextPc len) ∧
        ∀ u,
          let ty := x.type
          let w := tyBits ty
          let a := srcA s (g.issue op x len) u
          let b := srcB s (g.issue op x len) u
          let c := srcC s (g.issue op x len) u
          let old := (s.thread u).xs x.d.toNat ty.regs
          let pos := operandB s x u 1 % w
          let n := min x.e.toNat (w - pos)
          match op with
          | .mad => r u = fillInt ty (srcInt ty a * srcInt ty b + srcInt ty c)
          | .bfx => r u = fillInt ty (if n = 0 then 0 else intVal (tySigned ty) n (a % 2 ^ w / 2 ^ pos))
          | .bfi => ∀ j, j < w → (r u).testBit j =
              if pos ≤ j ∧ j < pos + n then a.testBit (j - pos) else old.testBit j
          | _ => r u = if (s.thread u).p x.c.toNat then a else b) ∧
  (∀ (s : State) (g : Gang) (i : Instr) (op : Op) (x : Ext) (len : Nat),
      i.simt = some (op, x, len) → Issuing s g op x len →
      op ∈ ([.mov, .ldi, .lea] : List Op) →
      ∃ t, exec i s = .next t ∧ Lanes s t g x (fun u th =>
        let ty := x.type
        let v := if x.a = 0 then srcB s (g.issue op x len) u else srcA s (g.issue op x len) u
        match op with
        | .mov => th.setXs x.d.toNat ty.regs (if ty.isInt then fillInt ty (srcInt ty v) else v)
        | .ldi => th.setXs x.d.toNat ty.regs (x.imm.signExtend 64).toNat
        | _ => th.setXs x.d.toNat 2 ((s.thread u).xp x.a.toNat + displacement s (g.issue op x len) u).toNat)
        (g.nextPc len))

/-- R199, R171: CMP sets P(D) to the condition of SUB between the two values by the type's signedness,
and P(E) to its negation, which stands where D and E name one predicate: that is the model's choice (log
entry 127). A SUB of 6 or more traps ILLEGAL_SUBOP where every other check passes, a type of
CMP, DIV or REM outside class I ILLEGAL_TYPE, and CMP has no base form.

R200, R134, R182: DIV and REM open a window that will write the quotient, truncated toward zero, or
the remainder, which has the dividend's sign; division by zero gives all ones, and the dividend. No flag
is raised, and the pending set is D. Neither has a base form. -/
def Obligations.ComparisonAndDivision : Prop :=
  ((∀ (x : Ext), decodeCheck .cmp { x with sub := 0 } = none → 6 ≤ x.sub.toNat → decodeCheck .cmp x = some 0x0A) ∧
      (∀ (op : Op) (x : Ext), op ∈ ([.cmp, .div, .rem] : List Op) → decodeCheck op { x with ty := 0 } = none →
        (∀ ty, Ty.ofCode x.ty.toNat = some ty → ty ∉ ([.b32, .i8, .n8, .i16, .n16, .i32, .n32, .i64, .n64] : List Ty)) →
        decodeCheck op x = some 0x05) ∧
    (∀ (w : Nat), w % 4 = 0 → w / 4 % 256 = 0x1D → decodeSimt w = .trap 0x04) ∧
    ∀ (s : State) (g : Gang) (x : Ext), Issuing s g .cmp x x.len →
      ∃ t, exec (.cmp x) s = .next t ∧ Lanes s t g x (fun u th =>
        let a := srcInt x.type (srcA s (g.issue .cmp x x.len) u)
        let b := srcInt x.type (srcB s (g.issue .cmp x x.len) u)
        let c := match x.sub.toNat with
          | 0 => decide (a = b)
          | 1 => decide (a ≠ b)
          | 2 => decide (a < b)
          | 3 => decide (a ≤ b)
          | 4 => decide (a > b)
          | _ => decide (a ≥ b)
        (th.setP x.d.toNat c).setP x.e.toNat (!c)) (g.nextPc x.len)) ∧
  ((∀ (w : Nat), w % 4 = 0 → w / 4 % 256 ∈ [0x1E, 0x1F] → decodeSimt w = .trap 0x04) ∧
    (∀ (op : Op) (x : Ext), op ∈ ([.div, .rem] : List Op) → x.rf = 0 → pendingSet op x =
      { regs := (List.range' x.d.toNat x.type.regs).filter (· != 0), preds := [], fflags := false }) ∧
    ∀ (s : State) (g : Gang) (i : Instr) (op : Op) (x : Ext) (len : Nat),
      i.simt = some (op, x, len) → Issuing s g op x len → op ∈ ([.div, .rem] : List Op) →
      ∃ t, exec i s = .next t ∧ LanesLater s t g op x (fun u =>
        let a := srcInt x.type (srcA s (g.issue op x len) u)
        let b := srcInt x.type (srcB s (g.issue op x len) u)
        regWrites x.d.toNat x.type.regs (fillInt x.type
          (if op = .div then (if b = 0 then -1 else Int.tdiv a b)
           else if b = 0 then a else Int.tmod a b))) (fun _ => 0) (g.nextPc len))

/-- R206: PAND, POR, PXOR and PNOT on predicates, PSET from a register and PGET into one. A field that
names a predicate above p7 traps ILLEGAL_REGISTER, and a TY, BSEL or BK that is not zero RESERVED_BITS, BK also in the base form of
PAND, POR and PXOR. -/
def Obligations.PredicateInstructions : Prop :=
  (∀ (op : Op) (x : Ext) (l : Launch), op ∈ ([.pand, .por, .pxor, .pnot, .pset, .pget] : List Op) →
    decodeCheck op x = none →
    ((op ≠ .pget ∧ 8 ≤ x.d.toNat) ∨ (op ≠ .pset ∧ 8 ≤ x.a.toNat) ∨
      (op ∈ ([.pand, .por, .pxor] : List Op) ∧ 8 ≤ x.b.toNat)) → issueCheck op x l = some 0x06) ∧
  (∀ (op : Op) (x : Ext), op ∈ ([.pand, .por, .pxor, .pnot, .pset, .pget] : List Op) → x.lit = none →
    x.short = false → x.ty ≠ 0 ∨ x.sel ≠ 0 ∨ x.bk = true → decodeCheck op x = some 0x03) ∧
  (∀ (w : Nat), w % 4 = 0 → w / 4 % 256 ∈ [0x40, 0x41, 0x42] → w / 2 ^ 31 % 2 = 1 → decodeSimt w = .trap 0x03) ∧
  ∀ (s : State) (g : Gang) (i : Instr) (op : Op) (x : Ext) (len : Nat),
    i.simt = some (op, x, len) → Issuing s g op x len →
    op ∈ ([.pand, .por, .pxor, .pnot, .pset, .pget] : List Op) →
    ∃ t, exec i s = .next t ∧ Lanes s t g x (fun u th =>
      let a := (s.thread u).p x.a.toNat
      let b := (s.thread u).p x.b.toNat
      match op with
      | .pand => th.setP x.d.toNat (a && b)
      | .por => th.setP x.d.toNat (a || b)
      | .pxor => th.setP x.d.toNat (Bool.xor a b)
      | .pnot => th.setP x.d.toNat (!a)
      | .pset => th.setP x.d.toNat (decide ((s.thread u).x x.a.toNat ≠ 0))
      | _ => th.setX x.d.toNat (if a then 1 else 0)) (g.nextPc len)

/-- R208: VOTE over the active lanes of each squad: all, any, or the mask of the lanes with P(A) set;
any other SUB traps ILLEGAL_SUBOP.

R209: SHFL takes the source lane's X(A) as it stood before the instruction where that lane is active,
and the lane's own X(A) otherwise; P(E) says which. Any other SUB traps ILLEGAL_SUBOP, and a type of SHFL or
MATCH that is not b32 or b64 ILLEGAL_TYPE.

R211: ELECT names the lowest active lane of each squad in P(D) and X(E); MATCH gives each active lane
the mask of the active lanes that hold its value, and P(E) says whether all do. ELECT takes no type; none
of VOTE, SHFL, ELECT and MATCH has a base form. -/
def Obligations.VotesShufflesElections : Prop :=
  ((∀ (x : Ext), decodeCheck .vote { x with sub := 0 } = none → 3 ≤ x.sub.toNat → decodeCheck .vote x = some 0x0A) ∧
    ∀ (s : State) (g : Gang) (x : Ext), Issuing s g .vote x x.len →
      ∃ t, exec (.vote x) s = .next t ∧ Lanes s t g x (fun u th =>
        let ps := peers s g x u
        let yes := fun v => (s.thread v).p x.a.toNat
        match x.sub.toNat with
        | 0 => th.setP x.d.toNat (ps.all yes)
        | 1 => th.setP x.d.toNat (ps.any yes)
        | _ => th.setXs x.d.toNat 2 ((ps.filter yes).foldl (fun m v => m ||| 2 ^ v.lane) 0)) (g.nextPc x.len)) ∧
  ((∀ (x : Ext), decodeCheck .shfl { x with sub := 0 } = none → 4 ≤ x.sub.toNat → decodeCheck .shfl x = some 0x0A) ∧
      (∀ (op : Op) (x : Ext), op ∈ ([.shfl, .match] : List Op) → decodeCheck op { x with ty := 0 } = none →
        (∀ ty, Ty.ofCode x.ty.toNat = some ty → ty ∉ ([.b32, .b64] : List Ty)) →
        decodeCheck op x = some 0x05) ∧
    ∀ (s : State) (g : Gang) (x : Ext), Issuing s g .shfl x x.len →
      ∃ t, exec (.shfl x) s = .next t ∧ Lanes s t g x (fun u th =>
        let b : Int := operandB s x u 1
        let l : Int := u.lane
        let src : Int := match x.sub.toNat with
          | 0 => b
          | 1 => l - b
          | 2 => l + b
          | _ => (u.lane ^^^ operandB s x u 1 : Nat)
        match (peers s g x u).find? fun v => decide ((v.lane : Int) = src) with
        | some v => (th.setXs x.d.toNat x.type.regs (srcA s (g.issue .shfl x x.len) v)).setP x.e.toNat true
        | none => (th.setXs x.d.toNat x.type.regs (srcA s (g.issue .shfl x x.len) u)).setP x.e.toNat false)
        (g.nextPc x.len)) ∧
  ((∀ (w : Nat), w % 4 = 0 → w / 4 % 256 ∈ [0x46, 0x47, 0x4B, 0x4C] → decodeSimt w = .trap 0x04) ∧
    (∀ (x : Ext), x.lit = none → x.short = false → x.ty ≠ 0 → decodeCheck .elect x = some 0x03) ∧
    ∀ (s : State) (g : Gang) (i : Instr) (op : Op) (x : Ext) (len : Nat),
      i.simt = some (op, x, len) → Issuing s g op x len → op ∈ ([.elect, .match] : List Op) →
      ∃ t, exec i s = .next t ∧ Lanes s t g x (fun u th =>
        let ps := peers s g x u
        let same := ps.filter fun v =>
          decide (srcA s (g.issue op x len) v = srcA s (g.issue op x len) u)
        match op with
        | .elect => (th.setP x.d.toNat (decide (ps.head? = some u))).setX x.e.toNat
            (BitVec.ofNat 32 ((ps.head?.map Tid.lane).getD 0))
        | _ => (th.setXs x.d.toNat 2 (same.foldl (fun m v => m ||| 2 ^ v.lane) 0)).setP x.e.toNat
            (decide (same = ps))) (g.nextPc len))

/-- R210: SRED and SSCAN combine the active lanes' values of each squad in ascending lane order: SRED
writes the combination of all, SSCAN that of the lanes up to each lane, or with .ex of those before it,
where the first active lane gets the operation's first exclusive value. The flags of all combinations are
raised in every active lane. -/
def Obligations.ReduceAndScan : Prop :=
  ∀ (s : State) (g : Gang) (i : Instr) (op : Op) (x : Ext) (len : Nat),
    i.simt = some (op, x, len) → Issuing s g op x len → op ∈ ([.sred, .sscan] : List Op) →
    ∃ t, exec i s = .next t ∧ Lanes s t g x (fun u th =>
      let k := x.sub.toNat % 16
      let value := fun v => scanValue x.type (srcA s (g.issue op x len) v)
      let ps := peers s g x u
      let before := ps.takeWhile fun v => decide (v ≠ u)
      let r := match op with
        | .sred => (combined k x.type (ps.map value)).map Prod.fst
        | _ => if 16 ≤ x.sub.toNat then (combined k x.type (before.map value)).map Prod.fst
            else (combined k x.type ((before ++ [u]).map value)).map Prod.fst
      (th.setXs x.d.toNat x.type.regs (r.getD (firstExclusive k x.type))).raise
        (((combined k x.type (ps.map value)).map Prod.snd).getD 0)) (g.nextPc len)

/-- R142, R143: rounding to nearest. The exact value ±m x 2^e rounded into a format, where it does not
overflow, is a value of the format that no other is nearer to, its last bit zero where another is as near;
the inexact flag says whether rounding changed the value. -/
def Obligations.RoundingToNearest : Prop :=
  ∀ (f : Fmt) (n : Bool) (m : Nat) (e : Int), f ∈ [.h16, .bf16, .f32, .f64, .e4m3, .e5m2] →
    let r := f.round .rn n m e false
    let v := (FVal.fin n m e).toRat
    r.bits < 2 ^ f.width ∧
    (r.flags &&& (flagOF ||| flagSAT) = 0 → (f.decode r.bits).isFinite = true ∧
      ((r.flags &&& flagNX ≠ 0) ↔ (f.decode r.bits).toRat ≠ v) ∧
      ∀ y, (f.decode y).isFinite = true →
        |(f.decode r.bits).toRat - v| ≤ |(f.decode y).toRat - v| ∧
        (|(f.decode r.bits).toRat - v| = |(f.decode y).toRat - v| →
          (f.decode y).toRat = (f.decode r.bits).toRat ∨ r.bits % 2 = 0))

/-- R240, R241, R245, R138, R238: FADD, FSUB, FMUL, FMIN, FMAX, FMA, FABS, FNEG and FRND complete;
each element of X(D) is the rounded operation on the elements of the sources, and the flags of all
elements are raised in FFLAGS. -/
def Obligations.FloatArithmetic : Prop :=
  ∀ (s : State) (g : Gang) (i : Instr) (op : Op) (x : Ext) (len : Nat)
    (f : Fmt → Nat → Nat → Nat → Res),
    i.simt = some (op, x, len) → Issuing s g op x len →
    (op, f) ∈ ([(.fadd, fun m a b _ => m.add a b), (.fsub, fun m a b _ => m.sub a b),
      (.fmul, fun m a b _ => m.mul a b), (.fma, fun m a b c => m.fma a b c),
      (.fmin, fun m a b _ => m.minMax false a b), (.fmax, fun m a b _ => m.minMax true a b),
      (.fabs, fun m a _ _ => ⟨a % 2 ^ (m.width - 1), 0⟩),
      (.fneg, fun m a _ _ =>
        ⟨a % 2 ^ (m.width - 1) + (if a.testBit (m.width - 1) then 0 else 2 ^ (m.width - 1)), 0⟩),
      (.frnd, fun m a _ _ => m.integral (Mode.ofSub x.sub.toNat) a)] :
        List (Op × (Fmt → Nat → Nat → Nat → Res))) →
    ∃ t, exec i s = .next t ∧ Lanes s t g x (fun u th =>
      let w := (fmtOf x.type).width
      let k := g.issue op x len
      let r := perElem w (fun j => f (fmtOf x.type) (elemOf w (srcA s k u) j) (elemOf w (srcB s k u) j)
        (elemOf w (srcC s k u) j)) x.type.elems
      (th.setXs x.d.toNat x.type.regs r.bits).raise r.flags) (g.nextPc len)

/-- R240, R244, R182: FDIV, FSQRT, FRCP, FRSQ, FEXP2 and FLOG2 open a window that will write the result
element by element and raise its flags. -/
def Obligations.FloatLongLatency : Prop :=
  ∀ (s : State) (g : Gang) (i : Instr) (op : Op) (x : Ext) (len : Nat) (f : Fmt → Nat → Nat → Res),
    i.simt = some (op, x, len) → Issuing s g op x len →
    (op, f) ∈ ([(.fdiv, fun m a b => m.div a b), (.fsqrt, fun m a _ => m.sqrt a),
      (.frcp, fun m a _ => m.func .rcp a), (.frsq, fun m a _ => m.func .rsq a),
      (.fexp2, fun m a _ => m.func .exp2 a), (.flog2, fun m a _ => m.func .log2 a)] :
        List (Op × (Fmt → Nat → Nat → Res))) →
    let result := fun u =>
      let w := (fmtOf x.type).width
      let k := g.issue op x len
      perElem w (fun j => f (fmtOf x.type) (elemOf w (srcA s k u) j) (elemOf w (srcB s k u) j))
        x.type.elems
    ∃ t, exec i s = .next t ∧ LanesLater s t g op x
      (fun u => regWrites x.d.toNat x.type.regs (result u).bits) (fun u => (result u).flags)
      (g.nextPc len)

/-- R240, R242, R243: FSCALE multiplies by the power of two that operand B gives; FCMP sets P(D) to the
comparison, which is that of the exact values where both are finite, and P(E) to its negation, which
stands where D and E name one predicate: that is the model's choice (log entry 127); FCLASS writes the class mask.

R250, R251: DOT4 and DOT2 write the sum of X(C) and the exact products, rounded once to f32; FFLAGS
reads, reads and clears, sets or writes the flags of the lane. -/
def Obligations.FloatTestsAndDots : Prop :=
  ((∀ (m : Fmt) (a b : Nat), (m.decode a).isFinite = true → (m.decode b).isFinite = true →
      let p := (m.decode a).toRat
      let q := (m.decode b).toRat
      ((m.compare 0 a b).1 = true ↔ p = q) ∧ ((m.compare 1 a b).1 = true ↔ p ≠ q) ∧
      ((m.compare 2 a b).1 = true ↔ p < q) ∧ ((m.compare 3 a b).1 = true ↔ p ≤ q) ∧
      ((m.compare 4 a b).1 = true ↔ q < p) ∧ ((m.compare 5 a b).1 = true ↔ q ≤ p) ∧
      (m.compare 6 a b).1 = false ∧ (m.compare 7 a b).1 = true) ∧
    ∀ (s : State) (g : Gang) (i : Instr) (op : Op) (x : Ext) (len : Nat),
      i.simt = some (op, x, len) → Issuing s g op x len → op ∈ ([.fscale, .fcmp, .fclass] : List Op) →
      ∃ t, exec i s = .next t ∧ Lanes s t g x (fun u th =>
        let m := fmtOf x.type
        let a := srcA s (g.issue op x len) u % 2 ^ m.width
        let b := srcB s (g.issue op x len) u % 2 ^ m.width
        match op with
        | .fscale =>
          let r := m.scale a (intVal true 32 (operandB s x u 1))
          (th.setXs x.d.toNat x.type.regs r.bits).raise r.flags
        | .fcmp =>
          let r := m.compare x.sub.toNat a b
          ((th.setP x.d.toNat r.1).setP x.e.toNat (!r.1)).raise r.2
        | _ => th.setXs x.d.toNat 1 (m.classify a)) (g.nextPc len)) ∧
  (∀ (s : State) (g : Gang) (i : Instr) (op : Op) (x : Ext) (len : Nat),
      i.simt = some (op, x, len) → Issuing s g op x len → op ∈ ([.dot4, .dot2, .fflags] : List Op) →
      ∃ t, exec i s = .next t ∧ Lanes s t g x (fun u th =>
        match op with
        | .fflags =>
          let a := (((s.thread u).x x.a.toNat).setWidth 6 : BitVec 6)
          let rd := th.setXs x.d.toNat 1 (s.thread u).fflags.toNat
          match x.sub.toNat with
          | 0 => rd
          | 1 => { rd with fflags := 0 }
          | 2 => { th with fflags := th.fflags ||| a }
          | _ => { th with fflags := a }
        | _ =>
          let bty := if x.sub = 1 then otherFp8 x.type else x.type
          let r := dotProduct (fmtOf x.type) (fmtOf bty) x.type.elems (srcA s (g.issue op x len) u)
            (operandB s x u 1) ((s.thread u).x x.c.toNat).toNat
          (th.setXs x.d.toNat 1 r.bits).raise r.flags) (g.nextPc len))

/-- R246-R249: CVT converts each element of the pairing with the rounding mode of SUB, and CVTSR with the
lane's random sequence, which moves on; the elements of X(D) outside the pairing are kept (R247). -/
def Obligations.Conversions : Prop :=
  ∀ (s : State) (g : Gang) (i : Instr) (op : Op) (x : Ext) (len : Nat),
    i.simt = some (op, x, len) → Issuing s g op x len → op ∈ ([.cvt, .cvtsr] : List Op) →
    ∃ t, exec i s = .next t ∧ Lanes s t g x (fun u th =>
      let sty := x.sty.getD .b32
      let a := (s.thread u).xs x.a.toNat sty.regs
      let old := if cvtKeeps sty x.type then (s.thread u).xs x.d.toNat 1 else 0
      let pairs := cvtPairsOf sty x.type x.ei
      match op with
      | .cvt =>
        let r := cvtAll sty x.type (Mode.ofSub x.sub.toNat)
          (((s.thread u).x x.c.toNat).toNat % 256) a ⟨old, 0⟩ pairs
        (th.setXs x.d.toNat x.type.regs r.bits).raise r.flags
      | _ =>
        let r := cvtsrAll sty x.type a ⟨old, 0⟩ (s.thread u).rng pairs
        { (th.setXs x.d.toNat x.type.regs r.1.bits).raise r.1.flags with rng := r.2 }) (g.nextPc len)

/-- R201, R202, R204, R205, R179: BR, BRI, LOOP and NOP complete in both forms (br, brExt, bri, briExt, loop, nop,
nopExt): exec answers a next state for every gang and operands that may issue. BR goes to its target in each
lane whose condition holds, a Target literal being a multiple of 4; BRI goes to XP(A) where that address has
bits 63:52 and 1:0 zero; LOOP takes one from X(D) and branches while it is not zero; NOP does nothing. Every
other lane goes on behind the instruction. A literal of BR, CALL or LOOP with bits 1:0 nonzero traps ALIGNMENT
at the branch, in each active lane, and nothing is stored; that it is looked at before a CALL's depth and before LOOP
counts is the model's reading (log entry 52).

R202, R203, R31: RET completes in both forms (ret, retExt): exec answers a next state that takes one from the call depth and goes on at the entry it reads from the
thread's call stack, where the depth is not 0, the entry's line is present, the thread must see every write of it (R105), and its bits 63:52
are zero. That such an entry is taken whatever its bits 1:0 is the model's choice (log entry 128). -/
def Obligations.BranchesAndReturns : Prop :=
  ((∀ (s : State) (g : Gang) (i : Instr) (op : Op) (x : Ext) (len : Nat),
      i.simt = some (op, x, len) → Issuing s g op x len → op ∈ ([.br, .bri, .loop, .nop] : List Op) →
      (∀ v, op ∈ ([.br, .loop] : List Op) → x.lit = some v → v.toNat % 4 = 0) →
      (op = .bri → ∀ m ∈ g.members, laneActive x (s.thread m.2) = true →
        ((s.thread m.2).xp x.a.toNat).toNat < 2 ^ 52 ∧ ((s.thread m.2).xp x.a.toNat).toNat % 4 = 0) →
      let offset : DWord := x.lit.getD (x.imm.signExtend 64 * 4)
      let count := fun u => (s.thread u).x x.d.toNat - 1
      ∃ t, exec i s = .next t ∧ Jumps s t g x
        (fun u th => if op = .loop then th.setX x.d.toNat (count u) else th)
        (fun u => match op with
          | .br => g.pc + offset
          | .bri => (s.thread u).xp x.a.toNat
          | .loop => if x.d = 0 ∨ count u = 0 then g.nextPc len else g.pc + offset
          | _ => g.nextPc len) (g.nextPc len)) ∧
    (∀ (s : State) (g : Gang) (i : Instr) (op : Op) (x : Ext) (len : Nat) (v : DWord),
      i.simt = some (op, x, len) → Issuing s g op x len → op ∈ ([.br, .call, .loop] : List Op) →
      x.lit = some v → v.toNat % 4 ≠ 0 →
      ∃ t, exec i s = .next t ∧ NoStore s t ∧ ∀ m ∈ g.members, (t.thread m.2).regs = (s.thread m.2).regs ∧
        (laneActive x (s.thread m.2) = true → (t.thread m.2).status = .trapped ∧
          (t.thread m.2).trapCause = 0x22#32 ∧ (t.thread m.2).resume = g.pc) ∧
        (laneActive x (s.thread m.2) = false → (t.thread m.2).pc = g.nextPc len))) ∧
  (∀ (s : State) (g : Gang) (i : Instr) (x : Ext) (len : Nat),
      i.simt = some (.ret, x, len) → Issuing s g .ret x len →
      (∀ m ∈ g.members, laneActive x (s.thread m.2) = true →
        let l := s.stackLoc m.2 ((s.thread m.2).depth - 1)
        0 < (s.thread m.2).depth ∧ s.lineAbsent m.2.team l 8 = none ∧ s.badLoc m.2.team l 8 = false ∧
          s.lastAt m.2 l 8 ∧ s.readLoc m.2.team l 8 < 2 ^ 52) →
      ∃ t, exec i s = .next t ∧ Jumps s t g x (fun _ th => { th with depth := th.depth - 1 })
        (fun u => .ofNat 64 (s.readLoc u.team (s.stackLoc u ((s.thread u).depth - 1)) 8)) (g.nextPc len))

/-- R213, R214, R433: SYSRD reads the selected value, and CLOCK the core clocks since the core left reset, those
for which its block was idle not among them, or wafer time in ns. -/
def Obligations.SystemValues : Prop :=
  ∀ (s : State) (g : Gang) (i : Instr) (op : Op) (x : Ext) (len : Nat),
    i.simt = some (op, x, len) → Issuing s g op x len → op ∈ ([.sysrd, .clock] : List Op) →
    ∃ t, exec i s = .next t ∧ Lanes s t g x (fun u th =>
      let c := s.coreOf u.sid
      match op with
      | .sysrd => th.setXs x.d.toNat 1 (match x.imm.toNat with
        | 0 => u.lane
        | 1 => u.squad
        | 2 => u.squad * (s.launchOf u).width + u.lane
        | 3 => (s.team u.team).number
        | 4 => c
        | 5 => c / 96
        | 6 => c / 8 % 12
        | 7 => c % 8
        | _ => (s.thread u).depth)
      | _ => th.setXs x.d.toNat 2 (if x.sub = 0 then
          s.clock - ((s.site (siteOf g.core)).block (blockOf g.core)).born else (s.tick + s.timeBase) / 8)) (g.nextPc len)

/-- R201, R202, R203, R31: CALL and CALLI complete in both forms (call, callExt, calli, calliExt): exec answers a
next state for every gang whose active lanes have a depth below the launch's and a good target. Each of them stores
the return address at the entry of the call depth in its call stack, adds one to the depth and goes on at the target;
the others go on behind the instruction. No byte outside those entries changes, and the entry of a lane that
issues alone holds the return address. At full depth each active lane traps CALL_STACK_OVERFLOW at the
instruction, and nothing is stored; that a bad literal is looked at first is the model's choice (log entry 52). -/
def Obligations.Calls : Prop :=
  ∀ (s : State) (g : Gang) (i : Instr) (op : Op) (x : Ext) (len : Nat), i.simt = some (op, x, len) →
    Issuing s g op x len → op ∈ ([.call, .calli] : List Op) → s.memoriesWf →
    (∀ m ∈ g.members, (s.thread m.2).status = .ready) →
    (∀ v, op = .call → x.lit = some v → v.toNat % 4 = 0) →
    (op = .calli → ∀ m ∈ g.members, laneActive x (s.thread m.2) = true →
      ((s.thread m.2).xp x.a.toNat).toNat < 2 ^ 52 ∧ ((s.thread m.2).xp x.a.toNat).toNat % 4 = 0) →
    let target := fun u => if op = .call then g.pc + x.lit.getD (x.imm.signExtend 64 * 4)
      else (s.thread u).xp x.a.toNat
    let entry := fun u => s.stackLoc u (s.thread u).depth
    ((∀ m ∈ g.members, laneActive x (s.thread m.2) = true → (s.thread m.2).depth < (s.launchOf m.2).depth ∧
        s.badLoc m.2.team (entry m.2) 8 = false) → ∃ t, exec i s = .next t ∧
      (∀ m ∈ g.members, laneActive x (s.thread m.2) = true → t.thread m.2 =
        { ((s.thread m.2).stepped s.clock).at_ (target m.2) with depth := (s.thread m.2).depth + 1 }) ∧
      (∀ m ∈ g.members, laneActive x (s.thread m.2) = false →
        t.thread m.2 = ((s.thread m.2).stepped s.clock).at_ (g.nextPc len)) ∧
      (∀ a, t.mem.get a = s.mem.get a) ∧
      (∀ n h a, h < 2 → (∀ u ∈ activeOf s g x, ∀ o, u.team = n → entry u = .scr h o → a < o ∨ o + 8 ≤ a) →
        ((t.team n).scratch h).get a = ((s.team n).scratch h).get a)) ∧
    (∀ u, Sole s g op x len u → (s.thread u).depth < (s.launchOf u).depth →
      s.badLoc u.team (entry u) 8 = false → ∃ t, exec i s = .next t ∧
        Settled ((((s.issuing u).threadWrite u (entry u) 8 (g.nextPc len).toNat).modThread u fun th =>
          { th with depth := th.depth + 1 }).goto u (target u)) t ∧
        Stores s t (s.lastAt u (entry u) 8) u.team (entry u) 8 (g.nextPc len).toNat) ∧
    ((∀ m ∈ g.members, laneActive x (s.thread m.2) = true → (s.launchOf m.2).depth ≤ (s.thread m.2).depth) →
      ∃ t, exec i s = .next t ∧ NoStore s t ∧ ∀ m ∈ g.members, (t.thread m.2).regs = (s.thread m.2).regs ∧
        (t.thread m.2).depth = (s.thread m.2).depth ∧
        (laneActive x (s.thread m.2) = true → (t.thread m.2).status = .trapped ∧
          (t.thread m.2).trapCause = 0x0C#32 ∧ (t.thread m.2).resume = g.pc) ∧
        (laneActive x (s.thread m.2) = false → (t.thread m.2).pc = g.nextPc len))

/-- R43, R212: SSYNC completes in both forms (ssync, ssyncExt): exec answers a next state for every gang that has
gathered. Each of its threads parks. Where every live thread of a squad is then parked at an SSYNC, all of them go on
at once, ready behind their instructions, if their PCs are equal, and all trap BARRIER_MISMATCH at their own PCs if not;
until then the squad's other threads stay as they were. No thread of another squad changes, and nothing is stored.

R212: TBAR completes in both forms (tbar, tbarExt): exec answers a next state for every gang that has gathered.
Each of its threads parks. Where every live thread of a team is then parked at a TBAR, whatever the PCs, all of them
go on in one clock, ready behind their instructions; until then the team's other threads stay as they were. No thread
of another team changes, and nothing is stored. -/
def Obligations.Barriers : Prop :=
  (∀ (s : State) (g : Gang) (i : Instr) (x : Ext) (len : Nat), i.simt = some (.ssync, x, len) →
      Issuing s g .ssync x len → g.gathered s → g.untraced s →
      let mine := g.members.map Prod.snd
      let from_ := fun u => if u ∈ mine then (s.thread u).stepped s.clock else s.thread u
      let length := fun u => if u ∈ mine then some len else (s.thread u).ssyncLen
      ∃ t, exec i s = .next t ∧ NoStore s t ∧ (∀ u, u.sid ∉ mine.map Tid.sid → t.thread u = s.thread u) ∧
        ∀ q ∈ mine.map Tid.sid,
          ((∃ u ∈ s.liveOf q, length u = none) → ∀ u ∈ s.liveOf q, t.thread u =
            if u ∈ mine then { from_ u with status := .parked (.ssync len) } else s.thread u) ∧
          ((∀ u ∈ s.liveOf q, (length u).isSome = true ∧ (s.thread u).pc = g.pc) → ∀ u ∈ s.liveOf q, t.thread u =
            { (from_ u).at_ (g.pc + BitVec.ofNat 64 ((length u).getD 0)) with
              status := .ready, since := s.clock, heldSince := none }) ∧
          ((∀ u ∈ s.liveOf q, (length u).isSome = true) → (∃ u ∈ s.liveOf q, (s.thread u).pc ≠ g.pc) →
            ∀ u ∈ s.liveOf q, (t.thread u).status = .trapped ∧ (t.thread u).trapCause = 0x84#32 ∧
              (t.thread u).trapPc = ((s.thread u).pc &&& 0xFFFFFFFFFFFFF#64) ∧ (t.thread u).resume = (s.thread u).pc ∧
              (t.thread u).regs = (s.thread u).regs ∧ (t.thread u).preds = (s.thread u).preds)) ∧
  (∀ (s : State) (g : Gang) (i : Instr) (x : Ext) (len : Nat), i.simt = some (.tbar, x, len) →
      Issuing s g .tbar x len → g.gathered s →
      let mine := g.members.map Prod.snd
      let from_ := fun u => if u ∈ mine then (s.thread u).stepped s.clock else s.thread u
      let length := fun u => if u ∈ mine then some len else (s.thread u).tbarLen
      ∃ t, exec i s = .next t ∧ NoStore s t ∧ (∀ u, u.team ∉ mine.map Tid.team → t.thread u = s.thread u) ∧
        ∀ n ∈ mine.map Tid.team,
          ((∃ q ∈ s.squadsOfTeam n, ∃ u ∈ s.liveOf q, length u = none) →
            ∀ q ∈ s.squadsOfTeam n, ∀ u ∈ s.liveOf q, t.thread u =
              if u ∈ mine then { from_ u with status := .parked (.tbar len) } else s.thread u) ∧
          ((∀ q ∈ s.squadsOfTeam n, ∀ u ∈ s.liveOf q, (length u).isSome = true) →
            ∀ q ∈ s.squadsOfTeam n, ∀ u ∈ s.liveOf q, t.thread u =
              { (from_ u).at_ ((s.thread u).pc + BitVec.ofNat 64 ((length u).getD 0)) with
                status := .ready, since := s.clock, heldSince := none }))

/-- R52, R53, R205: EXIT completes in both forms (exit, exitExt): exec answers a next state. The thread has exited
where nothing of its effects is outstanding or the core's retirement tracker has room for their entry, which
the tracker then holds; where it has none, the thread stays parked on the tracker, its windows gone, and
nothing is stored.

R46, R205, R39: YIELD completes in both forms (yield, yieldExt): exec answers a next state that moves the squads of its gang to the back of the core's pick order, keeping
their order, also where no lane is active; its threads go on behind it, and nothing but leads changes
besides.

R215: REALIGN goes on behind the instruction, and from the next clock the core's picker stands still
until the first multiple of 2^s ns of wafer time after the issue, s = 0 selecting 10; the resumption is a
step to come. The partner core is not touched. -/
def Obligations.ExitYieldRealign : Prop :=
  (∀ (s : State) (g : Gang) (i : Instr) (x : Ext) (len : Nat), i.simt = some (.exit, x, len) →
      ∀ u, Sole s g .exit x len u → ∃ v,
        Settled ((s.issuing u).modThread u fun th => { th with status := .parked (.tracker false 0) }) v ∧
        exec i s = .next (v.exitThreads g.core [u]) ∧
        (s.outstanding [u] = [] ∨ (s.core g.core).tracker.length < 64 →
          ((v.exitThreads g.core [u]).thread u).status = .exited) ∧
        (s.outstanding [u] ≠ [] → 64 ≤ (s.core g.core).tracker.length →
          (v.exitThreads g.core [u]).thread u =
            { v.thread u with status := .parked (.tracker false v.serial), windows := [], saved := [] } ∧
            NoStore s (v.exitThreads g.core [u]))) ∧
  (∀ (s : State) (g : Gang) (i : Instr) (x : Ext) (len : Nat), i.simt = some (.yield, x, len) →
      Issuing s g .yield x len → ∃ t, exec i s = .next t ∧
        (t.core g.core).order = (s.core g.core).order.filter (fun q => !g.squads.contains q) ++
          (s.core g.core).order.filter (fun q => g.squads.contains q) ∧
        (∀ m ∈ g.members, t.thread m.2 = ((s.thread m.2).stepped s.clock).at_ (g.nextPc len)) ∧
        Quiet s t g) ∧
  (∀ (s : State) (g : Gang) (i : Instr) (x : Ext) (len : Nat) (u : Tid),
      i.simt = some (.realign, x, len) → Sole s g .realign x len u →
      let e := if x.imm = 0 then 10 else x.imm.toNat
      let slot := ((s.tick + s.timeBase) / 8 / 2 ^ e + 1) * 2 ^ e
      ∃ t, exec i s = .next t ∧ (t.core g.core).stall = some (slot * 8) ∧
        t.thread u = ((s.thread u).stepped s.clock).at_ (g.nextPc len) ∧
        ({ at_ := s.tick + (slot * 8 - (s.tick + s.timeBase)), ev := .realignResume g.core } : Due) ∈ t.agenda ∧
        (∀ c, c ≠ g.core → (t.core c).stall = (s.core c).stall) ∧ t.mem = s.mem ∧ t.teams = s.teams)

/-- R219, R182, R218, R92, R120: LD of a location its address reaches opens a window that will write the value that
the thread sees on path t, extended by the type, and clear the residency predicate; memory and every other
thread stay as they were after the translation. The value is the newest where the thread must see every write
of those bytes. A page that is not resident gives 0 and sets the predicate RF names. -/
def Obligations.Loads : Prop :=
  ∀ (s : State) (g : Gang) (x : Ext) (u : Tid), Sole s g .ld x x.len u →
    let k := g.issue .ld x x.len
    (∀ l s1, Reaches s k u x.type.size .read (.ok l s1) → s1.lineAbsent u.team l x.type.size = none →
      s1.badLoc u.team l x.type.size = false →
      let r := (s1.loadAt k u l).seen .t (s1.party u) u.team l x.type.size
      (s1.plain .t (s1.party u) u.team l x.type.size = true → r.1 = s1.readLoc u.team l x.type.size) ∧
      ∃ t, exec (.ld x) s = .next t ∧
        Settled ((r.2.openWindow k u true
          (regWrites x.d.toNat x.type.regs (fillLoaded x.type r.1))
          (if x.rf = 0 then [] else [(x.rf.toNat, false)]) 0 none).2.goto u (g.nextPc x.len)) t ∧
        NoStore s1 t) ∧
    (Reaches s k u x.type.size .read .absent → x.rf ≠ 0 →
      ∃ t, exec (.ld x) s = .next t ∧
        Settled (((s.issuing u).openWindow k u true (regWrites x.d.toNat x.type.regs 0)
          [(x.rf.toNat, true)] 0 none).2.goto u (g.nextPc x.len)) t ∧ NoStore s t)

/-- R220, R218, R21: ST completes, base and extended (st, stExt): exec answers a next state. It stores the low bytes of
X(D) at the location its address reaches, at once, and clears the residency predicate; every other byte of memory
keeps its value. At a word of register space the register is written in the same step, unless that ends the thread:
so the model says (log entry 22). -/
def Obligations.StoresToMemory : Prop :=
  ∀ (s : State) (g : Gang) (i : Instr) (x : Ext) (len : Nat) (u : Tid) (l : Loc) (s1 : State),
    i.simt = some (.st, x, len) → Sole s g .st x len u → s.memoriesWf →
    let k := g.issue .st x len
    Reaches s k u x.type.size .write (.ok l s1) → s1.badLoc u.team l x.type.size = false →
    let v := (s.thread u).xs x.d.toNat x.type.regs % 2 ^ (8 * x.type.size)
    let w := ((s1.storeAt k u l).threadWrite u l x.type.size v).modThread u
      fun th => if x.rf = 0 then th else th.setP x.rf.toNat false
    (l.plain = true → ∃ t, exec i s = .next t ∧ Settled (w.goto u (g.nextPc len)) t ∧
      Stores s1 t (s1.lastAt u l x.type.size) u.team l x.type.size v) ∧
    (((s.registersWritten w).thread u).status = .ready →
      ∃ t, exec i s = .next t ∧ Settled ((s.registersWritten w).goto u (g.nextPc len)) t)

/-- R221-R224, R226, R228, R182, R21: ATOM, CAS and FADDW complete (atom, cas, faddw): exec answers a next state. They
read the old value, store the new one and open a window that will write the old value in X(D); CAS stores X(E) only
where the old value is X(C), and nothing otherwise; FADDW wakes the waiting threads where the sum reaches its
threshold. Every other byte of memory keeps its value. At a word of register space the register is written in the
same step, unless that ends the thread: so the model says (log entry 22). -/
def Obligations.Atomics : Prop :=
  ∀ (s : State) (g : Gang) (i : Instr) (op : Op) (x : Ext) (len : Nat) (u : Tid) (l : Loc) (s1 : State),
    i.simt = some (op, x, len) → Sole s g op x len u → op ∈ ([.atom, .cas, .faddw] : List Op) → s.memoriesWf →
    let k := g.issue op x len
    let n := x.type.size
    Reaches s k u n .atomic (.ok l s1) → s1.lineAbsent u.team l n = none →
    s1.badLoc u.team l n = false →
    let old := s1.readLoc u.team l n
    let c := (s.thread u).xs x.c.toNat x.type.regs
    let new : Res := match op with
      | .atom => atomOp x.sub.toNat x.type old c
      | .cas => ⟨if old = c then (s.thread u).xs x.e.toNat x.type.regs else old, 0⟩
      | _ => if x.type = .f32 then Fmt.f32.add old c else ⟨(old + c) % 2 ^ (8 * n), 0⟩
    let wakes := op = .faddw ∧ ∀ v, faddwThreshold s1 k u = some v → wordGe x.type new.bits v = true
    let stored := (s1.atomicAt k u l).threadUpdate u l n new.bits
    let made := if op = .cas ∧ old ≠ c then (s1.readAt k u l).sees (s1.party u) u.team l n
      else if wakes then stored.wakeWatchers u.team l n else stored
    let w := (made.openWindow k u true (regWrites x.d.toNat x.type.regs old)
      (if x.rf = 0 then [] else [(x.rf.toNat, false)]) new.flags none).2
    (l.plain = true → ∃ t, exec i s = .next t ∧ Settled (w.goto u (g.nextPc len)) t ∧
      if op = .cas ∧ old ≠ c then NoStore s1 t else Stores s1 t True u.team l n new.bits) ∧
    (((s.registersWritten w).thread u).status = .ready →
      ∃ t, exec i s = .next t ∧ Settled ((s.registersWritten w).goto u (g.nextPc len)) t)

/-- R223, R221, R148, R21: RED completes (red): exec answers a next state. It stores the new value and returns nothing;
its flags go to the slice or core that holds the word, not to the lane. At a word of register space the register is
written in the same step, unless that ends the thread: so the model says (log entry 22). -/
def Obligations.Reductions : Prop :=
  ∀ (s : State) (g : Gang) (x : Ext) (u : Tid) (l : Loc) (s1 : State), Sole s g .red x x.len u →
    s.memoriesWf →
    let k := g.issue .red x x.len
    let n := x.type.size
    Reaches s k u n .atomic (.ok l s1) → s1.lineAbsent u.team l n = none →
    s1.badLoc u.team l n = false →
    let r := atomOp x.sub.toNat x.type (s1.readLoc u.team l n) ((s.thread u).xs x.c.toNat x.type.regs)
    let w := ((((s1.addFlags u.team l r.flags).atomicAt k u l).threadUpdate u l n r.bits).modThread u
      fun th => if x.rf = 0 then th else th.setP x.rf.toNat false)
    (l.plain = true → ∃ t, exec (.red x) s = .next t ∧ Stores s1 t True u.team l n r.bits ∧
      Settled (w.goto u (g.nextPc x.len)) t ∧ (t.thread u).regs = (s.thread u).regs ∧
      (t.thread u).fflags = (s.thread u).fflags ∧
      (match l with
        | .glob pa => ((t.site (siteOfPa pa)).l2aflags.getD (s1.sliceOf pa) 0) =
            ((s1.site (siteOfPa pa)).l2aflags.getD (s1.sliceOf pa) 0) ||| BitVec.ofNat 6 r.flags
        | .scr h _ => (t.core ((s1.team u.team).core + h)).spaFlags =
            (s1.core ((s1.team u.team).core + h)).spaFlags ||| BitVec.ofNat 6 r.flags)) ∧
    (((s.registersWritten w).thread u).status = .ready →
      ∃ t, exec (.red x) s = .next t ∧ Settled ((s.registersWritten w).goto u (g.nextPc x.len)) t)

/-- R229, R230, R92: PREF and CLHINT complete (pref, clhint): exec answers a next state. They change cached lines only,
and clear the residency predicate, and store no byte; that an address in the scratchpad form does nothing, and that one
byte is checked, is the model's reading (log entry 92).

R232, R117, R118, R176: FENCE completes (fence), goes on, stores no byte, and orders: every complete write of a path of X by an agent
that SCOPE covers is one that any reader SCOPE covers must see on the paths of Y from then on.

R94, R231, R112: PAGEREQ completes (pagereq): on a global address with a good completion operand exec answers a
next state. It leaves a page request for its address in the launch's space, and goes on; that the operand is looked
at before the address's form is the model's reading (log entry 48). -/
def Obligations.HintsFencesPageRequests : Prop :=
  (∀ (s : State) (g : Gang) (i : Instr) (op : Op) (x : Ext) (len : Nat) (u : Tid),
      i.simt = some (op, x, len) → Sole s g op x len u →
      (op = .fence →
        let f : Fence := ⟨x.pm1, x.pm2, x.sel.toNat⟩
        ∃ t, exec i s = .next t ∧
          Settled (((s.issuing u).fence f (s.party u)).goto u (g.nextPc len)) t ∧ NoStore s t ∧
          ∀ r ∈ s.unseen, f.names f.x r.path = true → r.owed = .nothing →
            covers f.scope (s.party u) r.agent = true → ∃ r' ∈ t.unseen,
              r' = { r with fences := r'.fences } ∧
              ∀ y a, f.names f.y y = true → covers f.scope (s.party u) a = true → r'.ordered y a = true) ∧
      (∀ l s1, op ∈ ([.pref, .clhint] : List Op) → Reaches s (g.issue op x len) u 1 .read (.ok l s1) →
        ∃ t, exec i s = .next t ∧ NoStore s1 t ∧
          t.thread u = ((if x.rf = 0 then (s.thread u).stepped s.clock
            else ((s.thread u).stepped s.clock).setP x.rf.toNat false)).at_ (g.nextPc len) ∧
          (∀ w, w ≠ u → t.thread w = s.thread w) ∧ t.commands = s.commands ∧ t.agenda = s1.agenda ∧
          t.teams = s.teams ∧ t.launches = s.launches)) ∧
  (∀ (s : State) (g : Gang) (x : Ext) (u : Tid) (s1 : State), Sole s g .pagereq x x.len u →
      let sp := (s.launchOf u).space
      let operand := (s.thread u).xp x.c.toNat
      let a := effAddr s (g.issue .pagereq x x.len) u
      (s.issuing u).checkCompletion g.core (some u.team) sp operand = .ok s1 → a.toNat < 2 ^ 52 →
      ∃ t, exec (.pagereq x) s = .next t ∧ NoStore s1 t ∧
        t.pageReqs = s.pageReqs.set s1.serial
          ⟨sp.asn, sp.root, sp.system, a.toNat, g.core, u.team, operand, s1.party u⟩ ∧
        ({ at_ := s.tick + coreTicks, ev := .pagereqComplete s1.serial } : Due) ∈ t.agenda ∧
        t.thread u = ((s.thread u).stepped s.clock).at_ (g.nextPc x.len))

/-- R227, R331: WAITW completes (waitw): exec answers a next state. With a value that does not keep it waiting it writes it and goes on; otherwise it parks on
the word, its timeout E core clocks away where E is not 0, or what was left of it at a context save. It
stores nothing.

R235, R236: RWAIT and RPOP complete (rwait, rpop): exec answers a next state on a
registered ring. RWAIT writes the slots filled, or parks on an empty ring; RPOP adds one to HEAD where a slot is filled,
and stores nothing else. -/
def Obligations.WaitsAndRings : Prop :=
  (∀ (s : State) (g : Gang) (x : Ext) (u : Tid) (l : Loc) (s1 : State), Sole s g .waitw x x.len u →
      let n := x.type.size
      Reaches s (g.issue .waitw x x.len) u n .read (.ok l s1) → s1.lineAbsent u.team l n = none →
      s1.badLoc u.team l n = false →
      let v := s1.readLoc u.team l n
      let expect := (s.thread u).xs x.c.toNat x.type.regs
      let e := (s.thread u).waitLeft.getD ((s.thread u).x x.e.toNat).toNat
      let th := { (s.thread u).stepped s.clock with waitLeft := none }
      let waits := if x.sub = 1 then wordGe x.type v expect = false else v = expect
      ∃ t, exec (.waitw x) s = .next t ∧ NoStore s1 t ∧ (∀ w, w ≠ u → t.thread w = s.thread w) ∧
        (¬waits → t.thread u =
          (if x.rf = 0 then th.setXs x.d.toNat x.type.regs v
            else (th.setXs x.d.toNat x.type.regs v).setP x.rf.toNat false).at_ (g.nextPc x.len)) ∧
        (waits → t.thread u = { th with status := .parked (.word
            { addr := effAddr s (g.issue .waitw x x.len) u, loc := l, expect,
              deadline := if e = 0 then none else some (s.tick + e * coreTicks), d := x.d.toNat,
              ty := x.type, ge := x.sub == 1, rf := x.rf.toNat, len := x.len,
              fence := ⟨x.pm1, x.pm2, x.sel.toNat⟩ }) } ∧
          (e ≠ 0 → ({ at_ := s.tick + e * coreTicks, ev := .waitwTimeout u } : Due) ∈ t.agenda))) ∧
  (∀ (s : State) (g : Gang) (i : Instr) (op : Op) (x : Ext) (len : Nat) (u : Tid),
      i.simt = some (op, x, len) → Sole s g op x len u →
      let n := x.imm.toNat
      let tm := s.team u.team
      let filled := (tm.ringTailWord n + 2 ^ 32 - tm.ringHead n) % 2 ^ 32
      tm.ringOn n = true → s.badRing u.team n = false → s.memoriesWf →
      let head : Loc := .scr (tm.ringHalf n) (tm.ringBase n)
      (op = .rwait → ∃ t, exec i s = .next t ∧ NoStore s t ∧ t.thread u =
        if filled = 0 then { (s.thread u).stepped s.clock with
          status := .parked (.ring n (tm.ringTailWord n) x.d.toNat len ⟨x.pm1, x.pm2, x.sel.toNat⟩) }
        else (((s.thread u).stepped s.clock).setXs x.d.toNat 1 filled).at_ (g.nextPc len)) ∧
      (op = .rpop → ∃ t, exec i s = .next t ∧ (t.thread u).pc = g.nextPc len ∧
        (t.thread u).regs = (s.thread u).regs ∧
        if filled = 0 then NoStore s t
        else Stores s t ((s.seesRing u n).lastAt u head 4) u.team head 4 ((tm.ringHead n + 1) % 2 ^ 32)))

/-- R64, R233: TINC and TDEC complete (tinc, tdec): exec answers a next state. On a record its address reaches, TINC adds its amount to COUNT; TDEC takes its amount from
COUNT of a BLANK or WAITING record, and a WAITING record of a SIMT task whose COUNT is then 0 becomes
READY and enters the ready queue of its reticle, at the end of its level. That the ready queue is a list beside the
LINK words, and that an amount of 2^31 or more is refused, are the model's (log entries 25 and 47).

R64, R63, R124: TSPAWN and DEFER complete (tspawn, defer): exec answers a next state. TSPAWN of a well-formed record that is BLANK, DONE or ABANDONED, with COUNT above 0, writes
the launch's identity into it and makes it WAITING; DEFER also writes its continuation, and the thread
then leaves as by EXIT; on a WAITING record that holds the same continuation, DEFER only leaves. DEFER's fence stays with
the record, behind those of the DEFERs it has taken before. The order of the checks is the model's (log entry 47). -/
def Obligations.TaskCountsAndSpawns : Prop :=
  (∀ (s : State) (g : Gang) (i : Instr) (op : Op) (x : Ext) (len : Nat) (u : Tid) (pa : Nat) (s1 : State),
      i.simt = some (op, x, len) → Sole s g op x len u → op ∈ ([.tinc, .tdec] : List Op) → s.memoriesWf →
      let k := g.issue op x len
      let d := if x.sub = 1 then 1 else ((s.thread u).x x.c.toNat).toNat
      isGlobal (effAddr s k u) = true →
      (s.issuing u).checkAddr g.core u.team (s.launchOf u).space (effAddr s k u) 64 64 .atomic =
        .ok (.glob pa) s1 →
      s1.badLoc u.team (.glob pa) 64 = false → isRegisterPa pa = false → d < 2 ^ 31 → recState s1 pa ≤ 1 →
      let c := if op = .tinc then recCount s1 pa + d else recCount s1 pa - d
      (op = .tinc ∨ (op = .tdec ∧ (recState s1 pa = 1 → 0 < c))) → -(2 ^ 31) ≤ c → c < 2 ^ 31 →
      (∃ t, exec i s = .next t ∧ Settled ((s1.setRecCount (s1.party u) pa c).goto u (g.nextPc len)) t ∧
        Stores s1 t True u.team (.glob pa) 4 (wrapTo 32 c)) ∧
      (∀ s2, op = .tdec → recState s1 pa = 1 → recCount s1 pa = d → s2 = (s1.setRecCount (s1.party u) pa 0).setRecState (s1.party u) pa 2 →
        recScribe s1 pa = false → (s1.site (recSite s1 pa)).readyQ.length < readyLimit →
        ∃ t, exec i s = .next t ∧
          Settled (((s2.appendTask (recSite s1 pa) (readyTask s2 pa)).due (.taskDispatch (recSite s1 pa)) 0).goto u
            (g.nextPc len)) t ∧
          (t.site (recSite s1 pa)).readyQ = (s1.site (recSite s1 pa)).readyQ ++ [readyTask s2 pa])) ∧
  (∀ (s : State) (g : Gang) (i : Instr) (op : Op) (x : Ext) (len : Nat) (u : Tid) (pa : Nat) (s1 s2 : State),
      i.simt = some (op, x, len) → Sole s g op x len u → op ∈ ([.tspawn, .defer] : List Op) →
      let k := g.issue op x len
      isGlobal (effAddr s k u) = true →
      (s.issuing u).checkAddr g.core u.team (s.launchOf u).space (effAddr s k u) 64 64 .atomic =
        .ok (.glob pa) s1 →
      s1.badLoc u.team (.glob pa) 64 = false → recMalformed s1 pa (s.launchOf u).width = false →
      let entry := ((s.thread u).x x.e.toNat).toNat
      let code := (s.launchOf u).codeBase.toNat
      let arg := ((s.thread u).xp x.c.toNat).toNat % 2 ^ 52
      let leaves := fun (w : State) => ∃ v, Settled (w.modThread u fun th =>
        { th with status := .parked (.tracker false 0) }) v ∧ exec i s = .next (v.exitThreads g.core [u])
      let me := s.party u
      let fenced := fun (w : State) (before : List Fence) =>
        { w with fences := w.fences.set pa (before ++ [⟨x.pm1, x.pm2, x.sel.toNat⟩]) }
      let waiting := fun (w : State) =>
        ({ w.setRec me pa 0x20 (setBits (recWord w pa 0x20) 63 32 (s.team u.team).lid) with
          tasks := w.tasks.set pa ((effAddr s k u).toNat, (s.team u.team).lid) } : State).setRecState me pa 1
      (op = .tspawn → recState s1 pa ∈ [0, 4, 5] → 0 < recCount s1 pa →
        spawnChecks k u s1 pa (recCode s1 pa) = .ok s2 → isRegisterPa pa = false → pa % 64 = 0 →
        GoesOn s g i len u (waiting { s2 with fences := s2.fences.erase pa })) ∧
      (op = .defer → recState s1 pa = 1 → recEntry s1 pa = entry → recCode s1 pa = code →
        recArg s1 pa = arg → spawnChecks k u s1 pa code = .ok s2 → leaves (fenced s2 (AMap.getD s2.fences pa []))) ∧
      (op = .defer → recState s1 pa ∈ [0, 4, 5] → 0 < recCount s1 pa → spawnChecks k u s1 pa code = .ok s2 →
        isRegisterPa pa = false → pa % 64 = 0 →
        let w1 := (fenced s2 []).setRec me pa 8 (setBits (recWord s2 pa 8) 31 0 entry)
        let w2 := w1.setRec me pa 0x10 (setBits (recWord w1 pa 0x10) 51 0 code)
        leaves (waiting (w2.setRec me pa 0x18 (setBits (recWord w2 pa 0x18) 51 0 arg)))))

/-- R290, R321, R322, R326, R55: TRAP and BKPT put their thread in trap delivery with the cause, its own
PC in TRAPPC, no address and its issue position in the CSRs, the next instruction as the resume PC, and
hand one report to the trap queue of the core's reticle. Nothing else changes.

R325: RETT completes in both forms (rett, rettExt): exec answers a next state. In a thread of the handler, once every
long-latency instruction of it has completed, it goes on at the PC it takes from the call stack with HND clear and the
lookahead windows that the handler's entry put aside; that the entry is taken whatever its bits 1:0 is the model's
choice (log entry 128). -/
def Obligations.TrapsAndHandlerReturns : Prop :=
  (∀ (s : State) (g : Gang) (i : Instr) (op : Op) (x : Ext) (len : Nat) (u : Tid),
      i.simt = some (op, x, len) → Sole s g op x len u → op ∈ ([.trap, .bkpt] : List Op) →
      s.coreOf u.sid = g.core →
      let cause := if op = .trap then 0xE0 + x.imm.toNat else 0xC0
      let lanes := 1#64 <<< s.position u
      let pc := g.pc &&& 0xFFFFFFFFFFFFF#64
      ∃ t, exec i s = .next t ∧
        t.thread u = { ((s.thread u).stepped s.clock).at_ (g.nextPc len) with
          status := .trapped, trapCause := .ofNat 32 cause, trapPc := pc, trapAddr := 0, trapLanes := lanes,
          waitLeft := none, resume := g.nextPc len } ∧
        (t.site (siteOf g.core)).waiting = (s.site (siteOf g.core)).waiting ++
          [{ lid := (s.team u.team).lid, cause, flags := 8 * bit01 (s.thread u).hnd, core := g.core, lanes,
             tslot := (s.team u.team).slot, issued := 0, pc, addr := 0, threads := [u] }] ∧
        ({ at_ := s.tick, ev := .trapReport (siteOf g.core) } : Due) ∈ t.agenda ∧
        (∀ w, w ≠ u → t.thread w = s.thread w) ∧ t.mem = s.mem ∧ t.teams = s.teams ∧
        t.launches = s.launches ∧ t.commands = s.commands ∧ NoStore s t) ∧
  (∀ (s : State) (g : Gang) (i : Instr) (x : Ext) (len : Nat),
      i.simt = some (.rett, x, len) → Issuing s g .rett x len →
      (∀ m ∈ g.members, laneActive x (s.thread m.2) = true →
        let l := s.stackLoc m.2 ((s.thread m.2).depth - 1)
        (s.thread m.2).hnd = true ∧ (s.thread m.2).windows.all (·.complete) = true ∧
          0 < (s.thread m.2).depth ∧ s.lineAbsent m.2.team l 8 = none ∧ s.badLoc m.2.team l 8 = false ∧
          s.lastAt m.2 l 8 ∧ s.readLoc m.2.team l 8 < 2 ^ 52) →
      ∃ t, exec i s = .next t ∧
        Jumps s t g x (fun _ th =>
          { th with depth := th.depth - 1, hnd := false, windows := th.saved, saved := [] })
          (fun u => .ofNat 64 (s.readLoc u.team (s.stackLoc u ((s.thread u).depth - 1)) 8)) (g.nextPc len))

/-- R172, R291: CSRRD gives each active lane the register its number names, and changes nothing else.

R172, R291, R101, R102: CSRWR writes the thread's flags or generator, clears the flags of a stack, an
L2 slice or the core where its operand has ones, writes CTXBASE, and registers a ring whose word is good,
with its header zero, or withdraws one; that a withdrawal is made without its RSV bits is the model's choice (log
entry 125). -/
def Obligations.ControlRegisters : Prop :=
  (∀ (s : State) (g : Gang) (i : Instr) (x : Ext) (len : Nat),
      i.simt = some (.csrrd, x, len) → Issuing s g .csrrd x len →
      ∃ t, exec i s = .next t ∧ Lanes s t g x (fun u th =>
        let n := x.imm.toNat
        let site := s.site (siteOf g.core)
        let one := fun v => th.setXs x.d.toNat 1 v
        let two := fun (v : DWord) => th.setXs x.d.toNat 2 v.toNat
        match n with
        | 0x01 => one th.fflags.toNat
        | 0x02 => one th.rng.toNat
        | 0x08 => one (s.launchOf u).shot
        | 0x10 => one th.trapCause.toNat
        | 0x11 => two th.trapPc
        | 0x12 => two th.trapAddr
        | 0x13 => two th.trapLanes
        | 0x30 => one (s.core g.core).spaFlags.toNat
        | 0x40 => two (AMap.getD site.ctxbase (g.core, (s.team u.team).slot) 0)
        | _ =>
          if n ≤ 0x1F then two (AMap.getD (s.team u.team).ringCfg (n - 0x18) 0)
          else if n ≤ 0x23 then one (site.atomxf.getD (n - 0x20) 0).toNat
          else one (site.l2aflags.getD (n - 0x28) 0).toNat) (g.nextPc len)) ∧
  (∀ (s : State) (g : Gang) (i : Instr) (x : Ext) (len : Nat) (u : Tid),
      i.simt = some (.csrwr, x, len) → Sole s g .csrwr x len u →
      let n := x.imm.toNat
      let s1 := s.issuing u
      let a := (s.thread u).xs x.a.toNat (csrRegs n)
      let site := siteOf g.core
      let word : DWord := .ofNat 64 a
      let at_ := if word.getLsbD 23 then 1 else 0
      (n = 0x01 → GoesOn s g i len u (s1.modThread u fun th => { th with fflags := .ofNat 6 a })) ∧
      (n = 0x02 → GoesOn s g i len u (s1.modThread u fun th => { th with rng := .ofNat 32 a })) ∧
      (0x20 ≤ n → n ≤ 0x23 → GoesOn s g i len u (s1.modSite site fun st =>
        { st with atomxf := st.atomxf.set (n - 0x20) (st.atomxf.getD (n - 0x20) 0 &&& ~~~BitVec.ofNat 6 a) })) ∧
      (0x28 ≤ n → n ≤ 0x2D → GoesOn s g i len u (s1.modSite site fun st =>
        { st with
          l2aflags := st.l2aflags.set (n - 0x28) (st.l2aflags.getD (n - 0x28) 0 &&& ~~~BitVec.ofNat 6 a) })) ∧
      (n = 0x30 → GoesOn s g i len u (s1.modCore g.core fun co =>
        { co with spaFlags := co.spaFlags &&& ~~~BitVec.ofNat 6 a })) ∧
      (n = 0x40 → GoesOn s g i len u (s1.modSite site fun st =>
        { st with ctxbase := st.ctxbase.set (g.core, (s.team u.team).slot) word })) ∧
      (0x18 ≤ n → n ≤ 0x1F → word.getLsbD 63 = true → badRingCfg (s.team u.team) (n - 0x18) a = false →
        GoesOn s g i len u ((s1.modTeam u.team fun tm =>
          { tm with ringCfg := tm.ringCfg.set (n - 0x18) word, ringTail := tm.ringTail.set (n - 0x18) 0 }).writeLoc
            u.team (.scr at_ (bitsOf a 22 6 * 64)) 12 0)) ∧
      (0x18 ≤ n → n ≤ 0x1F → word.getLsbD 63 = false → s.ringWaiters u.team (n - 0x18) = [] →
        GoesOn s g i len u (s1.modTeam u.team fun tm =>
          { tm with ringCfg := tm.ringCfg.set (n - 0x18) (word &&& 0x800000F000FFFFC0) })))

/-- R345: TLBINV leaves no translation of its page or address space in any core's or Scribe core's TLB of
the reticles in its scope, stores nothing, and its thread waits for the accesses through a dropped one.

R371, R365: HALT goes on behind the instruction; where its core can be halted and is in the debug
scope, the core then halts with the reason of a HALT, and otherwise nothing else happens.

R329, R330: CTXSAVE and CTXLOAD with a slot below 64 and a good completion operand leave an operation
to be carried out and go on; a CTXSAVE of a team in the slot takes its squads out of the pick order. What the operation
holds of its issuer, and how a TLBINV waits, are the model's (log entries 31, 33 and 56). -/
def Obligations.SystemInstructions : Prop :=
  (∀ (s : State) (g : Gang) (x : Ext) (u : Tid), Sole s g .tlbinv x x.len u →
      x.sel.toNat = 2 ∨ x.sel.toNat = 3 →
      let v := (effAddr s (g.issue .tlbinv x x.len) u).toNat
      let gone := fun (e : TlbEntry) => e.dropped (x.sub == 1) (v / 2 ^ 52) (v % 2 ^ 52)
      let inScope := fun n => x.sel.toNat = 3 ∨ n = siteOf g.core
      ∃ t id, exec (.tlbinv x) s = .next t ∧ NoStore s t ∧
        (∀ c, inScope (siteOf c) → ∀ e ∈ (t.core c).tlb, gone e = false) ∧
        (∀ c, ¬inScope (siteOf c) → (t.core c).tlb = (s.core c).tlb) ∧
        (∀ c, inScope (c / 64) → ∀ e ∈ (t.scribeCore c).tlb, gone e = false) ∧
        t.thread u = { (s.thread u).stepped s.clock with status := .invalidating id x.len } ∧
        (∀ w, w ≠ u → t.thread w = s.thread w) ∧
        ({ at_ := s.tick + coreTicks, ev := .tlbinvComplete id } : Due) ∈ t.agenda) ∧
  (∀ (s : State) (g : Gang) (i : Instr) (x : Ext) (len : Nat) (u : Tid),
      i.simt = some (.halt, x, len) → Sole s g .halt x len u → (s.core g.core).bltStall = false →
      ((s.haltCapable && s.inScope g.core) = false → GoesOn s g i len u (s.issuing u)) ∧
      (s.haltCapable = true → s.inScope g.core = true → (s.powerOf g.core).on = true → ∃ v,
        Settled ((s.issuing u).goto u (g.nextPc len)) v ∧ exec i s = .next (v.haltCore g.core 1) ∧
        ((v.haltCore g.core 1).core g.core).halted = true)) ∧
  (∀ (s : State) (g : Gang) (i : Instr) (op : Op) (x : Ext) (len : Nat) (u : Tid) (s1 : State),
      i.simt = some (op, x, len) → Sole s g op x len u → op ∈ ([.ctxsave, .ctxload] : List Op) →
      let slot := ((s.thread u).x x.c.toNat).toNat
      let done := (s.thread u).xp x.e.toNat
      let base := AMap.getD (s.site (siteOf g.core)).ctxbase (g.core, slot) 0
      let blank : CtxOp :=
        { load := decide (op = .ctxload), core := g.core, issuer := u.team, lid := (s.team u.team).lid,
          agent := s.party u, space := (s.launchOf u).space, slot,
          base, team := none, squads := [], lwait := false, records := [], done, cause := 0 }
      slot < 64 → (s.issuing u).checkCompletion g.core (some u.team) (s.launchOf u).space done = .ok s1 →
      let later := fun (v : State) (o : CtxOp) =>
        ({ v with serial := s1.serial + 1, contexts := v.contexts.set s1.serial o } : State).due
          (.ctxsaveCtxloadCompletion s1.serial) coreTicks
      (op = .ctxload → GoesOn s g i len u (later s1 blank)) ∧
      (∀ n, op = .ctxsave → base.toNat % 256 = 0 → AMap.find? slot (s.core g.core).slots = some n →
        (s.team n).frozen = false → ∃ t, exec i s = .next t ∧
          AMap.find? s1.serial t.contexts = some { blank with
            team := some n, squads := s.pickOrderOf n, lwait := (s.team n).leaseWait } ∧
          (∀ c ∈ (s.team n).cores, ∀ q ∈ (t.core c).order, q.team ≠ n) ∧
          (n ≠ u.team → t.thread u = ((s.thread u).stepped s.clock).at_ (g.nextPc len)) ∧ t.mem = s1.mem))

/-- R257, R258, R88: OBRES takes the lowest free record and the lowest run of free units, writes the record
of its size, format, block and scale offset with V and the team's slot, and gives the record's number
and a set predicate; without either it gives all ones and a clear predicate. OBREL frees a record of the
team. The state here has no engine entry outstanding.

R259, R253, R120: OBLD puts the bytes that it sees on path m at its address in the engine's order, to be written at its offset in
the reservation, and completes. -/
def Obligations.OperandBuffers : Prop :=
  (∀ (s : State) (g : Gang) (i : Instr) (op : Op) (x : Ext) (len : Nat) (u : Tid),
      i.simt = some (op, x, len) → Sole s g op x len u → (s.core g.core).engine = [] →
      let w := ((s.thread u).x x.c.toNat).toNat
      let size := bitsOf w 6 0
      let slot := (s.team u.team).slot
      let answer := fun (v : State) (n : Word) p =>
        v.modThread u fun th => (th.setX x.d.toNat n).setP x.e.toNat p
      (op = .obres → bitsOf w 31 26 = 0 → 1 ≤ size → size ≤ 64 →
        recValid (bitsOf w 11 7) (bitsOf w 13 12) (bitsOf w 25 14) size = true →
        (∀ r b, (s.core g.core).freeRecord = some r →
          findUnits (s.core g.core).usedUnits size 64 0 = some b →
          GoesOn s g i len u (answer ((s.issuing u).modCore g.core fun co =>
            { co.clearUnits b size with records := co.records.set r (.ofNat 64 (2 ^ 63 + slot * 2 ^ 57 +
                b * 2 ^ 51 + size * 2 ^ 44 + bitsOf w 11 7 * 2 ^ 39 + bitsOf w 13 12 * 2 ^ 37 +
                bitsOf w 25 14 * 2 ^ 25)) }) (.ofNat 32 r) true)) ∧
        ((s.core g.core).freeRecord = none ∨ findUnits (s.core g.core).usedUnits size 64 0 = none →
          GoesOn s g i len u (answer (s.issuing u) 0xFFFFFFFF false))) ∧
      (∀ r, op = .obrel → ((s.thread u).x x.a.toNat).toNat < 16 →
        s.record g.core u.team ((s.thread u).x x.a.toNat).toNat = some r →
        GoesOn s g i len u ((s.issuing u).modCore g.core fun co =>
          { co with records := co.records.erase ((s.thread u).x x.a.toNat).toNat }))) ∧
  (∀ (s : State) (g : Gang) (x : Ext) (u : Tid) (r : DWord) (l : Loc) (s1 : State),
      Sole s g .obld x x.len u →
      let w := ((s.thread u).x x.c.toNat).toNat
      let off := bitsOf w 25 8
      let n := x.type.size
      let k := g.issue .obld x x.len
      bitsOf w 7 4 = 0 → bitsOf w 31 26 = 0 → s.record g.core u.team (w % 16) = some r →
      off + n ≤ recBytes r → off % n = 0 → Reaches s k u n .read (.ok l s1) →
      s1.badLoc u.team l n = false →
      let v := ((s1.loadAt k u l).seen .m (s1.party u) u.team l n).1
      (s1.plain .m (s1.party u) u.team l n = true → v = s1.readLoc u.team l n) ∧
      ∃ t id at_, exec (.obld x) s = .next t ∧ NoStore s1 t ∧ Passes s t g x.len ∧
        (t.core g.core).engine = (s.core g.core).engine ++
          [{ work := .load (recBase r * 4096 + off) n v, team := u.team,
             half := s.half u.sid, tids := [], window := 0 }] ∧
        (t.thread u).windows = ((s.thread u).stepped s.clock).windows ++
          [{ id, pc := g.pc, left := x.la.toNat, issued := 0, pend := pendingSet .obld x, known := true,
             complete := false, regs := [], preds := if x.rf = 0 then [] else [(x.rf.toNat, false)], flags := 0,
             fault := none }] ∧
        ({ at_, ev := .longLatencyComplete u id } : Due) ∈ t.agenda)

/-- R265, R91: MRD and MWR complete (mrd, mwr): exec answers a next state. A word of the accumulators within the team's
share, aligned, enters the order of the engine that holds the share: MRD with a window that its entry completes, MWR
with the value of X(A). Where a lane of the squad reaches beyond the share, every lane that issues traps
ACCUMULATOR_RANGE and nothing enters an engine's order. -/
def Obligations.AccumulatorWords : Prop :=
  (∀ (s : State) (g : Gang) (i : Instr) (op : Op) (x : Ext) (len : Nat) (q : Sid),
    i.simt = some (op, x, len) → OneSquad s g op x len q → op ∈ ([.mrd, .mwr] : List Op) →
    (∃ u ∈ activeOf s g x, (s.team u.team).accBytes <
      bitsOf ((s.thread u).x x.c.toNat).toNat 20 0 + x.type.size) →
    ∃ t, exec i s = .next t ∧ NoStore s t ∧ (∀ c, (t.core c).engine = (s.core c).engine) ∧
      ∀ u ∈ activeOf s g x, (t.thread u).status = .trapped ∧ (t.thread u).trapCause = 0x26#32 ∧
        (t.thread u).regs = (s.thread u).regs) ∧
  ∀ (s : State) (g : Gang) (i : Instr) (op : Op) (x : Ext) (len : Nat) (u : Tid),
    i.simt = some (op, x, len) → Sole s g op x len u → op ∈ ([.mrd, .mwr] : List Op) →
    let w := ((s.thread u).x x.c.toNat).toNat
    let off := bitsOf w 20 0
    let n := x.type.size
    let p := if bitOf w 23 then 1 else 0
    let h := (s.half u.sid + p) % 2
    bitsOf w 31 24 = 0 → bitsOf w 22 21 = 0 → (bitOf w 23 = true → (s.team u.team).paired = true) →
    off + n ≤ (s.team u.team).accBytes → off % n = 0 →
    ∃ t id, exec i s = .next t ∧ NoStore s t ∧ Passes s t g len ∧
      (t.core ((s.team u.team).core + h)).engine = (s.core ((s.team u.team).core + h)).engine ++
        [match op with
          | .mrd => { work := .read off n x.d.toNat, team := u.team, half := h, tids := [u], window := id }
          | _ => { work := .write off n ((s.thread u).xs x.a.toNat x.type.regs), team := u.team, half := h,
                   tids := [], window := 0 }] ∧
      (op = .mrd → Opens s t g op x id) ∧
      (∃ at_, ({ at_, ev := .matrixOpComplete ((s.team u.team).core + h) } : Due) ∈ t.agenda)

/-- R260, R263, R261, R71: MMA and MMAP whose checks pass and whose team holds the lease enter the order
of the engine of each core that takes part, with one window in each active lane, and count one against
the lease. -/
def Obligations.MatrixMultiplies : Prop :=
  ∀ (s : State) (g : Gang) (i : Instr) (op : Op) (x : Ext) (len : Nat) (q : Sid),
    i.simt = some (op, x, len) → OneSquad s g op x len q → op ∈ ([.mma, .mmap] : List Op) →
    let k := g.issue op x len
    let a := mmaArgs k q s
    mmaCheck k q s = none → s.leaseHeld q.team = true →
    ∃ t id, exec i s = .next t ∧ NoStore s t ∧ Passes s t g len ∧ Opens s t g op x id ∧
      (∀ h ∈ (if op = .mmap then [0, 1] else [s.half q]),
        let c := (s.team q.team).core + h
        (t.core c).engine = (s.core c).engine ++
          [{ work := .mma x.type (x.sub == 1) (scratchHalf a.a) (scratchOff a.a)
              (if x.e = 0 then 0 else scratchOff a.scale) (opApitch a.opw) (opBpitch a.opw) (opEoff a.opw)
              ((s.record c q.team (opRec a.opw)).getD 0) a.tile (shapeChunks a.shape) none
             team := q.team, half := h, tids := activeOf s g x, window := id }] ∧
        (∃ at_, ({ at_, ev := .matrixOpComplete c } : Due) ∈ t.agenda)) ∧
      (t.core (s.team q.team).core).lease.left = (s.core (s.team q.team).core).lease.left - 1

/-- R264, R266, R267, R253: MZERO, MDRAIN and QUANT whose checks pass enter the engine's order: MZERO with
a window that completes, MDRAIN as an accepted command whose transfers wait for its tile, QUANT into the
operand buffer with a window that its entry completes. QUANT into a scratchpad behind an
engine's order that was empty stores the scale byte and the codes of each block, leaves every other byte and the
accumulators as they are, and nothing in the order; that it is made at its place in program order is the model's (log
entry 100). -/
def Obligations.TileInstructions : Prop :=
  ∀ (s : State) (g : Gang) (i : Instr) (op : Op) (x : Ext) (len : Nat) (q : Sid),
    i.simt = some (op, x, len) → OneSquad s g op x len q →
    let k := g.issue op x len
    let as := activeOf s g x
    let w := ((s.thread (lane0 q)).xp x.c.toNat).toNat
    let pair := x.sub == 1
    let tile := shapeTile w (if op = .mzero ∧ pair = true then 2 else 1)
    let entry := fun (t : State) c e => (t.core c).engine = (s.core c).engine ++ [e]
    (op = .mzero → (pair = true → (s.team q.team).paired = true) → shapeOk w pair = true →
      shapeChunks w = 0 → tile.fits (s.team q.team).accBytes = true →
      ∃ t, exec i s = .next t ∧ NoStore s t ∧ Passes s t g len ∧
        (∀ h ∈ (if pair then [0, 1] else [s.half q]), entry t ((s.team q.team).core + h)
          { work := .zero tile, team := q.team, half := h, tids := [], window := 0 }) ∧
        (∀ u ∈ as, ∃ id at_, ({ at_, ev := .longLatencyComplete u id } : Due) ∈ t.agenda)) ∧
    (∀ s1 s2 s3 r image pages, op = .mdrain → shapeOk w false = true → shapeChunks w = 0 →
      tile.fits (s.team q.team).accBytes = true →
      (s.issuingAll g).checkCompletion g.core (some q.team) (s.teamLaunch q.team).space
        ((s.thread (lane0 q)).xp x.e.toNat) = .ok s1 →
      s1.readTsr g.core (lane0 q) (tsrAddr k s (lane0 q)) = .ok r image s2 →
      r.ty = some x.type → r.boxes.getD 0 1 = tile.cols → r.boxes.getD 1 1 = tile.rows →
      (r.boxes.drop 2).all (· == 1) = true →
      badScratchDst (s.team q.team) (drainPieces r tile) = none →
      s2.translatePages g.core (s.teamLaunch q.team).space .write x.type.size
        ((drainPieces r tile).flatMap fun p => pageStarts p.dst p.n) [] = .ok (pages, s3) →
      let c := { commandOf k q as s ((s.thread (lane0 q)).xp x.e.toNat) with
        pieces := drainPieces r tile, pages, ready := false }
      s.admits c →
      ∃ t, exec i s = .next t ∧ Accepted s s3 t g op x len c fun id v => v.parts = [] ∧ v.cause = 0 ∧
        entry t g.core { work := .drain id tile, team := q.team, half := s.half q, tids := [], window := 0 }) ∧
    (∀ kind r eoff pitch, op = .quant →
      quantWork k q s = .ok (.quantBuffer kind tile r eoff pitch) →
      ∃ t id, exec i s = .next t ∧ NoStore s t ∧ Passes s t g len ∧ Opens s t g op x id ∧
        entry t g.core { work := .quantBuffer kind tile r eoff pitch, team := q.team, half := s.half q,
                         tids := as, window := id }) ∧
    (∀ kind half codes scales pitch, op = .quant → (s.core g.core).engine = [] → s.memoriesWf →
      quantWork k q s = .ok (.quantScratch kind tile half codes scales pitch) →
      ∃ t, exec i s = .next t ∧ Passes s t g len ∧ (t.core g.core).engine = [] ∧ t.mem = s.mem ∧
        (∀ h a, ((t.team q.team).acc h).get a = ((s.team q.team).acc h).get a) ∧
        (∀ a, a ∉ quantPlaces tile codes scales 0 pitch →
          ((t.team q.team).scratch half).get a = ((s.team q.team).scratch half).get a) ∧
        ((s.team q.team).badAcc = [] → (quantPlaces tile codes scales 0 pitch).Nodup →
          (∀ p ∈ tile.blocks, ∀ u, as.head? = some u → let e := p.1 * pitch + 8 * p.2
            s.lastAt u (.scr half (codes + e / 2)) 4 ∧ s.lastAt u (.scr half (scales + e / 8)) 1) →
          ∀ p ∈ tile.blocks, let e := p.1 * pitch + 8 * p.2
            QuantBlock ((s.team q.team).acc (s.half q)) kind tile p.1 p.2
              (((t.team q.team).scratch half).readNat (scales + e / 8) 1)
              (((t.team q.team).scratch half).readNat (codes + e / 2) 4)))

/-- R268, R71: MLEASE in a launch with a lease does nothing where the team holds it, and otherwise makes
the team wait for it. MFREE ends the lease of a team that holds it, and the wait of one that does not. -/
def Obligations.Leases : Prop :=
  ∀ (s : State) (g : Gang) (i : Instr) (op : Op) (x : Ext) (len : Nat) (u : Tid),
    i.simt = some (op, x, len) → Sole s g op x len u →
    (op = .mfree → (s.launchOf u).lease = 0 → GoesOn s g i len u (s.issuing u)) ∧
    (op = .mlease → 0 < (s.launchOf u).lease → s.leaseHeld u.team = true → GoesOn s g i len u (s.issuing u)) ∧
    (op = .mlease → 0 < (s.launchOf u).lease → s.leaseHeld u.team = false → ∃ t, exec i s = .next t ∧ NoStore s t ∧
      Passes s t g len ∧ (t.team u.team).leaseWait = true ∧
      ∀ c ∈ (s.team u.team).cores, ({ at_ := s.tick, ev := .leaseGrant c } : Due) ∈ t.agenda) ∧
    (op = .mfree → 0 < (s.launchOf u).lease → s.leaseHeld u.team = true →
      (∀ c ∈ (s.team u.team).cores, siteOf c = siteOf g.core) →
      ∃ t, exec i s = .next t ∧ NoStore s t ∧ Passes s t g len ∧
      ∀ c ∈ (s.team u.team).cores, (t.core c).lease.holder ≠ some u.team) ∧
    (op = .mfree → 0 < (s.launchOf u).lease → s.leaseHeld u.team = false →
      (∀ p ∈ s.threads, p.1.team = u.team → p.2.status ≠ .parked .lease) →
      ∃ t, exec i s = .next t ∧ NoStore s t ∧ Passes s t g len ∧ (t.team u.team).leaseWait = false ∧
        ((s.team u.team).leaseWait = true →
          ∀ c ∈ (s.team u.team).cores, ({ at_ := s.tick, ev := .leaseGrant c } : Due) ∈ t.agenda))

/-- R271, R273, R277, R287: CPY, TCOPY and UNSEAL whose checks pass for every active lane are accepted as
one command: CPY with one transfer for each lane, from XP(C) to its address; TCOPY with one for each
position of its record's box; UNSEAL with two for each leaf. The steps that carry it out are to come. -/
def Obligations.CopyCommands : Prop :=
  ∀ (s : State) (g : Gang) (i : Instr) (op : Op) (x : Ext) (len : Nat) (q : Sid) (u : Tid) (s1 s2 s3 : State),
    i.simt = some (op, x, len) → OneSquad s g op x len q → (activeOf s g x).head? = some u →
    let k := g.issue op x len
    let as := activeOf s g x
    let done := (s.thread u).xp x.e.toNat
    let sp := (s.teamLaunch q.team).space
    (s.issuingAll g).checkCompletion g.core (some q.team) sp done = .ok s1 →
    let accepted := fun (c : Command) => s.admits c → ∃ t, exec i s = .next t ∧
      Accepted s s3 t g op x len c fun id v => v.parts = [] ∧ v.cause = 0 ∧
        (∃ at_, ({ at_, ev := .commandComplete id } : Due) ∈ t.agenda) ∧
        ∀ l ∈ linesOf c.pieces, ∃ at_, ({ at_, ev := .copyLineDelivered id l.1 l.2 } : Due) ∈ t.agenda
    (∀ pages work, op = .cpy → as.foldl (cpyLane k q) ⟨s1, [], [], [], []⟩ = ⟨s3, pages, as, work, []⟩ →
      accepted { commandOf k q as s done with
        pages, pieces := as.map fun v =>
          { dst := (effAddr s k v).toNat, src := .addr ((s.thread v).xp x.c.toNat).toNat, n := x.type.size } }) ∧
    (∀ r image m pages, op = .tcopy → s1.readTsr g.core u (tsrAddr k s u) = .ok r image s2 →
      let lin := (s.thread u).xp x.c.toNat
      let ps := tcopyPieces r lin.toNat (x.sub == 1)
      let tensor := tensorSide (x.sub == 1) ps
      let pt := tensor.flatMap fun a => pageStarts a r.size
      let pl := pageStarts lin.toNat (r.positions * r.size)
      cmdAddr (s.team q.team) lin (r.positions * r.size) (if r.swz = 0 then r.size else max r.size r.span) =
        none → badElement (s.team q.team) r.size tensor = none →
      ∀ s4, s2.translatePages g.core sp .read r.size (if x.sub = 1 then pl else pt) [] = .ok (m, s4) →
      s4.translatePages g.core sp .write r.size (if x.sub = 1 then pt else pl) m = .ok (pages, s3) →
      accepted { commandOf k q as s done with pieces := ps, pages, addr := lin.toNat, tsr := image }) ∧
    (∀ pages, op = .unseal →
      let w := opWord s x u
      let dst := (s.thread u).xp x.a.toNat
      let n := 256 * bitsOf w.toNat 56 32
      unsealOk w.toNat = true → cmdAddr (s.team q.team) dst n 256 = none →
      s1.translatePages g.core sp .write 256 (pageStarts dst.toNat n) [] = .ok (pages, s3) →
      accepted { commandOf k q as s done with
        pieces := unsealPieces dst.toNat (bitsOf w.toNat 62 60) (bitsOf w.toNat 23 0) (bitsOf w.toNat 56 32)
        pages, addr := dst.toNat, word := w, root := (s.thread u).xs x.c.toNat 4 })

/-- R278-R281, R284, R271: PUT, GET, MSG and NMCMD whose checks pass are accepted as one command: PUT and
GET with a packet for each part of at most 4,096 bytes, MSG with one packet, NMCMD with one for each
command unit that homes a part of a row that acts. How the bytes are cut into packets, and where a MSG goes, are the
model's (log entries 35 and 36). -/
def Obligations.PacketCommands : Prop :=
  ∀ (s : State) (g : Gang) (i : Instr) (op : Op) (x : Ext) (len : Nat) (q : Sid) (u : Tid) (s1 s2 s3 : State),
    i.simt = some (op, x, len) → OneSquad s g op x len q → (activeOf s g x).head? = some u →
    let k := g.issue op x len
    let as := activeOf s g x
    let done := (s.thread u).xp x.e.toNat
    let sp := (s.teamLaunch q.team).space
    (s.issuingAll g).checkCompletion g.core (some q.team) sp done = .ok s1 →
    let w := (opWord s x u).toNat
    let n := ((s.thread u).x x.c.toNat).toNat
    let a := (s.thread u).xp x.a.toNat
    let off := w % 2 ^ 40
    (∀ e pages, op ∈ ([.put, .get] : List Op) →
      readWindow g.core q.team (s.teamLaunch q.team) (bitsOf w 63 48) s1 = .ok e s2 →
      winCheck k (s.team q.team) e w off n a = none →
      s2.translatePages g.core sp .write n (if op = .get then pageStarts a.toNat n else []) [] = .ok (pages, s3) →
      ∀ plane, let c := { commandOf k q as s done with
        pages, win := some e, addr := a.toNat, len := n, word := .ofNat 64 off, plane }
      plane = (s3.choosePlane (siteOf g.core) e.modId.toNat e.site).1 → s.admits c →
      ∃ t, exec i s = .next t ∧ Accepted s s3 t g op x len c fun _ v =>
        v.parts.length = (cutParts (e.base.toNat + off) 64 0 n).length) ∧
    (∀ e, op = .msg →
      readWindow g.core q.team (s.teamLaunch q.team) (bitsOf w 63 48) s1 = .ok e s3 →
      winCheck k (s.team q.team) e w off n a = none →
      ∀ plane, let c := { commandOf k q as s done with win := some e, addr := a.toNat, len := n, plane }
      plane = (s3.choosePlane (siteOf g.core) e.modId.toNat
        (s3.msgSite (siteOf g.core) e (w % 2 ^ 24))).1 → s.admits c →
      ∃ t, exec i s = .next t ∧ Accepted s s3 t g op x len c fun _ v => v.parts.length = 1 ∧ v.cause = 0) ∧
    (∀ pages work, op = .nmcmd → 1 ≤ x.imm.toNat → x.imm.toNat ≤ 64 →
      as.foldl (nmLane k q) ⟨s1, [], [], [], []⟩ = ⟨s3, pages, as, work, []⟩ →
      let rows := as.map fun v => (((s.thread v).xp x.a.toNat).toNat, ((s.thread v).xp x.c.toNat).toNat)
      let c := { commandOf k q as s done with pages, rows, len := 64 * x.imm.toNat }
      s.admits c →
      ∃ t, exec i s = .next t ∧ Accepted s s3 t g op x len c fun _ v =>
        v.parts.length = c.units.length ∧ v.cause = if rows.any c.rowFails then 0x20 else 0)

/-- R289, R420: XLOOK completes (xlook): exec answers a next state, unless a flip or a flush holds the entry. It opens a
window that will write the four words of the replica that the hash chooses, or four zeros where no table serves the
lookup; the expert's load counter on the issuing reticle takes one more, saturating, where one does. No other counter,
no other thread and no byte of memory changes.

R288, R411: TREV completes (trev): exec answers a next state. Where the tenant's stream is lossy, has room and owes its
reader nothing, a software event that its filter admits stands at TAIL: its time, and its code with the low 24 bits
of X(A); under a filter that admits neither it nor the picker's events no byte changes; and where no stream of the
reticle is open for the tenant each active lane traps TRACE_DENIED. -/
def Obligations.LookupsAndEvents : Prop :=
  ∀ (s : State) (g : Gang) (x : Ext) (u : Tid),
    (Sole s g .xlook x x.len u →
      let n := siteOf g.core
      let e := ((s.thread u).x x.a.toNat).toNat
      let h := ((s.thread u).x x.c.toNat).toNat
      let lid := (s.team u.team).lid
      let table := fun l => (s.site n).lupSite l
      let live := fun l => (List.range 8).filter (bitOf (s.lupLive n l (table l).sel e))
      let serves := fun l => s.lupOf lid = some l ∧ e < 4096 ∧ (table l).version ≠ 0 ∧ live l ≠ []
      s.lookHeld n lid e = false →
      ∃ t id at_ v, exec (.xlook x) s = .next t ∧ NoStore s t ∧ Passes s t g x.len ∧
        (t.thread u).windows = ((s.thread u).stepped s.clock).windows ++
          [{ id, pc := g.pc, left := x.la.toNat, issued := 0, pend := pendingSet .xlook x, known := true,
             complete := false, regs := regWrites x.d.toNat 4 v, preds := [], flags := 0, fault := none }] ∧
        ({ at_, ev := .longLatencyComplete u id } : Due) ∈ t.agenda ∧
        (∀ w, w ≠ u → t.thread w = s.thread w) ∧ t.lups = s.lups ∧
        (∀ l, serves l → ∃ r ∈ live l, (live l).length * (h / (live l).length) + (live l).idxOf r = h ∧
          (let w := s.lupWord n l (table l).sel e (8 + r)
           v = (table l).version + 2 ^ 32 * (w % 64 + 2 ^ 8 * r) + 2 ^ 64 * bitsOf w 47 24 + 2 ^ 96 * bitsOf w 63 48) ∧
          AMap.getD ((t.site n).lupSite l).cnt e 0 = min (AMap.getD (table l).cnt e 0 + 1) 0xFFFFFFFF) ∧
        ((∀ l, ¬serves l) → v = 0) ∧
        ∀ m l f, ¬(m = n ∧ f = e ∧ serves l) →
          AMap.getD ((t.site m).lupSite l).cnt f 0 = AMap.getD ((s.site m).lupSite l).cnt f 0) ∧
    (Sole s g .trev x x.len u → ∃ t, exec (.trev x) s = .next t ∧ NoStore s t ∧ (t.thread u).status = .trapped ∧
      (t.thread u).trapCause = 0xC4#32 ∧ (t.thread u).regs = (s.thread u).regs) ∧
    (∀ n, s.gang = some g → (∃ p, g.members = [(p, u)]) →
      issueCheck .trev x (s.gangLaunch g) = none → (s.thread u).pendingTrap u = none →
      Issue.violates ⟨.trev, x, x.len, g.core, g.pc⟩ (s.thread u) = false →
      laneActive x (s.thread u) = true → (s.thread u).status = .ready →
      (s.site (siteOf g.core)).streamOf (s.gangLaunch g).tenant = some n →
      ((s.site (siteOf g.core)).stream n).lossless = false →
      ((s.site (siteOf g.core)).stream n).stalls = [] →
      let st := (s.site (siteOf g.core)).stream n
      let a := siteOf g.core * 2 ^ 42 + bitsOf st.base.toNat 41 12 * 4096 + 16 * (st.tail.toNat % st.size)
      ∃ t, exec (.trev x) s = .next t ∧
        t.thread u = ((s.thread u).stepped s.clock).at_ (g.nextPc x.len) ∧
        (∀ w, w ≠ u → t.thread w = s.thread w) ∧
        (s.memoriesWf → st.cfg.getLsbD 39 = true → st.fallback = false →
          st.owed = [] → st.lost = 0 → st.head.toNat ≤ st.tail.toNat → st.tail.toNat + 1 < 2 ^ 64 →
          st.room 1 = true →
          t.mem.readNat a 8 = s.waferNs % 2 ^ 64 ∧
          t.mem.readNat (a + 8) 8 = ((s.thread u).x x.a.toNat).toNat % 2 ^ 24 * 2 ^ 40 +
            (s.launchOf u).tenant % 256 * 2 ^ 32 + g.core % 2 ^ 13 * 2 ^ 16 + (0xE000 + x.imm.toNat) % 2 ^ 16) ∧
        (st.cfg.getLsbD 39 = false → st.cfg.getLsbD 40 = false → t.mem = s.mem))

/-- R159, R165, R162, R164: SEALPUT, SEALGET, SEALSWAP and SEALREF complete (sealput, sealget, sealswap, sealref): exec
answers a next state. SEALPUT makes or shares a line of the 256 bytes at its address and will write
its seal; SEALGET stores the content its seal names, zeros for the empty seal; SEALREF counts a reference
more or less and will write the count; SEALSWAP stores its new seal where the cell holds the expected one,
drops the reference it held, and will write the old value. That a bad cell traps, and that SEALSWAP parks on an absent
line, is the model's choice (log entries 43 and 126). -/
def Obligations.Seals : Prop :=
  ∀ (s : State) (g : Gang) (i : Instr) (op : Op) (x : Ext) (len : Nat) (u : Tid),
    i.simt = some (op, x, len) → Sole s g op x len u → s.memoriesWf →
    let k := g.issue op x len
    let a := effAddr s k u
    let cell := (s.thread u).xq x.c.toNat
    let check := fun n kind => (s.issuing u).checkAddr g.core u.team (s.launchOf u).space a n n kind
    let later := fun (v : State) (r : Nat) (n : Nat) => ∃ t, exec i s = .next t ∧
      Settled ((v.openWindow k u true (regWrites x.d.toNat n r)
        (if x.rf = 0 ∨ op = .sealref then [] else [(x.rf.toNat, false)]) 0 none).2.goto u (g.nextPc len)) t
    (∀ l s1 v s2, op = .sealput → isScratch a = true → check 256 .read = .ok l s1 →
      s1.lineAbsent u.team l 256 = none → s1.badLoc u.team l 256 = false →
      ((s.thread u).x x.c.toNat).toNat % 256 ≤ 1 →
      let r := s1.seen .t (s1.party u) u.team l 256
      r.2.sealPut (((s.thread u).x x.c.toNat).toNat % 256) r.1 = .ok v s2 →
      (s1.plain .t (s1.party u) u.team l 256 = true → r.1 = s1.readLoc u.team l 256) ∧ later s2 v 4) ∧
    (∀ l s1 c, op = .sealget → isScratch a = true → check 256 .write = .ok l s1 →
      s1.badLoc u.team l 256 = false →
      (cell = 0 ∧ c = 0 ∨ cell ≠ 0 ∧ (s.sealLine cell).map SealLine.content = some c) →
      later (s1.threadWrite u l 256 c) 0 0 ∧
      Stores s1 (s1.threadWrite u l 256 c) (s1.lastAt u l 256) u.team l 256 c) ∧
    (∀ line, op = .sealref → s.sealLine cell = some line → cell ≠ 0 →
      (x.sub ≠ 1 → line.count < sealMax → later ((s.issuing u).setSealCount cell (line.count + 1))
        (line.count + 1) 1) ∧
      (x.sub = 1 → 1 < line.count → later ((s.issuing u).setSealCount cell (line.count - 1))
        (line.count - 1) 1)) ∧
    (∀ l s1, op = .sealswap → check 16 .atomic = .ok l s1 → l.plain = true → s1.lineAbsent u.team l 16 = none →
      s1.badLoc u.team l 16 = false →
      let new := (s.thread u).xq x.e.toNat
      let old := s1.readLoc u.team l 16
      let put := (s1.atomicAt k u l).threadUpdate u l 16 new
      let swapped := fun (v : State) => later (v.sees (s1.party u) u.team l 16) old 4
      Stores s1 put True u.team l 16 new ∧ ((new ≠ 0 → s1.sealLive new = true) →
        (old ≠ cell → swapped (s1.atomicAt k u l)) ∧
        (old = cell → cell = 0 → swapped put) ∧
        (old = cell → s1.sealLive cell = true → cell ≠ 0 → swapped (put.sealDrop old))))

/-- R301, R297: the scalar instructions (sadd, ssub, smul, sand, sor, sxor, sshl, sshr, sldi, sldk, scmp) complete: they
write their value in sD, with b = s(B) + SignExtend(IMM8), and go
on; a write to s0 is discarded.

R302: SMOV completes (smov) and moves between scalar registers, mask registers, SFLAGS and ATOMXF by its selector. -/
def Obligations.ScribeScalarsAndMoves : Prop :=
  (∀ (s : State) (sc : Nat) (i : Instr) (w : SWord), Begun s sc i w →
      w.op ∈ [0x01, 0x02, 0x03, 0x04, 0x05, 0x06, 0x07, 0x08, 0x09, 0x0A, 0x0C] →
      let c := s.scribeCore sc
      let a := c.rs w.a
      let b := c.rs w.b + sext8 w.i
      let y := c.rs w.b
      let lid := (c.task.map Prod.snd).getD 0
      let v : DWord := match w.op with
        | 0x01 => a + b
        | 0x02 => a - b
        | 0x03 => a * b
        | 0x04 => a &&& b
        | 0x05 => a ||| b
        | 0x06 => a ^^^ b
        | 0x07 => a <<< (b.toNat % 64)
        | 0x08 => a >>> (b.toNat % 64)
        | 0x09 => (a <<< 8) ||| w.i.setWidth 64
        | 0x0A => (s.launch lid).k lid s.moduleId w.i.toNat
        | _ => if (match w.i.toNat with
            | 0 => decide (a = y)
            | 1 => decide (a ≠ y)
            | 2 => decide (a.toInt < y.toInt)
            | 3 => decide (a.toInt ≤ y.toInt)
            | 4 => decide (y.toInt < a.toInt)
            | 5 => decide (y.toInt ≤ a.toInt)
            | 6 => decide (a.toNat < y.toNat)
            | _ => decide (y.toNat ≤ a.toNat)) then 1 else 0
      ScribeSets s i sc (fun c => c.setS w.d v) c.nextPc ∧ (s.scribeCore sc).setS 0 v = s.scribeCore sc) ∧
  (∀ (s : State) (sc : Nat) (i : Instr) (w : SWord), Begun s sc i w → w.op = 0x0B →
      let c := s.scribeCore sc
      let a := c.rs w.a
      let x := AMap.getD (s.site (sc / 64)).atomxf (sc / 16 % 4) 0
      let sets := fun f => ScribeSets s i sc f c.nextPc
      (w.i = 0 → sets fun c => c.setS w.d a) ∧
      (w.i = 1 → sets fun c => c.setMask w.d.toNat (a.setWidth 16)) ∧
      (w.i = 2 → sets fun v => v.setS w.d ((c.mask w.a.toNat).setWidth 64)) ∧
      (w.i = 3 → sets fun v => v.setS w.d (c.flags.setWidth 64)) ∧
      (w.i = 4 → sets fun c => { c with flags := a.setWidth 6 }) ∧
      (w.i = 5 → sets fun c => c.setS w.d (x.setWidth 64)) ∧
      (w.i = 6 → exec i s = .next ((s.begun.modSite (sc / 64) fun st =>
        { st with atomxf := st.atomxf.set (sc / 16 % 4) (x &&& ~~~(a.setWidth 6)) }).modScribe sc fun c =>
          { c with pc := (s.scribeCore sc).nextPc })))

/-- R303: the jumps complete (jmp, jz, jnz, scribeLoop, scribeCall, scribeRet): JMP always, JZ and JNZ on s(A), and LOOP on its new count go to their target; CALL pushes the
next PC on a stack of 16 entries, and RET goes on at the entry it pops. -/
def Obligations.ScribeJumps : Prop :=
  ∀ (s : State) (sc : Nat) (i : Instr) (w : SWord), Begun s sc i w →
    let c := s.scribeCore sc
    let a := c.rs w.a
    let branch := fun f (taken : Prop) [Decidable taken] =>
      ScribeSets s i sc f (if taken then wordTarget w c.pc else c.nextPc)
    (w.op = 0x10 → branch id True) ∧ (w.op = 0x11 → branch id (a = 0)) ∧ (w.op = 0x12 → branch id (a ≠ 0)) ∧
    (w.op = 0x13 → branch (fun c => c.setS w.a (a - 1)) (a - 1 ≠ 0)) ∧
    (w.op = 0x14 → c.stack.length < 16 →
      ScribeSets s i sc (fun v => { v with stack := c.nextPc :: c.stack }) (wordTarget w c.pc)) ∧
    (∀ pc rest, w.op = 0x15 → c.stack = pc :: rest → ScribeSets s i sc (fun v => { v with stack := rest }) pc)

/-- R304, R298, R294, R21: SLD and SST complete (sld, sst): exec answers a next state. At a place their address reaches
they load sD with what the core sees on path n, whose load is then outstanding, or store sD; no other register
changes, and no byte but those stored. A store at a register is made in the same step (log entry 22). -/
def Obligations.ScribeLoadsAndStores : Prop :=
  ∀ (s : State) (sc : Nat) (i : Instr) (w : SWord) (l : SLoc) (s1 : State), Begun s sc i w →
    s.memoriesWf →
    let c := s.scribeCore sc
    let addr := c.rs w.a + sext8 w.i * 8
    (w.op = 0x18 → s.begun.scribeAccess sc addr 8 .read = .ok l s1 →
      (∀ pa, l = .glob pa → s1.plain .n (.scribe sc) 0 (.glob pa) 8 = true →
        (s1.scribeRead sc l 8).1 = s1.readLoc 0 (.glob pa) 8) ∧
      ∃ t, exec i s = .next t ∧ NoStore s1 t ∧
        (∀ r, (t.scribeCore sc).rs r =
          if r = w.d ∧ r ≠ 0 then .ofNat 64 (s1.scribeRead sc l 8).1 else c.rs r) ∧
        (t.scribeCore sc).loads = c.loads ++ [w.d.toNat] ∧ (t.scribeCore sc).pc = c.nextPc ∧
        (t.scribeCore sc).z = c.z ∧ (t.scribeCore sc).m = c.m ∧ (t.scribeCore sc).flags = c.flags ∧
        (t.scribeCore sc).stack = c.stack) ∧
    (w.op = 0x19 → s.begun.scribeAccess sc addr 8 .write = .ok l s1 →
      exec i s = .next ((s1.scribeStore sc none l 8 (c.rs w.d).toNat).modScribe sc
        fun v => { v with pc := (v.pc + 4) % 2 ^ 32 })) ∧
    (w.op = 0x19 → s.begun.scribeAccess sc addr 8 .write = .ok l s1 →
      (∀ pa, l = .glob pa → isRegisterPa pa = false ∧ s1.plain .n (.scribe sc) 0 (.glob pa) 8 = true) →
      ∃ t, exec i s = .next t ∧ (t.scribeCore sc).s = c.s ∧ (t.scribeCore sc).pc = c.nextPc ∧
        (∀ n, n < 8 → (match l with | .glob pa => t.mem.get (pa + n) | .sram o => (t.scribeCore sc).sram.get (o + n)) =
          .ofNat 8 ((c.rs w.d).toNat / 2 ^ (8 * n))) ∧
        (∀ a, (∀ pa, l = .glob pa → a < pa ∨ pa + 8 ≤ a) → t.mem.get a = s1.mem.get a) ∧
        (∀ k a, (∀ o, k = sc → l = .sram o → a < o ∨ o + 8 ≤ a) →
          (t.scribeCore k).sram.get a = (s1.scribeCore k).sram.get a))

/-- R304, R305, R298, R21: VLD, VST, VGATHER, VSCATTER and VAADD complete (vld, vst, vgather, vscatter, vaadd): exec
answers a next state. VLD and VGATHER give each active lane the word at its address, as the core sees it on path
n, which is the newest where it must see every write of it, and keep the others; VST and VSCATTER store the active
lanes of zD in ascending order, so that the last lane at a place stands, and no other byte changes; VAADD adds them
there one by one, the flags to ATOMXF of the stack of a word of DRAM, or to SFLAGS, as one update of each line. When
the lanes' places are checked, and how long a load is outstanding, is the model's (log entry 59). -/
def Obligations.ScribeVectorAccesses : Prop :=
  ∀ (s : State) (sc : Nat) (i : Instr) (w : SWord) (ls : List (Nat × SLoc)) (s1 : State), Begun s sc i w →
    let c := s.scribeCore sc
    let as := (c.lanes w).map fun k => (k, laneAddrOf w c k)
    let places := fun kind => s.begun.scribePlaces sc 4 kind
      (if kind = .write then wholeGranule as else fun _ => false) as
    (w.op = 0x1A ∨ w.op = 0x1C → places .read = .ok (ls, s1) →
      ∃ t, exec i s = .next t ∧ NoStore s1 t ∧
        (∀ k, k < 16 → (t.scribeCore sc).lane w.d k = match AMap.find? k ls with
          | some _ => AMap.getD (State.scribeWords sc ls s1).1 k 0
          | none => c.lane w.d k) ∧
        (∀ r k, r ≠ w.d → (t.scribeCore sc).lane r k = c.lane r k) ∧ (t.scribeCore sc).s = c.s ∧
        (t.scribeCore sc).loads = c.loads ++ [32 + w.d.toNat] ∧ (t.scribeCore sc).pc = c.nextPc) ∧
    (w.op = 0x1B ∨ w.op = 0x1D → places .write = .ok (ls, s1) →
      exec i s = .next (((ls.foldl (fun v p => v.scribeStore sc none p.2 4 (c.lane w.d p.1).toNat) s1).healGranules
        ls as).modScribe sc fun c => { c with pc := (c.pc + 4) % 2 ^ 32 })) ∧
    (w.op = 0x1B ∨ w.op = 0x1D → s.memoriesWf → places .write = .ok (ls, s1) →
      (∀ p ∈ ls, ∀ pa, p.2 = .glob pa → isRegisterPa pa = false ∧ s1.plain .n (.scribe sc) 0 (.glob pa) 4 = true) →
      let byte := fun k n => BitVec.ofNat 8 ((c.lane w.d k).toNat / 2 ^ (8 * n))
      ∃ t, exec i s = .next t ∧ (t.scribeCore sc).pc = c.nextPc ∧
        (∀ k pa n, (k, .glob pa) ∈ ls → n < 4 →
          (∀ j pb, (j, .glob pb) ∈ ls → k < j → pa + 4 ≤ pb ∨ pb + 4 ≤ pa) → t.mem.get (pa + n) = byte k n) ∧
        (∀ k o n, (k, .sram o) ∈ ls → n < 4 →
          (∀ j v, (j, .sram v) ∈ ls → k < j → o + 4 ≤ v ∨ v + 4 ≤ o) →
          (t.scribeCore sc).sram.get (o + n) = byte k n) ∧
        (∀ a, (∀ k pa, (k, .glob pa) ∈ ls → a < pa ∨ pa + 4 ≤ a) → t.mem.get a = s1.mem.get a) ∧
        (∀ m a, (∀ k o, m = sc → (k, .sram o) ∈ ls → a < o ∨ o + 4 ≤ a) →
          (t.scribeCore m).sram.get a = (s1.scribeCore m).sram.get a)) ∧
    (w.op = 0x1E → places .atomic = .ok (ls, s1) →
      exec i s = .next ((ls.foldl (fun v p =>
        let old := v.scribeNow sc p.2 4
        let x := (c.lane w.d p.1).toNat
        let r : Res := if w.i = 0 then Fmt.f32.add old x else ⟨(old + x) % 2 ^ 32, 0⟩
        let v := v.scribeStore sc (some s1.writes) p.2 4 r.bits
        match p.2 with
        | .glob pa => v.addUnitFlags (unitOf pa) r.flags
        | .sram _ => v.modScribe sc fun c => c.raise r.flags) s1).modScribe sc
          fun c => { c with pc := (c.pc + 4) % 2 ^ 32 })) ∧
    (∀ k, (∀ p ∈ ls, ∀ pa, p.2 = .glob pa →
        s1.plain .n (.scribe sc) 0 (.glob pa) 4 = true) →
      w.op = 0x1A ∨ w.op = 0x1C → places .read = .ok (ls, s1) → ∀ l, AMap.find? k ls = some l →
      AMap.getD (State.scribeWords sc ls s1).1 k 0 = .ofNat 32 (s1.scribeNow sc l 4))

/-- R306, R307, R300: the lane-wise vector instructions (vadd, vsub, vmul, vfma, vmin, vmax, vdiv, vsqrt, vrsq, vabs,
vcvt, vsel, vbcast) complete and give each active lane its value, keep the others,
and raise the flags of the active lanes in SFLAGS.

R307, R242, R300: VCMP, VRED and VMOVS complete (vcmp, vred, vmovs): VCMP writes a mask with the lanes whose condition holds, 0 for inactive ones, and raises the flags of
the active lanes' f32 comparisons; VRED combines the active lanes in ascending order into sD, one after another with
the flags of every combination, a single one as it is, and gives -0, +infinity, -infinity or 0 where no lane is active; VMOVS moves one lane from or to a scalar register. -/
def Obligations.ScribeVectors : Prop :=
  (∀ (s : State) (sc : Nat) (i : Instr) (w : SWord), Begun s sc i w →
      w.op ∈ [0x20, 0x21, 0x22, 0x23, 0x24, 0x25, 0x26, 0x27, 0x28, 0x29, 0x2A, 0x2B, 0x2E] →
      let c := s.scribeCore sc
      let r : Nat → Res := fun k =>
        let a := c.lane w.a k
        let b := c.lane w.b k
        let n := a.toNat
        let two := fun (f : Res) (g : Word) => if w.i = 0 then f else ⟨g.toNat, 0⟩
        match w.op with
        | 0x20 => two (Fmt.f32.add n b.toNat) (a + b)
        | 0x21 => two (Fmt.f32.sub n b.toNat) (a - b)
        | 0x22 => two (Fmt.f32.mul n b.toNat) (a * b)
        | 0x23 => Fmt.f32.fma n b.toNat (c.lane w.d k).toNat
        | 0x24 => two (Fmt.f32.minMax false n b.toNat) (if a.toInt ≤ b.toInt then a else b)
        | 0x25 => two (Fmt.f32.minMax true n b.toNat) (if a.toInt ≤ b.toInt then b else a)
        | 0x26 => Fmt.f32.div n b.toNat
        | 0x27 => Fmt.f32.sqrt n
        | 0x28 => Fmt.f32.func .rsq n
        | 0x29 => two (Fmt.f32.abs n) (if a.toInt < 0 then -a else a)
        | 0x2A => match w.i.toNat with
          | 0 => toInteger true 32 .rn (Fmt.f32.decode n)
          | 1 => Fmt.f32.convert .rn (ofInteger a.toInt)
          | 2 => Fmt.bf16.convert .rn (Fmt.f32.decode n)
          | 3 => Fmt.f32.convert .rn (Fmt.bf16.decode (n % 2 ^ 16))
          | 4 => Fmt.h16.convert .rn (Fmt.f32.decode n)
          | _ => Fmt.f32.convert .rn (Fmt.h16.decode (n % 2 ^ 16))
        | 0x2B => ⟨(if (c.mask w.i.toNat).getLsbD k then a else b).toNat, 0⟩
        | _ => ⟨(c.rs w.a).toNat % 2 ^ 32, 0⟩
      ScribeSets s i sc (fun v =>
        (v.setLanes w.d fun k => if c.active w k then .ofNat 32 (r k).bits else c.lane w.d k).raise
          (laneFlags c w fun k => (r k).flags)) c.nextPc) ∧
  (∀ (s : State) (sc : Nat) (i : Instr) (w : SWord), Begun s sc i w →
      let c := s.scribeCore sc
      let n := w.i.toNat
      (w.op = 0x2C → ∃ mask, ScribeSets s i sc (fun v => (v.setMask w.d.toNat mask).raise (laneFlags c w fun k =>
          if 8 ≤ n then 0 else (Fmt.f32.compare n (c.lane w.a k).toNat (c.lane w.b k).toNat).2)) c.nextPc ∧
        ∀ k, k < 16 → mask.getLsbD k = (c.active w k &&
          if 8 ≤ n then scribeCond (n % 8) ((c.lane w.a k).signExtend 64) ((c.lane w.b k).signExtend 64)
          else (Fmt.f32.compare n (c.lane w.a k).toNat (c.lane w.b k).toNat).1)) ∧
      (w.op = 0x2D →
        let values := (c.lanes w).map fun k => (c.lane w.a k).toNat
        let both : Nat → Nat → Res := fun p q =>
          if n = 0 then Fmt.f32.add p q else if n = 1 then Fmt.f32.minMax false p q
          else if n = 2 then Fmt.f32.minMax true p q else ⟨(p + q) % 2 ^ 32, 0⟩
        ∃ r : Res, ScribeSets s i sc (fun v => (v.setS w.d (if n = 3 then (BitVec.ofNat 32 r.bits).signExtend 64
          else .ofNat 64 r.bits)).raise r.flags) c.nextPc ∧
        (values = [] → r = ⟨if n = 0 then 0x80000000 else if n = 1 then 0x7F800000 else if n = 2 then 0xFF800000
          else 0, 0⟩) ∧
        (∀ v vs, values = v :: vs → r = vs.foldl (fun r x =>
          ⟨(both r.bits x).bits, r.flags ||| (both r.bits x).flags⟩) ⟨v, 0⟩)) ∧
      (w.op = 0x2F → n < 32 →
        ScribeSets s i sc (fun v => if 16 ≤ n then v.setS w.d ((c.lane w.a (n % 16)).setWidth 64)
          else v.setLanes w.d fun k => if k = n then (c.rs w.a).setWidth 32 else c.lane w.d k) c.nextPc))

/-- R308, R64, R66, R124, R295, R309: a Scribe TDEC, FENCE and TEXIT complete (scribeTdec, scribeFence, texit), and so do
the decode traps: exec answers a next state. TDEC takes its amount from COUNT, and one that makes the record READY
puts it into its queue; FENCE goes on, the core's writes complete, with its fence on path n made; TEXIT ends the core's task without a cause, and a word that is not legal ends it with its cause, that
cause and the PC in SFAULT.

Each of these steps completes, under the conditions here on the state and its operands alone (exec answers a next
state, that of its own effect): scribeIllegalOpcode. -/
def Obligations.ScribeTasks : Prop :=
  ∀ (s : State) (sc : Nat) (i : Instr) (w : SWord),
    let c := s.scribeCore sc
    (∀ pa s1, Begun s sc i w → w.op = 0x38 → (c.rs w.a).toNat < 2 ^ 52 →
      (s.begun.completeWrites (.scribe sc)).scribeAccess sc (c.rs w.a) 64 .atomic = .ok (.glob pa) s1 →
      isRegisterPa pa = false → s.memoriesWf →
      let d := if w.b = 0 then w.i.toNat else (c.rs w.b).toNat % 2 ^ 32
      let count := recCount s1 pa - d
      d < 2 ^ 31 → -(2 ^ 31) ≤ count →
      (∀ s2 r, s1.countDown (.scribe sc) pa d = .done s2 true → s2.ready (.scribe sc) pa = (r, false) →
        exec i s = .next (r.modScribe sc fun v => { v with pc := (v.pc + 4) % 2 ^ 32 })) ∧
      ((recState s1 pa = 0 ∨ recState s1 pa = 1 ∧ 0 < count) →
      ∃ t, exec i s = .next t ∧ recCount t pa = count ∧ (t.scribeCore sc).pc = c.nextPc ∧
        (t.scribeCore sc).s = c.s ∧ ∀ a, a < pa ∨ pa + 4 ≤ a → t.mem.get a = s1.mem.get a)) ∧
    (Begun s sc i w → w.op = 0x39 →
      let f : Fence := ⟨w.i.setWidth 5, 8, (w.i >>> 5).toNat⟩
      exec i s = .next (((s.begun.completeWrites (.scribe sc)).fence f (.scribe sc)).modScribe sc
        fun v => { v with pc := c.nextPc })) ∧
    (∀ pa lid, Begun s sc i w → w.op = 0x3A → c.task = some (pa, lid) →
      ∃ t, exec i s = .next t ∧ (t.scribeCore sc).task = none ∧ (t.scribeCore sc).lastLaunch = lid ∧
        AMap.find? pa t.tasks = none) ∧
    (∀ cause : BitVec 8, s.scribe = some sc → ∃ t, exec (.scribeIllegalOpcode cause) s = .next t ∧
      (t.scribeCore sc).sfault = .ofNat 64 (cause.toNat * 2 ^ 56 + c.pc % 2 ^ 32) ∧
      (t.scribeCore sc).sfaddr = 0 ∧ (t.scribeCore sc).task = none)

/-- R215, R227, R182, R328, R42, R47, R52, R345: the steps of the module that a thread waits for. A REALIGN stall
ends at its slot. A parked WAITW that is woken, or whose timeout passes, writes the word that it then
reads and goes on. A long-latency instruction writes its results when it completes; one that faults
leaves its fault for the thread's next issue. A convergence window of 64 clocks ends in a release or in
ILLEGAL_CONVERGENCE. The watchdog traps a thread whose wait count is 16 times the shot clock. The threads of a gang
that wait for the retirement tracker exit together where it has room for their entries; which gang comes first is the
model's choice (log entry 119). A TLBINV goes on when no command keeps a dropped
translation.

R330, R331, R94: the steps that finish a CTXSAVE, a CTXLOAD and a page request. A save whose team is
quiet, with no command in flight and no trap pending, writes the save area and takes the team off its
cores (2^18 free values are set aside for the registers of exited threads); a load with room reads the area, places the team and lets it go on; each then signals its
completion without an error. A page request is signalled once the page is resident. The order of the steps, and what
they do in the corners that the rules leave open, are the model's (log entries 48, 56 and 57).

Each of these steps completes, under the conditions here on the state and its operands alone (exec answers a next
state, that of its own effect): waitwWake, waitwTimeout, realignResume, longLatencyComplete, longLatencyFault,
convergenceTimeout, watchdog, exitTrackerResume, tlbinvComplete, ctxsaveCtxloadCompletion, pagereqComplete. -/
def Obligations.WaitingThreads : Prop :=
  (∀ (s : State),
      (∀ c at_, (s.core c).stall = some at_ → at_ ≤ s.tick + s.timeBase → ∃ t, exec (.realignResume c) s = .next t ∧
        (t.core c).stall = none ∧ NoStore s t ∧
        ∀ u, (t.thread u).pc = (s.thread u).pc ∧ (t.thread u).regs = (s.thread u).regs) ∧
      (∀ i u w l s1, (s.thread u).status = .parked (.word w) →
        (i = .waitwWake u ∨ (i = .waitwTimeout u ∧ (∃ d, w.deadline = some d ∧ d ≤ s.tick) ∧
          (s.core (s.coreOf u.sid)).stopped = false)) →
        s.checkAddr (s.coreOf u.sid) u.team (s.launchOf u).space w.addr w.ty.size w.ty.size .read = .ok l s1 →
        s1.lineAbsent u.team l w.ty.size = none → s1.badLoc u.team l w.ty.size = false →
        ∃ t, exec i s = .next t ∧ NoStore s1 t ∧ (∀ v, v ≠ u → t.thread v = s.thread v) ∧
          t.thread u =
            { ((s.thread u).setXs w.d w.ty.regs (s1.readLoc u.team l w.ty.size)).setP w.rf false with
              pc := (s.thread u).pc + BitVec.ofNat 64 w.len, status := .ready, since := s.clock,
              heldSince := none }) ∧
      (∀ u w v, (s.thread u).windowOf w = some v → v.known = true → v.complete = false → v.fault = none →
        ∃ t, exec (.longLatencyComplete u w) s = .next t ∧ t = { s with threads := t.threads } ∧
          (∀ x, x ≠ u → t.thread x = s.thread x) ∧ (t.thread u).pc = (s.thread u).pc ∧
          (t.thread u).regs = ((s.thread u).setRegs v.regs).regs ∧
          (t.thread u).preds = ((s.thread u).setPreds v.preds).preds ∧
          (t.thread u).fflags = (s.thread u).fflags ||| BitVec.ofNat 6 v.flags) ∧
      (∀ u w v (c : BitVec 8) a, (s.thread u).windowOf w = some v → v.known = true → v.complete = false →
        v.fault = some (c.toNat, a) →
        ∃ t, exec (.longLatencyFault u w c a) s = .next t ∧ t = { s with threads := t.threads } ∧
          (∀ x, x ≠ u → t.thread x = s.thread x) ∧ (t.thread u).regs = (s.thread u).regs ∧
          { v with complete := true } ∈ (t.thread u).windows ++ (t.thread u).saved) ∧
      (∀ q c0 pc, (s.squad q).window = some (c0, pc) → (s.core (s.coreOf q)).stopped = false →
        c0 + 64 ≤ s.clock → ∃ t, exec (.convergenceTimeout q) s = .next t ∧ (t.squad q).window = none ∧
          NoStore s t ∧ ∀ u ∈ s.liveOf q, (s.thread u).status = .held →
            if s.gathered q pc then (t.thread u).status = .ready
            else (t.thread u).status = .trapped ∧ (t.thread u).trapCause = 0x08#32) ∧
      (∀ u, (s.thread u).isReady = true → 16 * (s.launchOf u).shot ≤ (s.thread u).waitCount s.clock →
        ∃ t, exec (.watchdog u) s = .next t ∧ NoStore s t ∧ (t.thread u).status = .trapped ∧
          (t.thread u).trapCause = 0xC2#32 ∧ (t.thread u).resume = (s.thread u).pc ∧
          (∀ v, v ≠ u → t.thread v = s.thread v)) ∧
      (∀ q k, s.gangsLeaving (s.coreOf q) = [k] → s.exitRoom (s.coreOf q) (s.gangLeaving (s.coreOf q) k) = true →
        ∃ t, exec (.exitTrackerResume q) s = .next t ∧
        t = s.exitThreads (s.coreOf q) (s.gangLeaving (s.coreOf q) k) ∧
        ∀ u ∈ s.gangLeaving (s.coreOf q) k, (t.thread u).status = .exited) ∧
      (∀ id v, AMap.find? id s.invalidations = some v → (∀ c ∈ v.cmds, AMap.find? c s.commands = none) →
        (s.thread v.tid).status = .invalidating id v.len →
        ∃ t, exec (.tlbinvComplete id) s = .next t ∧ NoStore s t ∧
          AMap.find? id t.invalidations = none ∧ (∀ u, u ≠ v.tid → t.thread u = s.thread u) ∧
          t.thread v.tid = { s.thread v.tid with
            pc := (s.thread v.tid).pc + BitVec.ofNat 64 v.len, status := .ready, since := s.clock,
            heldSince := none })) ∧
  (∀ (s : State),
      (∀ id o n s2, AMap.find? id s.contexts = some o → o.base.toNat % 256 = 0 → o.load = false →
        o.team = some n → o.cause = 0 → (AMap.find? n s.teams).isSome = true → s.quiet n = true → s.drained n = true →
        (∀ u ∈ s.threadsOfTeam n, (s.thread u).pendingTrap u = none) →
        { s with contexts := s.contexts.set id o }.writeVa o.core o.space o.agent o.base.toNat (s.saveArea o n) = .ok s2 →
        exec (.ctxsaveCtxloadCompletion id) s = .next
          (({ s2 with free := s2.free + 2 ^ 18 }.removeTeam n).retryPlaces.retryTasks.endContext id o 0)) ∧
      (∀ id o a s1 n s2 s3, AMap.find? id s.contexts = some o → o.base.toNat % 256 = 0 → o.load = true →
        o.team = none → s.readArea o.core o.space o.agent o.base.toNat = .ok (a, s1) →
        s1.loadable o.core o.slot a = true → (s1.powerOf o.core).on = true → s1.placeArea o a = some (n, s2) →
        s2.reissueAll (s2.teamLaunch n).space
          (a.commands o.core n (areaLid a.head) (s1.launch (areaLid a.head)).space) = ([], s3) →
        exec (.ctxsaveCtxloadCompletion id) s = .next
          (((s3.resumeArea n a).endContext id o 0).retryTasks.due (.launchComplete (areaLid a.head)) 0)) ∧
      (∀ r q pa s1, AMap.find? r s.pageReqs = some q →
        s.translateWalk ⟨q.asn, q.tableRoot, q.system⟩ q.va .read = .ok (pa, s1) →
        exec (.pagereqComplete r) s =
          .next ({ s1 with pageReqs := s.pageReqs.erase r }.signalPage q false 0)))

/-- R121, R253, R261-R267, R150, R141: the earliest entry of a core's engine order is carried out and removed. An
MMA leaves in each element of its tile the f32 sum that R261 gives of the element, of A as the squad sees it on
path m or as the partner core's engine has read it (R263, R120), and of B; MZERO leaves
zero; MWR and a load of the operand buffer leave their bytes; MRD writes the bytes of the accumulator in
its threads; MDRAIN hands its command the tile's elements, converted to its type or, for an add, as they are; QUANT
leaves the scale byte and the codes of each block in the operand buffer or, as stores of lane 0, in the scratchpad.
Elements outside the tile, and all other memory, keep their values.

Each of these steps completes, under the conditions here on the state and its operands alone (exec answers a next
state, that of its own effect): matrixOpComplete. -/
def Obligations.MatrixEngine : Prop :=
  ∀ (s : State) (c : Nat) (op : EngineOp) (ops : List EngineOp), (s.core c).engine = op :: ops →
    (AMap.find? op.team s.teams).isSome = true → op.half < 2 → (s.team op.team).badAcc = [] →
    (s.core c).badOpBuf = [] → s.memoriesWf →
    ∃ t, exec (.matrixOpComplete c) s = .next t ∧ ((∀ e ∈ ops, e.window = op.window → ∀ m, e.work.hold m = e.work) → (t.core c).engine = ops) ∧
      (∀ tile, op.work = .zero tile → tile.cols ≤ tile.pitch →
        (∀ i j, i < tile.rows → j < tile.cols → ((t.team op.team).acc op.half).readNat (tile.elem i j) 4 = 0) ∧
        ∀ a, (∀ i j, i < tile.rows → j < tile.cols → a < tile.elem i j ∨ tile.elem i j + 4 ≤ a) →
          ((t.team op.team).acc op.half).get a = ((s.team op.team).acc op.half).get a) ∧
      (∀ ty tr ah ao so ap bp eo r tile k held, op.work = .mma ty tr ah ao so ap bp eo r tile k held →
        tile.cols ≤ tile.pitch →
        let half := held.getD (s.seenHalf .m (s.party (op.tids.headD ⟨op.team, 0, 0⟩)) op.team ah).1
        (∀ i j, i < tile.rows → j < tile.cols → ((t.team op.team).acc op.half).readNat (tile.elem i j) 4 =
          mmaFold (matA half ty (recLen r) ao so ap i)
            (fun x => matB (s.core c).opBuf r tr bp eo x j) (chunkOf ty) k 0
            (((s.team op.team).acc op.half).readNat (tile.elem i j) 4) % 2 ^ 32) ∧
        (∀ a, (∀ i j, i < tile.rows → j < tile.cols → a < tile.elem i j ∨ tile.elem i j + 4 ≤ a) →
          ((t.team op.team).acc op.half).get a = ((s.team op.team).acc op.half).get a) ∧
        t.mem = s.mem) ∧
      (∀ a n v, op.work = .write a n v →
        ((t.team op.team).acc op.half).readNat a n = v % 2 ^ (8 * n) ∧ t.mem = s.mem) ∧
      (∀ a n v, op.work = .load a n v → (t.core c).opBuf.readNat a n = v % 2 ^ (8 * n) ∧ t.mem = s.mem ∧
        t.teams = s.teams) ∧
      (∀ a n d, op.work = .read a n d → t.mem = s.mem ∧ ∀ u ∈ op.tids, op.tids = [u] →
        ((s.thread u).windowOf op.window).isSome = true →
        (t.thread u).regs = ((s.thread u).setXs d (n / 4) (((s.team op.team).acc op.half).readNat a n)).regs) ∧
      (∀ cmd tile v, op.work = .drain cmd tile → AMap.find? cmd s.commands = some v →
        t.mem = s.mem ∧ t.teams = s.teams ∧ AMap.find? cmd t.commands = some { v with
          ready := true
          pieces := v.pieces.map fun p =>
            match p.src with
            | .bytes n =>
              let x := ((s.team op.team).acc op.half).readNat (tile.elem (n / tile.cols) (n % tile.cols)) 4
              { p with src := .bytes (if v.adds then x else ((fmtOf v.ty).convert .rn (Fmt.f32.decode x)).bits) }
            | _ => p }) ∧
      (∀ kind tile r eoff pitch, op.work = .quantBuffer kind tile r eoff pitch → kind < 4 →
        let codes := recBase r * 4096
        let scales := recBase r * 4096 + recSoff r * 64
        (quantPlaces tile codes scales eoff pitch).Nodup →
        (∀ p ∈ tile.blocks, let e := eoff + p.1 * pitch + 8 * p.2
          QuantBlock ((s.team op.team).acc op.half) kind tile p.1 p.2 ((t.core c).opBuf.readNat (scales + e / 8) 1)
            ((t.core c).opBuf.readNat (codes + e / 2) 4)) ∧
        (∀ a, a ∉ quantPlaces tile codes scales eoff pitch → (t.core c).opBuf.get a = (s.core c).opBuf.get a) ∧
        t.mem = s.mem ∧ (t.team op.team).acc op.half = (s.team op.team).acc op.half) ∧
      (∀ kind tile h codes scales pitch, op.work = .quantScratch kind tile h codes scales pitch →
        kind < 4 → h < 2 → (quantPlaces tile codes scales 0 pitch).Nodup →
        (∀ p ∈ tile.blocks, ∀ u, op.tids.head? = some u → let e := p.1 * pitch + 8 * p.2
          u.team = op.team ∧ s.lastAt u (.scr h (codes + e / 2)) 4 ∧ s.lastAt u (.scr h (scales + e / 8)) 1) →
        op.tids ≠ [] →
        (∀ p ∈ tile.blocks, let e := p.1 * pitch + 8 * p.2
          QuantBlock ((s.team op.team).acc op.half) kind tile p.1 p.2
            (((t.team op.team).scratch h).readNat (scales + e / 8) 1)
            (((t.team op.team).scratch h).readNat (codes + e / 2) 4)) ∧
        (∀ a, a ∉ quantPlaces tile codes scales 0 pitch →
          ((t.team op.team).scratch h).get a = ((s.team op.team).scratch h).get a) ∧
        t.mem = s.mem ∧ (t.team op.team).acc op.half = (s.team op.team).acc op.half)

/-- R86, R115, R103, R128, R130, R280, R284, R347, R120: the steps that finish commands and take in their packets,
where no trace stream takes the event and no page of them is held. A line is delivered and its pending
count falls; a command with nothing left to move ends; a put's bytes are written and acknowledged; a
message fills its ring's next slot, its metadata word and TAIL; a GET is answered with the window's
bytes, which the initiator writes; an acknowledgement ends its part of the command; a command unit does
its part, once. What a put's first packet finds and keeps, what is sent again, and how a unit's packet goes are the model's
(log entries 35, 37 and 42).

R283, R313, R390, R392, R398, R408, R73: the steps of packets and their refusals. A packet at its
destination, of the version in force, is taken in, and one elsewhere crosses the edge its route entry names; one of
an older version is refused; one from outside comes in at its endpoint, where its port has a live link, on VC 0 (how a packet is carried between is
the model's: log entries 40, 41 and 109). A refusal that names no registration ends its part with WINDOW_RIGHTS. A packet
held 10 µs for a newer version is refused; a replay entry without traffic for 1 ms is free; a reducing
packet not acknowledged fails its command, with one of the causes that a completion records, the manual does not say
which (a free value, assumption 38); one
that met a full replay filter is sent again; the congestion cap moves by 8.

Each of these steps completes, under the conditions here on the state and its operands alone (exec answers a next
state, that of its own effect): commandComplete, copyLineDelivered, ringAppend, putArrive, getRequestArrive,
getReplyArrive, putAck, nmcmdPacketArrive, packetHop, nakReceive, versionHoldTimeout, replayEntryExpire,
ackTimeout, replayFullRetry, congestionSample. -/
def Obligations.CommandsAndPackets : Prop :=
  (∀ (s : State),
      (∀ c v, AMap.find? c s.commands = some v → v.parts = [] → v.ready = true → v.lines = [] →
        v.pieces = [] → s.commandHeld v = false → v.op ≠ .nmcmd →
        (s.site (siteOf v.core)).streamOf (s.tenantOf v.lid) = none →
        ∃ t, exec (.commandComplete c) s = .next t ∧ AMap.find? c t.commands = none ∧
          t = (s.setCommand c { v with began := true }).finishCommand c { v with began := true }) ∧
      (∀ c h l v, AMap.find? c s.commands = some v → (h, l) ∈ v.lines → v.ready = true →
        s.commandHeld v = false → ∃ t, exec (.copyLineDelivered c h l) s = .next t ∧ ∃ w,
          AMap.find? c t.commands = some w ∧ w.lines = v.lines.filter (· != (h, l)) ∧ w.began = true ∧
          w.pieces = v.pieces.filter fun p => !(v.adds || lineOf p.dst == some (h, l))) ∧
      (∀ p q k pa, AMap.find? p s.packets = some q → s.stalePacket q = false → s.regOnModule q.tag = some pa →
        s.accessHeld pa = false → bitOf (regWord s pa 0) 56 = true → regWord s pa 3 = q.win.arrived.toNat →
        (AMap.find? (regLid s pa) s.launches).isSome = true →
        s.teamNumbered (regLid s pa) (q.off % 2 ^ 24) = some k → s.memoriesWf →
        let n := q.off / 2 ^ 24 % 8
        let tm := s.team k
        let tail := (AMap.getD tm.ringTail n 0).toNat
        let slots := 2 ^ bitsOf (AMap.getD tm.ringCfg n 0).toNat 39 36
        tm.frozen = false → tm.ringOn n = true → (tail + 2 ^ 32 - tm.ringHead n) % 2 ^ 32 < slots →
        ∃ t, exec (.ringAppend p) s = .next t ∧ t.mem = s.mem ∧
          AMap.getD (t.team k).ringTail n 0 = BitVec.ofNat 32 (tail + 1) ∧
          let holds := fun o m v => s.plain .p (s.packetAgent q) k (.scr (tm.ringHalf n) o) m = true →
            ((t.team k).scratch (tm.ringHalf n)).readNat o m = v
          holds (tm.ringBase n + 64 + 64 * (tail % slots)) 64 (natOfBytes q.payload % 2 ^ 512) ∧
          holds (tm.ringBase n + 64 + 64 * slots + 8 * (tail % slots)) 8
            ((q.srcMod.toNat * 2 ^ 48 + q.srcCore % 2 ^ 13 * 2 ^ 32 + q.len) % 2 ^ 64) ∧
          holds (tm.ringBase n + 4) 4 ((tail + 1) % 2 ^ 32)) ∧
      (∀ p q, AMap.find? p s.packets = some q → s.stalePacket q = false → s.regHeld q.dstSite q.tag = false →
        (∀ a s1, s.admission q.dstSite q = .go a s1 → s1.targetHeld q a = false →
          (s1.site q.dstSite).streamOf (s1.tenantOf a.lid) = none →
          (isReducing q = false → ∃ t, exec (.putArrive p) s = .next t ∧
            t = (s1.dropPacket p).applyPut q.dstSite q a ∧
            ∀ pa s2, q.ptype = 0x01 → s.memoriesWf →
              (s1.dropPacket p).translateWalk a.space (q.win.base.toNat + q.off) .write = .ok (pa, s2) →
              s2.plain .p (s2.packetAgent q) 0 (.glob pa) q.len = true →
              isRegisterPa pa = false → 1 < a.left → q.payload.length = q.len →
              t.mem.readNat pa q.len = natOfBytes q.payload) ∧
          (∀ s2, isReducing q = true → s.replayCheck q.dstSite q = .apply s2 →
            exec (.putArrive p) s = .next (((s1.dropPacket p).replayed q).applyPut q.dstSite q a))) ∧
        ∀ s2, isReducing q = true → s.replayCheck q.dstSite q = .seen s2 →
          exec (.putArrive p) s = .next ((s2.dropPacket p).acknowledge q q.dstSite 0)) ∧
      (∀ p q a s1 pa s2, AMap.find? p s.packets = some q → s.stalePacket q = false →
        s.regHeld q.dstSite q.tag = false → s.admission q.dstSite q = .go a s1 → s1.targetHeld q a = false →
        (s1.dropPacket p).translateWalk a.space (q.win.base.toNat + q.off) .read = .ok (pa, s2) →
        isRegisterPa pa = false → s2.badLoc 0 (.glob pa) q.len = false →
        let r := s2.seen .p (s2.packetAgent q) 0 (.glob pa) q.len
        let touched := r.2.touchL2 pa .normal false
        let v := if q.srcMod.toNat = s.moduleId then touched.keepArrival q a else touched.partArrived q a 0 false
        (s2.plain .p (s2.packetAgent q) 0 (.glob pa) q.len = true → r.1 = s2.readLoc 0 (.glob pa) q.len) ∧
        exec (.getRequestArrive p) s = .next (v.launchPacket
          { answerTo q v.moduleId q.dstSite 0x04 with
            len := q.len, payload := bytesOfNat q.len r.1, cause := 0 } 0).2) ∧
      (∀ p q c, AMap.find? p s.packets = some q → AMap.find? q.cmd s.commands = some c →
        s.stalePacket q = false → s.commandHeld c = false → q.payload ≠ [] →
        let home := (s.dropPacket p).getHome { q with srcMod := q.dstMod }
        let dst := c.addr + (q.off - c.word.toNat)
        let r := home.replyBytes q.cmd c (bytePieces c.addr c.len 0) dst q.payload.length (natOfBytes q.payload)
        ∃ t, exec (.getReplyArrive p) s = .next t ∧ t = r.1.partDone q.cmd q.part (firstCause q.cause r.2) ∧
          ∀ h o, c.op = .get → c.loc dst = some (.scr h o) → h < 2 → dst % 65536 + q.payload.length ≤ 65536 →
            (AMap.find? c.team s.teams).isSome = true → s.memoriesWf →
            s.plain .p c.agent c.team (.scr h o) q.payload.length = true →
            ((t.team c.team).scratch h).readNat o q.payload.length = natOfBytes q.payload) ∧
      (∀ p q v, AMap.find? p s.packets = some q → s.stalePacket q = false → AMap.find? q.cmd s.commands = some v →
        q.part ∈ v.parts → ∃ t w, exec (.putAck p) s = .next t ∧ AMap.find? p t.packets = none ∧ t.mem = s.mem ∧
          AMap.find? q.cmd t.commands = some w ∧ w.parts = v.parts.filter (· != q.part) ∧
          w.cause = if v.cause = 0 then q.cause else v.cause) ∧
      (∀ p q v site stack, AMap.find? p s.packets = some q → AMap.find? q.cmd s.commands = some v →
        s.stalePacket q = false → v.op = .nmcmd → site * 4 + stack ∈ v.units → s.commandHeld v = false →
        (∀ s2, s.replayCheck q.dstSite q = .apply s2 → exec (.nmcmdPacketArrive p site stack) s =
          .next (((s2.unitPart q.cmd v q.dstSite (stackOf q.off)).dropPacket p).acknowledge q q.dstSite 0)) ∧
        ∀ s2, s.replayCheck q.dstSite q = .seen s2 → exec (.nmcmdPacketArrive p site stack) s =
          .next ((s2.dropPacket p).acknowledge q q.dstSite 0))) ∧
  (∀ (s : State),
      (∀ p q, AMap.find? p s.packets = some q → q.plane = .mesh → q.ver.toNat = (s.site q.at_).active →
        let e := meshEntry (s.site q.at_).activeBank q.dstSite
        let edge := e % 4
        (q.at_ = q.dstSite → bitOf e 15 = true → bitsOf e 13 3 = 0 → s.delivers q = true →
          exec (.packetHop (.known p)) s = .next (s.arrive p q)) ∧
        (∀ y, q.at_ ≠ q.dstSite → q.hops < 24 → bitOf e 15 = true → bitOf e 14 = false → bitsOf e 13 3 = 0 →
          s.reaches q (edgeRouter edge) = true → neighbour q.at_ edge = some y →
          (bitOf e 2 = true → q.vc ≠ 3) → edge ∉ (s.site q.at_).deadRefuse → (s.site y).off = false →
          AMap.find? edge (s.site q.at_).retry = none →
          bitOf (s.site q.at_).edead edge = false →
          ∃ t, exec (.packetHop (.known p)) s = .next t ∧ t.mem = s.mem ∧
            AMap.find? p t.packets = some { q with
              at_ := y, came := some ((edge + 2) % 4), hops := q.hops + 1,
              vc := if bitOf e 2 then q.vc + 1 else q.vc } ∧
            ({ at_ := s.tick + hopTicks, ev := .packetHop (.known p) } : Due) ∈ t.agenda)) ∧
      (∀ p q, AMap.find? p s.packets = some q → q.plane = .mesh → q.ver ≠ 0 →
        older q.ver.toNat (s.site q.at_).active = true →
        exec (.packetHop (.known p)) s = .next (s.refuse p q q.at_ 0x01)) ∧
      (∀ q : Packet, q.dstMod.toNat = s.moduleId → q.dstSite < 60 → knownPacket q = true → q.ver = 0 →
        q.len ≤ 4096 → q.payload.length ≤ 4096 →
        let x := s.landing q.dstSite
        (s.site x).portLive = true → ∃ t, exec (.packetHop (.fromOutside q)) s = .next t ∧ t.mem = s.mem ∧
          AMap.find? s.serial t.packets = some { q with
            at_ := x, came := none, landed := true, plane := .external, hops := 0, vc := 0
            ver := BitVec.ofNat 16 (s.site x).active } ∧
          ({ at_ := s.tick, ev := .packetHop (.known s.serial) } : Due) ∈ t.agenda) ∧
      (∀ p q v, AMap.find? p s.packets = some q → s.stalePacket q = false → AMap.find? q.cmd s.commands = some v →
        q.reason = 0x05 → v.op ≠ .get → (AMap.find? q.part s.sent).filter isAnswer = none →
        (s.site q.dstSite).streamOf (s.tenantOf v.lid) = none →
        exec (.nakReceive p) s = .next ((s.dropPacket p).partDone q.cmd q.part Cause.windowRights)) ∧
      (∀ p q, AMap.find? p s.packets = some q → p ∈ (s.site q.at_).held →
        exec (.versionHoldTimeout p) s = .next (s.refuse p q q.at_ 0x02)) ∧
      (∀ n k e, AMap.find? k (s.site n).replay = some e → e.last + 8000000 ≤ s.tick → ∃ t,
        exec (.replayEntryExpire n k) s = .next t ∧ AMap.find? k (t.site n).replay = none ∧
        t = { s with sites := t.sites }) ∧
      (∀ p q, AMap.find? p s.sent = some q → ∃ cause ∈ Cause.completions,
        exec (.ackTimeout p) s = .next ({ s with free := s.free + 1 }.failCommand q.cmd cause)) ∧
      (∀ p q, AMap.find? p s.sent = some q →
        exec (.replayFullRetry p) s = .next (s.retransmit q.cmd p)) ∧
      (∀ n m, (s.site n).off = false → let hi := thresholdHigh (s.site n).activeBank
        let lo := thresholdLow (s.site n).activeBank
        ∃ t, exec (.congestionSample n [m]) s = .next t ∧ t.mem = s.mem ∧ (t.site n).cap =
          if hi < m then max 8 ((s.site n).cap - 8)
          else if m < lo ∧ lo < hi then min 64 ((s.site n).cap + 8) else (s.site n).cap))

/-- R56, R57, R59-R62, R66, R69-R72: the steps of the scheduler. A doorbell and a queue configuration are
written; the record at HEAD is read, and one that passes its checks becomes the launch of the next
identity; a queue that waited for a page reads on. A launch whose conditions hold completes and is gone; a team is
placed where it fits, and released when it is empty and others wait; a task is dispatched; a lease is
granted, and taken from an idle holder. The clocks between are the model's (log entries 12 and 86).

Each of these steps completes, under the conditions here on the state and its operands alone (exec answers a next
state, that of its own effect): lqtailWrite, lqcfgWrite, launchRecordRead, launchPageResume, launchComplete,
teamPlace, teamRelease, taskDispatch, leaseGrant, leaseIdleExpiry, rootDecrementResume. -/
def Obligations.SchedulerSteps : Prop :=
  ∀ (s : State),
    (∀ q v, ∃ t, exec (.lqtailWrite q v) s = .next t ∧ (t.queue q).tail = v ∧
      ({ at_ := s.tick + 5, ev := .launchRecordRead q } : Due) ∈ t.agenda ∧
      t = { s with queues := t.queues, agenda := t.agenda }) ∧
    (∀ q (v : Word), bitsOf v.toNat 30 24 = 0 → bitsOf v.toNat 15 14 = 0 → bitsOf v.toNat 7 4 = 0 →
      bitsOf v.toNat 13 8 < 60 → ∃ t, exec (.lqcfgWrite q v) s = .next t ∧
        (t.queue q).cfg = BitVec.ofNat 32 (setBits v.toNat 23 16 (bitsOf (s.queue q).cfg.toNat 23 16)) ∧
        t = { s with queues := t.queues, agenda := t.agenda }) ∧
    (∀ q r s1 s2 v, (s.queue q).enabled = true → (s.queue q).wait = false → (s.queue q).waiting ≠ 0 →
      (s.queue q).waiting ≤ (s.queue q).size →
      s.schedRead (s.queueSpace q) (bitsOf (s.queue q).base.toNat 51 8 * 256 +
        256 * ((s.queue q).head.toNat % (s.queue q).size)) 32 = .ok r s1 →
      let sp := s.queueSpace q
      s1.lrecBad r (lrecLaunch r q sp []) = none →
      s1.schedRead sp (lrec r 0x20 51 0) (lrec r 0x28 6 0) = .ok v s2 →
      s1.checkDone sp (lrecLaunch r q sp []).done = none →
      ∃ t, exec (.launchRecordRead q) s = .next t ∧
        AMap.find? s.nextLid t.launches =
          some { lrecLaunch r q sp [] with consts := wordsOf v (lrec r 0x28 6 0) } ∧
        t.nextLid = lidAfter s.nextLid ∧ (t.queue q).head = (s.queue q).head + 1 ∧
        ({ at_ := s.tick + 5, ev := .teamPlace s.nextLid } : Due) ∈ t.agenda) ∧
    (∀ q, (s.queue q).wait = true → ∃ t, exec (.launchPageResume q) s = .next t ∧
      (t.queue q).wait = false ∧ ({ at_ := s.tick, ev := .launchRecordRead q } : Due) ∈ t.agenda) ∧
    (∀ lid, (s.strand lid).launchOver lid = true →
      let v := (s.strand lid).abandon lid 1
      ∃ t, exec (.launchComplete lid) s = .next t ∧
        t = (((v.teamsOfLaunch lid).foldl State.freeTeam v).rootStep lid).retryPlaces ∧
        ((s.launch lid).root = 0 → AMap.find? lid t.launches = none ∧ t.teamsOfLaunch lid = [])) ∧
    (∀ lid l c s1, AMap.find? lid s.launches = some l → l.unplaced = true → s.heldPlace l = some c →
      s.unpowered c = false → s.outranked lid = false → s.slotWait (siteOf c) = 0 →
      s.mayStart (siteOf c) (s.startStep l c) (.teamPlace lid) = (true, s1) →
      ∃ t, exec (.teamPlace lid) s = .next t ∧ (t.team s1.serial).lid = lid ∧
        (t.team s1.serial).core = c ∧ (t.team s1.serial).number = l.nextNumber ∧
        (t.team s1.serial).paired = l.pair ∧ (t.team s1.serial).part = l.part) ∧
    (∀ n m, AMap.find? n s.teams = some m → s.squadsOfTeam n = [] → m.frozen = false →
      (s.launch m.lid).unplaced = true → (s.hasTracker fun e => e.team == n) = false → ∃ t,
        exec (.teamRelease n) s = .next t ∧ AMap.find? n t.teams = none) ∧
    (∀ n t p s1, (s.site n).dispatches = 0 ∨ (s.site n).lastDispatch + 32 ≤ s.tick →
      s.nextTask n = some (t, p) → s.mayStart n p.step (.taskDispatch n) = (true, s1) →
      let v := s1.dispatch n t p
      exec (.taskDispatch n) s = .next (if (v.site n).readyQ.isEmpty then v else v.due (.taskDispatch n) 32)) ∧
    (∀ c n s1, (s.core c).lease.holder = none → s.leaseBest c (s.leaseWaiters c) = some n →
      (∀ d ∈ (s.team n).cores, (s.core d).lease.holder = none) → s.squadsOfTeam n ≠ [] →
      s.mayStart (siteOf c) (s.grantStep n) (.leaseGrant c) = (true, s1) →
      ∃ t, exec (.leaseGrant c) s = .next t ∧ (t.team n).leaseWait = false ∧
        ∀ d ∈ (s.team n).cores, (t.core d).lease.holder = some n ∧
          (t.core d).lease.left = (s.launch (s.team n).lid).lease) ∧
    (∀ c h, (s.core c).lease.holder = some h → s.leaseWaiters c ≠ [] → s.leaseRest c = 0 →
      (∀ d ∈ (s.team h).cores, (s.core d).halted = false) →
      ∃ t, exec (.leaseIdleExpiry c) s = .next t ∧ NoStore s t ∧
        ∀ d ∈ (s.team h).cores, (t.core d).lease.holder ≠ some h) ∧
    (∀ lid l r, AMap.find? lid s.launches = some l → l.rootWait = true →
      s.translateWalk l.space l.root .write = .ok r → l.root ≠ 0 → ∃ t,
      exec (.rootDecrementResume lid) s = .next t ∧ t = s.rootStep lid ∧
        AMap.find? lid t.launches = none)

/-- R322-R327: the steps of the trap queue. The next report whose threads' long-latency instructions are
complete is written at TAIL, in its four words, where the ring is enabled and has room. Resume lets the
report's threads go on at their resume PCs; forward enters the user handler; the other actions end the
threads, or the launch. Where Barrel's ring lies, and what an action on a report without threads does, are the model's
(log entries 53 and 54).

Each of these steps completes, under the conditions here on the state and its operands alone (exec answers a next
state, that of its own effect): trapReport, trapqheadWrite, trapactResume, trapactForward, trapactEndThreads,
trapactEndLaunch. -/
def Obligations.TrapQueue : Prop :=
  ∀ (s : State),
    (∀ n r pa s1, (s.site n).trapEn = true → (s.site n).trapFilled < (s.site n).trapSize →
      (s.site n).waiting.find? s.reportable = some r → s.trapSlot n = .ok (pa, s1) →
      (∀ k, k < 4 → isRegisterPa (pa + 8 * k) = false) →
      ∃ t, exec (.trapReport n) s = .next t ∧ (t.site n).trapqtail = (s.site n).trapqtail + 1 ∧
        AMap.find? (s.site n).trapqtail.toNat (t.site n).reports = some r ∧
        t.mem.readNat pa 8 =
          (r.lid * 2 ^ 32 + r.cause * 2 ^ 24 + r.flags * 2 ^ 16 + r.core) % 2 ^ 64 ∧
        t.mem.readNat (pa + 8) 8 = r.lanes.toNat ∧
        t.mem.readNat (pa + 16) 8 =
          (r.tslot * 2 ^ 56 + r.issued * 2 ^ 52 + r.pc.toNat % 2 ^ 52) % 2 ^ 64 ∧
        t.mem.readNat (pa + 24) 8 = r.addr.toNat) ∧
    (∀ n v, ∃ t, exec (.trapqheadWrite n v) s = .next t ∧ (t.site n).trapqhead = v ∧
      ({ at_ := s.tick, ev := .trapReport n } : Due) ∈ t.agenda ∧
      t = { s with sites := t.sites, agenda := t.agenda }) ∧
    (∀ n (idx : Word) r, s.reportAt n idx = some r → r.threads ≠ [] →
      let acted := fun (k : Nat) => s.modSite n fun st =>
        { st with trapact := BitVec.ofNat 64 (k * 2 ^ 61 + idx.toNat) }
      (∃ t, exec (.trapactResume n idx) s = .next t ∧ NoStore s t ∧
        (∀ u, u ∉ r.threads → t.thread u = s.thread u) ∧ ∀ u ∈ r.threads, t.thread u =
          { s.thread u with pc := (s.thread u).resume, status := .ready, since := s.clock, heldSince := none }) ∧
      (∀ u s1, (s.launch r.lid).hv = true → (s.thread u).hnd = false →
        (s.thread u).trapCause.getLsbD 20 = false → r.threads = [u] → ((acted 1).leaveDelivery [u]).forward u = some s1 →
        exec (.trapactForward n idx) s = .next s1 ∧ (s1.thread u).hnd = true ∧
        (s1.thread u).status = .ready ∧ (s1.thread u).windows = (s.thread u).windows.filter Window.faulted ∧
        (s1.thread u).saved = ((s.thread u).windows.filter fun w => !w.faulted) ∧ (s1.thread u).depth = (s.thread u).depth + 1 ∧
        (s1.thread u).pc = (s.launchOf u).codeBase + BitVec.ofNat 64 (s.launchOf u).hoff) ∧
      (∃ t, exec (.trapactEndThreads n idx) s = .next t ∧ t = (acted 2).endThreads r.threads ∧
        ∀ u ∈ r.threads, (t.thread u).status ≠ .trapped) ∧
      (∃ t, exec (.trapactEndLaunch n idx) s = .next t ∧ t = (acted 3).endLaunch r.lid r.cause ∧
        (AMap.find? r.lid s.launches ≠ none → (t.launch r.lid).ending = true)))

/-- R98, R383, R384, R352-R354, R337, R338, R163, R294, R2: the steps of the memories. A changed mode or set of slices
of an L2 is applied with BUSY set, and the flush empties the L2 and clears BUSY. CHREMAP is set, and its
BUSY cleared when the copying is done. A bias flip sets BUSY and ends with the page in its new bias, or
with status 2. The host reads and writes device memory. One struck bit is corrected, two make the granule unreadable. A
seal walker drops a child of a freed line. A Scribe stall ends with its page, and its loads return in
order. A device register takes its value unless an RSV bit is set, and a read-only one keeps its own. How memory is
kept under a redirected channel, the times of a flush and a flip, and when corrected errors are reported, are the
model's (log entries 62, 78 and 79).

Each of these steps completes, under the conditions here on the state and its operands alone (exec answers a next
state, that of its own effect): l2cfgWrite, l2liveWrite, l2FlushDone, chremapWrite, chremapCopyDone, biasToHost,
biasToDevice, biasToHostDone, biasToDeviceDone, hostMemAccess, softError, sealWalkerDrop, scribePageResume,
scribeLoadReturn, registerWrite. -/
def Obligations.MemorySteps : Prop :=
  ∀ (s : State),
    (∀ n (v : DWord), let st := s.site n
      let f := setBits v.toNat 31 31 0
      l2cfgOk v.toNat = true →
      ({ st with l2cfg := BitVec.ofNat 64 f } : Site).partitionsLive = true →
      f ≠ setBits st.l2cfg.toNat 31 31 0 → ∃ t, exec (.l2cfgWrite n v) s = .next t ∧ t.mem = s.mem ∧
        (t.site n).l2cfg = BitVec.ofNat 64 (setBits f 31 31 1) ∧
        ({ at_ := s.tick + 80000, ev := .l2FlushDone n } : Due) ∈ t.agenda) ∧
    (∀ n (v : DWord), let st := s.site n
      let live := v.toNat % 64
      let old := st.l2live.toNat % 64
      bitsOf v.toNat 63 32 = 0 → bitsOf v.toNat 30 6 = 0 → live ≠ old →
      bitsOf (live ||| old) 5 0 = old → ({ st with l2live := BitVec.ofNat 32 live } : Site).partitionsLive = true →
      ∃ t, exec (.l2liveWrite n v) s = .next t ∧ t.mem = s.mem ∧
        (t.site n).l2live = BitVec.ofNat 32 (2 ^ 31 + live) ∧ t.dmapgen = s.dmapgen + 2 ∧
        t.flash.journal = s.flash.journal ++ [{ change := .slices n (BitVec.ofNat 32 live), authentic := true }] ∧
        ({ at_ := s.tick + 80000, ev := .l2FlushDone n } : Due) ∈ t.agenda) ∧
    (∀ n, (∀ d ∈ s.agenda, d.ev ≠ .l2FlushDone n) → s.heldSignals = [] → ∃ t, exec (.l2FlushDone n) s = .next t ∧ t.mem = s.mem ∧ (t.site n).l2 = [] ∧
      (t.site n).l2cfg.getLsbD 31 = false ∧ (t.site n).l2live.getLsbD 31 = false) ∧
    (∀ n (v : DWord), let f := setBits v.toNat 62 62 0
      (s.site n).chremap.getLsbD 63 = false → bitsOf f 61 54 = 0 → bitsOf f 47 19 = 0 → chanOf f < 48 →
      (bitOf f 63 = false → ∃ t, exec (.chremapWrite n v) s = .next t ∧
        (t.site n).chremap = BitVec.ofNat 64 f ∧ t = { s with sites := t.sites }) ∧
      (bitOf f 63 = true → regionOf f + regionBytes ≤ dramBytes → ∃ t,
        exec (.chremapWrite n v) s = .next t ∧ (t.site n).chremap = BitVec.ofNat 64 (setBits f 62 62 1) ∧
        t.flash.journal = s.flash.journal ++ [{ change := .channel n (BitVec.ofNat 64 f), authentic := true }] ∧
        (∃ d ∈ t.agenda, d.ev = .chremapCopyDone n) ∧ t.mem = s.mem)) ∧
    (∀ n, bitOf (s.site n).chremap.toNat 62 = true → ∃ t, exec (.chremapCopyDone n) s = .next t ∧
      (t.site n).chremap = BitVec.ofNat 64 (setBits (s.site n).chremap.toNat 62 62 0) ∧
      (s.badGranules n (s.site n).chremap.toNat = [] → t.mem = copyRegion s.mem n (s.site n).chremap.toNat)) ∧
    (∀ n (v : DWord) host, let f := setBits (setBits (setBits v.toNat 63 63 0) 61 58 0) 62 62 (bit01 host)
      (s.site n).biascmd.getLsbD 63 = false → bitsOf v.toNat 57 42 = 0 → bitsOf v.toNat 15 0 = 0 →
      biasPage f * 65536 < dramBytes → s.hostBias n (biasPage f) = !host → ∃ t,
        exec (if host then .biasToHost n v else .biasToDevice n v) s = .next t ∧
        (t.site n).biascmd = BitVec.ofNat 64 (setBits f 63 63 1) ∧ t.mem = s.mem ∧
        ∃ d ∈ t.agenda, d.ev = .biasToHostDone n ∨ ∃ ok, d.ev = .biasToDeviceDone n ok) ∧
    (∀ n, (s.site n).biascmd.getLsbD 63 = true → s.heldSignals = [] → s.memoriesWf →
      let v := (s.site n).biascmd.toNat
      (∃ t, exec (.biasToHostDone n) s = .next t ∧ t.hostBias n (biasPage v) = true ∧
        (t.site n).biascmd = biasDone v 0) ∧
      (∃ t, exec (.biasToDeviceDone n true) s = .next t ∧ t.hostBias n (biasPage v) = false ∧
        (t.site n).biascmd = biasDone v 0) ∧
      (∃ t, exec (.biasToDeviceDone n false) s = .next t ∧ t.mem = s.mem ∧
        (t.site n).biascmd = biasDone v 2)) ∧
    (∀ off n, off + n ≤ 60 * dramBytes → n ≤ hdmRoom off → s.hostHeld off n = false →
      ∃ t bs, exec (.hostMemAccess off (.read n)) s = .next t ∧ bs.length = n ∧
        t = { s with hostOut := s.hostOut ++ [bs], unseen := t.unseen, free := t.free } ∧
        (s.plain .host .host 0 (.glob (hdmAddr off)) n = true →
          t = { s with hostOut := s.hostOut ++ [bytesOfNat n (s.readLoc 0 (.glob (hdmAddr off)) n)] })) ∧
    (∀ off n, exec (.hostMemAccess off (.bar0 n)) s =
      .next { s with hostOut := s.hostOut ++ [(List.range n).map fun i => s.bar0Byte (off + i)] }) ∧
    (∀ off bs, off + bs.length ≤ 60 * dramBytes → s.hostHeld off bs.length = false →
      bs.length ≤ hdmRoom off → isRegisterPa (hdmAddr off) = false → s.memoriesWf → ∃ t,
        exec (.hostMemAccess off (.write bs)) s = .next t ∧
        (s.plain .host .host 0 (.glob (hdmAddr off)) bs.length = true →
          ∀ i, i < bs.length → t.mem.get (hdmAddr off + i) = bs.getD i 0) ∧
        ∀ a, a < hdmAddr off ∨ hdmAddr off + bs.length ≤ a → t.mem.get a = s.mem.get a) ∧
    (∀ x, ∃ t, exec (.softError { target := x, bits := 1 }) s = .next t ∧
      t = { s with sites := t.sites, agenda := t.agenda } ∧
      ∀ n, t.site n = { s.site n with runs := (t.site n).runs }) ∧
    (∀ x r n q, s.strikes x = true → s.strikeReport x false = (n, r) → n < 60 → (s.site n).runs = [q] →
      sameUnit q.first r = true →
      (∃ t, exec (.softError { target := x, bits := 1 }) s = .next t ∧
        (t.site n).runs = [{ q with count := q.count + 1 }]) ∧
      (q.opened + oneMilli ≤ s.tick → ∃ t, exec (.softError { target := x, bits := 0 }) s = .next t ∧
        (t.site n).runs = [] ∧ (t.site n).errorLog = (s.site n).errorLog ++ [q.first.bytes q.time q.count])) ∧
    (∀ pa, isDramPa pa = true → s.memoriesWf → let k := s.keptAt pa / 32
      ∃ t, exec (.softError { target := .dram pa, bits := 2 }) s = .next t ∧
      k ∈ t.badDram ∧ ∀ a, a < k * 32 ∨ k * 32 + 32 ≤ a → t.mem.get a = s.mem.get a) ∧
    (∀ n c cs w, (s.site n).walker = (c :: cs) :: w → ∃ v : State,
      (v.site n).walker = (if cs.isEmpty then w else cs :: w) ∧ v = { s with sites := v.sites } ∧
      (exec (.sealWalkerDrop n) s = .next (v.sealDrop c) ∨
        exec (.sealWalkerDrop n) s = .next ((v.sealDrop c).due (.sealWalkerDrop n) 5))) ∧
    (∀ k va r, (s.scribeCore k).stall = some va →
      s.translateWalk (s.scribeSpace k) va .read = .ok r → ∃ t,
        exec (.scribePageResume k) s = .next t ∧ (t.scribeCore k).stall = none ∧
        t = { s with scribes := t.scribes }) ∧
    (∀ k, ∃ t, exec (.scribeLoadReturn k) s = .next t ∧
      (t.scribeCore k) = { s.scribeCore k with loads := (s.scribeCore k).loads.drop 1 } ∧
      t = { s with scribes := t.scribes }) ∧
    (∀ (v : DWord), 
      (∀ q, v &&& ~~~0x000FFFFFFFFFFF00#64 = 0 → ∃ t, exec (.registerWrite (.lqbase q) v) s = .next t ∧
        (t.queue q).base = v ∧ t = { s with queues := t.queues, agenda := t.agenda }) ∧
      (∀ q, v &&& ~~~0x000FFFFFFFFFFF00#64 ≠ 0 → ∃ t, exec (.registerWrite (.lqbase q) v) s = .next t ∧
        t = { s with agenda := t.agenda }) ∧
      (∀ n, v &&& ~~~0x80000000FFFFFFFF#64 = 0 → ∃ t, exec (.registerWrite (.sealpcfg n) v) s = .next t ∧
        (t.site n).sealpcfg = v ∧ t = { s with sites := t.sites, agenda := t.agenda }) ∧
      ∀ r, (r = .netroot ∨ (∃ q, r = .lqhead q) ∨ ∃ l, r = .luppol l ∧ (s.lupSlot l).en = true) →
        ∃ t, exec (.registerWrite r v) s = .next t ∧ t = { s with agenda := t.agenda })

/-- R360-R362, R364-R369, R371: the steps of security and debugging. The boot stops at the first envelope that is not
accepted and reports its KIND, or goes on to the power-up, and behind it to its end. A quote uses one LMS
leaf. A verified grant takes production to tenant-debug with the grant's tenant; revoking it, or lowering
the debug state, resumes the halted cores. A halt-capable module halts and resumes an in-scope core, and
the port writes the state of its threads.

R377, R379, R385, R374, R12: the steps of retirement. A failing slot is retired and the flash journal
names it; a failed block router leaves the block no published pair; a block with a vacant name and no
team gets its names again; a reticle goes out of service; a Scribe core is dead. Each change of the live
map raises DMAPGEN. The causes in reports, how boot reads a journal, and that such a step is given as an event, are the
model's (log entries 62, 84 and 99).

Each of these steps completes, under the conditions here on the state and its operands alone (exec answers a next
state, that of its own effect): boot, attestationQuote, tenantDebugGrant, tenantDebugRevoke, dstateRaise,
dstateLower, debugHaltRequest, debugResume, debugStateWrite, slotRetire, blockRouterFail, blockRecompact,
reticleOut, scribeCoreDead. -/
def Obligations.SecurityAndRetirement : Prop :=
  (∀ (s : State),
      (∀ k, s.bootStage = .cold → s.bootReject = some k → ∃ t, exec .boot s = .next t ∧
        t.bootStage = .stopped k ∧ t.hostOut = s.hostOut ++ [[BitVec.ofNat 8 k]] ∧ t.launches = s.launches) ∧
      (s.bootStage = .cold → s.bootReject = none → ∃ t, exec .boot s = .next t ∧ t.bootStage = .powering ∧
        t.flash.bootCount = s.flash.bootCount + 1 ∧ t.mem = s.mem) ∧
      (s.bootStage = .powering → ∃ t, exec .boot s = .next t ∧ t.hostLink = true ∧
        (t.bootStage = .up ∨ t.bootStage = .noLaunch)) ∧
      (∀ nonce, s.nibUp = true → s.flash.lmsLeaf < 2 ^ 20 → exec (.attestationQuote nonce) s =
        .next { s with
          hostOut := s.hostOut ++ [s.quote nonce]
          flash := { s.flash with lmsLeaf := s.flash.lmsLeaf + 1 } }) ∧
      (∀ env, s.nibUp = true → s.level = 0 → envAccepted s.flash s.flash.config 0x20 env = true →
        envWord env 0x40 = s.flash.bind → ∃ t,
        exec (.tenantDebugGrant env) s = .next t ∧ t.level = 1 ∧ t.dbgTenant = envTenant env ∧
        t.dstate = s.dstate ∧ t = { s with dbgstate := t.dbgstate }) ∧
      (s.level = 1 → ∃ t, exec .tenantDebugRevoke s = .next t ∧ t.dbgstate = 0 ∧ t.mem = s.mem ∧
        ∀ c, (s.core c).hreq = true → (t.core c).hreq = false ∧ (t.core c).halted = false) ∧
      (∀ d, s.dstate < d → debugPermitted s.level d = true → ∃ t, exec (.dstateRaise d) s = .next t ∧
        t.dstate = d ∧ t.level = s.level ∧ t.dbgTenant = s.dbgTenant ∧
        t = { s with dbgstate := t.dbgstate }) ∧
      (∀ d, d < s.dstate → ∃ t, exec (.dstateLower d) s = .next t ∧ t.dstate = d ∧ t.level = s.level ∧
        t.mem = s.mem ∧ (s.haltCapable = true → ∀ c, (s.core c).hreq = true → (t.core c).halted = false)) ∧
      (∀ p c, s.coreOfPhys p = some c → s.haltCapable = true → (∀ d ∈ s.haltSet c, s.inScope d = true) →
        (s.site (siteOf c)).off = false → (∀ d ∈ s.haltSet c, (s.powerOf d).on = true) → ∃ t,
          exec (.debugHaltRequest p) s = .next t ∧ t = { s with cores := t.cores } ∧
          ∀ d ∈ s.haltSet c, (t.core d).halted = true ∧ (t.core d).hcause = 0) ∧
      (∀ p c, s.coreOfPhys p = some c → s.haltCapable = true → s.inScope c = true → (s.core c).hreq = true →
        ∃ t, exec (.debugResume p) s = .next t ∧ t.mem = s.mem ∧
          (t.core c).halted = false ∧ (t.core c).hreq = false) ∧
      (∀ u r v, s.mayWrite u = true → ∃ t, exec (.debugStateWrite (.reg u r v)) s = .next t ∧
        t.thread u = (s.thread u).setX r v ∧ t = { s with threads := t.threads })) ∧
  (∀ (s : State) (site block : Nat),
      (∀ slot, ((s.site site).block block).slots.getD slot 1 = 0 → ∃ t,
        exec (.slotRetire site block slot) s = .next t ∧
        ((t.site site).block block).slots.getD slot 0 = 2 ∧
        t.flash.journal = s.flash.journal ++ [{ change := .slot site block slot, authentic := true }]) ∧
      (block < 12 → ((s.site site).block block).rtdead = false → ∃ t, exec (.blockRouterFail site block) s = .next t ∧
        ((t.site site).block block).rtdead = true ∧ ((t.site site).block block).npairs = 0 ∧
        ((t.site site).block block).names = noNames) ∧
      (12 ≤ block → block < 18 → bitOf (s.site site).rdead (3 * (block - 12)) = false → ∃ t,
        exec (.blockRouterFail site block) s = .next t ∧ (t.site site).out = true ∧
        bitOf (t.site site).rdead (3 * (block - 12)) = true ∧ (t.site site).l2live.getLsbD (block - 12) = false) ∧
      (∀ b, b = (s.site site).block block → b.rtdead = false → vacantName ∈ b.names → (∀ c ∈ coresOfBlock site block, s.teamsOn c = []) → ∃ t,
          exec (.blockRecompact site block) s = .next t ∧ (t.site site).block block = b.derive ∧
          t.dmapgen = s.dmapgen + 2 ∧ t.mem = s.mem) ∧
      ((s.site site).out = false → ∃ t, exec (.reticleOut site) s = .next t ∧ (t.site site).out = true) ∧
      (∀ k, k < 64 → (s.site site).scdead.getLsbD k = false → ∃ t,
        exec (.scribeCoreDead site k) s = .next t ∧ (t.site site).scdead.getLsbD k = true))

/-- R386-R388, R391, R393, R397-R400, R403-R407: the steps of wafer time, of the topology and of the fibre links.
LINKDLY holds a measured delay; a reticle gets a parent over a surviving link; WTSTATUS follows the
reference. A link whose retry fails keeps what is on it and is marked dead 1 µs later, and after 1 ms refuses; NETVER takes a prepared version, a commit
request is served in order, and a broadcast of a newer version swaps the banks. Every reticle keeps an
occupancy report. A wavelength moves when its commit is in force, and leaves its bundle beyond the deskew
buffer or without its carrier; a move is asked of the peers of its links and made when they agree; a lost port gets a
neighbour that serves it. How retry holds packets, how peers are asked, the order of the requests, how wafer time slews, and
what a control packet says are the model's (log entries 40, 62, 63, 64, 69 and 110).

Each of these steps completes, under the conditions here on the state and its operands alone (exec answers a next
state, that of its own effect): linkDelayMeasure, timeTreeReparent, ptpSync, ptpHoldover, linkDead,
linkDeadTimeout, netverWrite, netcommitWrite, commitRequestServe, commitBroadcast, occupancyReport, steerInterval,
steeringRequest, laneMove, laneSkewMeasure, carrierLoss, portLoss. -/
def Obligations.FabricSteps : Prop :=
  ∀ (s : State) (n : Nat),
    (∀ e ps, s.linkAlive n e = true → (s.site n).off = false → ∃ t,
      exec (.linkDelayMeasure n e ps) s = .next t ∧
      AMap.find? e (t.site n).linkdly = some (BitVec.ofNat 64 (2 ^ 63 + ps.toNat)) ∧ t.mem = s.mem) ∧
    (∀ p, n ≠ 26 → p ∈ s.aliveNeighbours n → ∃ t, exec (.timeTreeReparent n p) s = .next t ∧
      (t.site n).timeParent = some p ∧ t = { s with sites := t.sites }) ∧
    (∀ o : Word, exec (.ptpSync o) s = .next { s with
      slew := -8 * o.toInt
      wtstatus := BitVec.ofNat 64 ((if o.toInt.natAbs ≤ 25 then 1 else 0) * 2 ^ 62 + o.toNat) }) ∧
    (bitsOf s.wtstatus.toNat 63 62 = 1 → exec .ptpHoldover s =
      .next { s with wtstatus := BitVec.ofNat 64 (2 * 2 ^ 62 + s.wtstatus.toNat % 2 ^ 32) }) ∧
    (∀ e y, neighbour n e = some y → bitOf (s.site n).edead e = false →
      (AMap.find? e (s.site n).retry = none → ∃ t, exec (.linkDead n e) s = .next t ∧ t.mem = s.mem ∧
        AMap.find? e (t.site n).retry = some (s.onEdge n e) ∧ bitOf (t.site n).edead e = false ∧
        ({ at_ := s.tick + 8000, ev := .linkDead n e } : Due) ∈ t.agenda) ∧
      ∀ ids, AMap.find? e (s.site n).retry = some ids → ∃ t,
        exec (.linkDead n e) s = .next t ∧ bitOf (t.site n).edead e = true ∧ e ∈ (t.site n).deadWait ∧
        AMap.find? e (t.site n).retry = none ∧ t.dmapgen = s.dmapgen + 2 ∧
        ((∀ p ∈ ids, ∀ q, AMap.find? p s.packets = some q → s.stalePacket q = false) →
          (t.site n).queued = ids ++ (s.site n).queued) ∧
        t.flash.journal = s.flash.journal ++ [{ change := .edge n e, authentic := true }] ∧
        ({ at_ := s.tick + 8000000, ev := .linkDeadTimeout n e } : Due) ∈ t.agenda) ∧
    (∀ e, e ∈ (s.site n).deadWait → ∃ t, exec (.linkDeadTimeout n e) s = .next t ∧
      e ∈ (t.site n).deadRefuse ∧ e ∉ (t.site n).deadWait) ∧
    (∀ v : DWord, bitsOf v.toNat 63 34 = 0 → bitOf v.toNat 32 = true → bitOf v.toNat 33 = false →
      bitsOf v.toNat 31 16 = nextVersion (s.site n).active → ∃ t, exec (.netverWrite n v) s = .next t ∧
      (t.site n).prep = true ∧ (t.site n).shadow = nextVersion (s.site n).active ∧
      (t.site n).active = (s.site n).active ∧ t = { s with sites := t.sites }) ∧
    (∀ v : DWord, bitsOf v.toNat 63 34 = 0 → bitOf v.toNat 32 = true →
      bitsOf v.toNat 31 16 ≠ nextVersion (s.site n).active → ∃ t, exec (.netverWrite n v) s = .next t ∧
      (t.site n).netver.getLsbD 33 = true ∧ (t.site n).prep = (s.site n).prep ∧
      (t.site n).active = (s.site n).active) ∧
    (∀ v : Word, v.getLsbD 31 = true → bitsOf v.toNat 30 16 = 0 → ∃ t at_,
      exec (.netcommitWrite n v) s = .next t ∧
      t.commits = s.commits ++ [{ site := n, ver := some (v.toNat % 2 ^ 16), arrives := at_ }] ∧
      ({ at_, ev := .commitRequestServe } : Due) ∈ t.agenda) ∧
    (∀ r, earliestRequest s.tick s.commits = some r →
      let v : State := { s with commits := dropOne r s.commits }
      (r.ver = some (nextVersion (s.site s.netroot).active) → exec .commitRequestServe s =
        .next (v.broadcast { ver := nextVersion (s.site s.netroot).active, swap := true })) ∧
      (∀ w, r.ver = some w → w ≠ nextVersion (s.site s.netroot).active → ∃ t,
        exec .commitRequestServe s = .next t ∧ (t.site r.site).netver.getLsbD 33 = true ∧
        t.commits = dropOne r s.commits)) ∧
    (∀ b bs, (s.site n).broadcasts = b :: bs → b.ver ≠ 0 → older (s.site n).active b.ver = true →
      b.ver < 2 ^ 16 →
      (s.site n).prep = true → b.swap = true → (s.site n).shadow = b.ver → ∃ t,
        exec (.commitBroadcast n) s = .next t ∧ (t.site n).active = b.ver ∧ (t.site n).prep = false ∧
        (t.site n).activeBank = (s.site n).shadowBank ∧ (t.site n).shadowBank = (s.site n).activeBank ∧
        (t.site n).broadcasts = bs) ∧
    (∀ occ, ((s.site n).off = false → ∃ t, exec (.occupancyReport n occ) s = .next t ∧ t.mem = s.mem ∧
        ∀ k, k < 60 → AMap.find? n (t.site k).occupancy = some occ) ∧
      ((s.site n).off = true → exec (.occupancyReport n occ) s = .next s)) ∧
    (∀ w l h demand agree, (s.site n).steers = true → (s.site n).steerMove = some (w, l, h) → (s.site n).prep = false →
      (s.site n).agrees w l h = true → ∃ t at_, exec (.steerInterval n demand agree) s = .next t ∧ t.mem = s.mem ∧
        (t.site n).asks = [{ wave := w, src := l, dst := h, waits := peersOf n l h, until_ := s.tick + 80000 }] ∧
        (t.site n).demand = [] ∧ ({ at_, ev := .steerInterval n [] false } : Due) ∈ t.agenda) ∧
    (∀ w peer a, (s.site n).asks = [a] → a.wave = w → a.waits = [peer] → s.tick ≤ a.until_ →
      ((s.answered n w peer true).site n).moves =
        (s.site n).moves ++ [{ wave := w, src := a.src, dst := a.dst, ver := none }] ∧
      ((s.answered n w peer false).site n).moves = (s.site n).moves) ∧
    (∀ w a b, w < 24 → a ≤ 4 → b ≤ 4 → (s.site n).agrees w a b = true → ∃ t,
      exec (.steeringRequest n w a b) s = .next t ∧
      (t.site n).moves = (s.site n).moves ++ [{ wave := w, src := a, dst := b, ver := none }]) ∧
    (∃ t, exec (.laneMove n) s = .next t ∧ t.mem = s.mem ∧ (t.site n).moves =
      (s.site n).moves.filter fun m => match m.ver with
        | some v => older (s.site n).active v
        | none => true) ∧
    (∀ w, w < 64 → ∃ t, exec (.laneSkewMeasure n w true) s = .next t ∧ (t.site n).skewed w = false ∧
      t = { s with sites := t.sites, agenda := t.agenda, free := t.free } ∧
      ((s.site n).linkOf w ≠ none → ∃ ok,
        ({ at_ := s.tick + 8000000000, ev := .laneSkewMeasure n w ok } : Due) ∈ t.agenda)) ∧
    (∀ w k, w < 24 → (s.site n).linkOf w = some k → ∃ t, exec (.laneSkewMeasure n w false) s = .next t ∧
      (t.site n).skewed w = true ∧ bitOf ((t.site n).link k) w = false) ∧
    (∀ w k, w < 24 → (s.site n).carrierOf w = some k → ∃ t, exec (.carrierLoss n w) s = .next t ∧
      bitOf (t.site n).wdead w = true ∧ bitOf ((t.site n).link k) w = false ∧
      bitOf ((t.site n).link k) (24 + w) = false) ∧
    (∀ v, (∃ e, e < 4 ∧ neighbour n e = some v) → v ≠ n → (s.site v).portLive = true →
      (s.site v).off = false → (s.site n).prep = false → ∃ t, exec (.portLoss n v) s = .next t ∧
        (t.site n).servedBy = some v ∧ (t.site n).optlinks = [])

/-- R409, R417-R420, R422-R429: the steps of the Blotter and of the Lineup. A stream that is opened starts its
ring anew; its reader's HEAD moves, and the record of the losses takes the room there is; a stall of the limit's length falls back. A slot is configured; a
review plans, copies, prepares, commits when every live reticle has acknowledged, and ends; the standby takes over after
three heartbeats. When a copy is made, a table prepared and a controller lost are the model's (log entries 79 and
81).

R430, R433, R434, R436: the steps of power. A block without a squad for 10 µs is idle, and 1 ms later gated where nothing
keeps its power; a block powers on when the currents allow, in eight gate steps, and is idle; a reticle
is turned off and on; the module's clocks go down at its rating and up below 95 per cent of it; a
reticle's clock goes down above 95 °C, and at 110 °C its launches end and it is taken out of service, at once. Which
current lets a block power on, what an off reticle loses, and how a sensor is read are the model's (log entries 70, 72 and
73).

Each of these steps completes, under the conditions here on the state and its operands alone (exec answers a next
state, that of its own effect): bltcfgWrite, bltheadWrite, blotterStallTimeout, lupcfgWrite, lineupReview,
lineupCopiesDone, lineupPrepare, lineupPrepareTimeout, lineupCommitAcked, lineupCommit, lineupHeartbeat,
lineupTakeover, blockIdle, blockGate, blockPowerOnCheck, powerGateStep, reticleOff, reticleOn, powerLimitThrottle,
thermalLimit. -/
def Obligations.TraceLineupAndPower : Prop :=
  (∀ (s : State),
      (∀ n k (v : DWord), k < 8 → s.bltcfgBad n k v.toNat = false → v.getLsbD 63 = true →
        ((s.site n).stream k).isOpen = false → v.getLsbD 62 = false → ((s.site n).stream k).stalls = [] → ∃ t,
          exec (.bltcfgWrite n k v) s = .next t ∧ ((t.site n).stream k).cfg = v ∧
          ((t.site n).stream k).tail = 0 ∧ ((t.site n).stream k).head = 0 ∧ t.mem = s.mem) ∧
      (∀ n k (v : DWord), k < 8 → ((s.site n).stream k).head.toNat ≤ v.toNat →
        v.toNat ≤ ((s.site n).stream k).tail.toNat → ((s.site n).stream k).stalls = [] → ∃ t,
          exec (.bltheadWrite n k v) s = .next t ∧ ((t.site n).stream k).head = v ∧
          (((s.site n).stream k).lost = 0 → ((s.site n).stream k).fallback = false →
            ((s.site n).stream k).owed = [] → t.mem = s.mem) ∧
          (((s.site n).stream k).lost ≠ 0 → ((s.site n).stream k).fallback = false → ((s.site n).stream k).owed = [] →
            ((s.site n).stream k).tail.toNat - v.toNat < ((s.site n).stream k).size →
            ((t.site n).stream k).lost = 0 ∧
            ((t.site n).stream k).tail = ((s.site n).stream k).tail + 1)) ∧
      (∀ n k, s.stallOver ((s.site n).stream k) = true → ∃ t, exec (.blotterStallTimeout n k) s = .next t ∧
        ((t.site n).stream k).fell = true) ∧
      (∀ l (v : DWord), l < 4 → bitsOf v.toNat 61 56 = 0 → bitsOf v.toNat 35 32 = 0 →
        (s.lupSlot l).en = false → (bitOf v.toNat 63 = true → s.lidBound l (v.toNat % 2 ^ 32) = false) → ∃ t,
          exec (.lupcfgWrite l v) s = .next t ∧ (t.lupSlot l).cfg = v ∧ (t.lupSlot l).missed = 0 ∧
          t.mem = s.mem) ∧
      (∀ l s1, s.maintained = false → (s.lupSlot l).en = true → (s.lupSlot l).auto = true → (s.lupSlot l).review = none →
        (s.site (s.lupSlot l).csite).off = false →
        (s.due (.lineupReview l) (s.lupSlot l).reviewTicks).gateCas l 0 0xFFFFFFFF = (true, s1) →
        let v := s1.fence lupFence .module
        ((v.clearCounters l).planReview l (v.sumCounters l)).n ≠ 0 → ∃ t r,
          exec (.lineupReview l) s = .next t ∧ (t.lupSlot l).review = some r ∧ r.stage = .copying ∧
          r.site = (s.lupSlot l).csite ∧ r.version = nextLup ((s.site (s.lupSlot l).csite).lupSite l).version) ∧
      (∀ l r, s.maintained = false → (s.lupSlot l).review = some r → s.lupRuns l = true →
        (∀ s1, r.stage = .copying → s.lupCopies r.lid r.copies = (s1, []) →
          exec (.lineupCopiesDone l []) s = .next (s1.due (.lineupPrepare l) 0)) ∧
        (r.stage = .copying → ∃ t v, exec (.lineupPrepare l) s = .next t ∧ (t.lupSlot l).review = some v ∧
          v.stage = .prepared ∧ v.version = r.version ∧ v.acks = s.liveSites ∧
          ({ at_ := s.tick + 80000, ev := .lineupPrepareTimeout l } : Due) ∈ t.agenda) ∧
        (r.stage = .prepared → s.unacked r = [] → ∃ t v, exec (.lineupPrepare l) s = .next t ∧ t.mem = s.mem ∧
          (t.lupSlot l).review = some v ∧ v.stage = .committing ∧ v.version = r.version ∧ v.acks = s.liveSites ∧
          ∀ n ∈ s.liveSites, ∃ at_, ({ at_, ev := .lineupCommit l n } : Due) ∈ t.agenda) ∧
        (r.stage = .prepared → exec (.lineupPrepareTimeout l) s = .next (s.failReview l [])) ∧
        (r.stage = .committing → r.acks = [] → ∃ t,
          exec (.lineupCommitAcked l) s = .next t ∧ (t.lupSlot l).review = none)) ∧
      (∀ l n r, s.maintained = false → (s.lupSlot l).review = some r → r.stage = .committing → n ∈ r.acks → ∃ t v,
        exec (.lineupCommit l n) s = .next t ∧ (t.lupSlot l).review = some v ∧ v.stage = .committing ∧
        v.acks = r.acks.filter (· != n) ∧
        ((s.site n).off = false → ((s.site n).lupSite l).prepared = r.version →
          ((t.site n).lupSite l).version = r.version % 2 ^ 32 ∧
          ((t.site n).lupSite l).sel = 1 - ((s.site n).lupSite l).sel)) ∧
      (∀ l arrives, (s.lupSlot l).en = true → (s.lupSlot l).csite ≠ (s.lupSlot l).ssite → ∃ t,
        exec (.lineupHeartbeat l arrives) s = .next t ∧ t.mem = s.mem ∧ (t.lupSlot l).missed =
          (if arrives && !(s.site (s.lupSlot l).csite).off then 0 else (s.lupSlot l).missed + 1)) ∧
      (∀ l, s.maintained = false → (s.lupSlot l).en = true → (s.lupSlot l).csite ≠ (s.lupSlot l).ssite →
        (s.site (s.lupSlot l).ssite).off = false → (s.lupSlot l).review.any (·.site == (s.lupSlot l).ssite) = false →
        ∃ t, exec (.lineupTakeover l) s = .next t ∧
          ((s.newestLup l).2 = false → (t.lupSlot l).csite = (s.lupSlot l).ssite ∧ (t.lupSlot l).review = none) ∧
          ((s.newestLup l).2 = true → ∃ r, (t.lupSlot l).review = some r ∧ r.site = (s.lupSlot l).ssite ∧
            r.stage = .committing ∧ r.version = (s.newestLup l).1))) ∧
  (∀ (s : State) (n b : Nat),
      (((s.site n).block b).power = .active → s.blockBusy n b = false →
        ((s.site n).block b).since + 80000 ≤ s.tick → ∃ t, exec (.blockIdle n b) s = .next t ∧
        ((t.site n).block b).power = .idle s.tick ∧
        ({ at_ := s.tick + 8000000, ev := .blockGate n b } : Due) ∈ t.agenda ∧ t.mem = s.mem) ∧
      (∀ u, ((s.site n).block b).power = .idle u → u + 8000000 ≤ s.tick → s.keepsPower n b = false → ∃ t,
        exec (.blockGate n b) s = .next t ∧ ((t.site n).block b).power = .gated ∧
        ∀ c ∈ coresOfBlock n b, (t.core c).opBuf = []) ∧
      (∀ amps, (s.site n).powering = none → s.pendingBlock n = some b → mayPower s n b amps = true → ∃ t,
        exec (.blockPowerOnCheck n b amps) s = .next t ∧ (t.site n).powering = some b ∧
        ((t.site n).block b).power = .powering (some 0)) ∧
      (∀ k, ((s.site n).block b).power = .powering (some k) →
        (k < 7 → ∃ t, exec (.powerGateStep n b) s = .next t ∧
          ((t.site n).block b).power = .powering (some (k + 1)) ∧ t = { s with sites := t.sites, agenda := t.agenda }) ∧
        (7 ≤ k → ∃ t, exec (.powerGateStep n b) s = .next t ∧ ((t.site n).block b).power = .idle s.tick ∧
          (t.site n).powering = none ∧ t.mem = s.mem)) ∧
      (s.mayTurnOff n = true → ∃ t, exec (.reticleOff n) s = .next t ∧ (t.site n).off = true ∧
        ∀ c ∈ t.mem, siteOfPa c.1 ≠ n) ∧
      (n < 60 → (s.site n).off = true → ∃ t, exec (.reticleOn n) s = .next t ∧ (t.site n).off = false ∧
        (∀ q ∈ (t.site n).blocks, q.2.power = .gated) ∧ (t.site n).activeBank = bootBank n ∧ t.mem = s.mem) ∧
      (∀ w, ∃ t, exec (.powerLimitThrottle w) s = .next t ∧ t = { s with sites := t.sites } ∧
        ∀ k, k < 60 → (t.site k).mhz =
          if ratingOf s.flash.ordering ≤ w then max 1000 ((s.site k).mhz - 100)
          else if 100 * w ≤ 95 * ratingOf s.flash.ordering then min 1600 ((s.site k).mhz + 100)
          else (s.site k).mhz) ∧
      (∀ c, 95 < c → c < 110 → ∃ t, exec (.thermalLimit n c) s = .next t ∧
        (t.site n).mhz = max 1000 ((s.site n).mhz - 100) ∧ t = { s with sites := t.sites }) ∧
      (∀ c, 110 ≤ c → ∃ t, exec (.thermalLimit n c) s = .next t ∧ (t.site n).out = true ∧
        (t.site n).mhz = max 1000 ((s.site n).mhz - 100) ∧
        ∀ k ∈ s.launchesOn n, AMap.find? k s.launches ≠ none → (t.launch k).ending = true))
end

