-- ==== Sys2Proof/Laws/Ordering.lean ====
section
/-! SUPPORT. The consistency of the paths: what a reader is given, what a fence makes it see, and what a write leaves
in the memories. -/

namespace Sys2Proof.Machine

/-! ## What a reader is given -/

/-- A complete write on a path is seen by every reader on it (R107, R119). -/
theorem Unseen.settled_same_path {r : Unseen} (h : r.owed = .nothing) (a : Party) (b : Nat) :
    r.settled r.path a b = true := by
  simp [Unseen.settled, Unseen.ordered, h]

/-- With no record of a write, every reader is given the newest bytes. -/
theorem State.plain_of_nil {s : State} (h : s.unseen = []) (y : Path) (a : Party) (team : Nat) (l : Loc) (n : Nat) :
    s.plain y a team l n = true := by
  simp [State.plain, h]

/-- A reader that nothing stands before is given the newest bytes, and nothing changes. -/
theorem State.seen_of_plain {s : State} {y : Path} {a : Party} {team : Nat} {l : Loc} {n : Nat}
    (h : s.plain y a team l n = true) : s.seen y a team l n = (s.readLoc team l n, s) := by
  simp [State.seen, h]

theorem State.seenHalf_of_plain {s : State} {y : Path} {a : Party} {team half : Nat}
    (h : s.plain y a team (.scr half 0) (s.team team).scratchBytes = true) :
    s.seenHalf y a team half = ((s.team team).scratch half, s) := by
  simp [State.seenHalf, h]

/-- A read changes nothing but the records and the free values drawn. -/
theorem State.seen_rest (s : State) (y : Path) (a : Party) (team : Nat) (l : Loc) (n : Nat) :
    ∃ u f, (s.seen y a team l n).2 = { s with unseen := u, free := f } := by
  by_cases h : s.plain y a team l n = true
  · exact ⟨s.unseen, s.free, by rw [seen_of_plain h]⟩
  · exact ⟨_, _, by rw [State.seen, if_neg h]⟩

theorem State.seenHalf_rest (s : State) (y : Path) (a : Party) (team half : Nat) :
    ∃ u f, (s.seenHalf y a team half).2 = { s with unseen := u, free := f } := by
  by_cases h : s.plain y a team (.scr half 0) (s.team team).scratchBytes = true
  · exact ⟨s.unseen, s.free, by rw [seenHalf_of_plain h]⟩
  · exact ⟨_, _, by simp only [State.seenHalf]; rw [if_neg h]⟩

/-! ## Fences and completions -/

/-- After a fence, an agent that its scope covers sees on its paths Y every complete write on its paths X by an agent
that its scope covers (R117). -/
theorem State.fence_settled {s : State} {f : Fence} {maker a : Party} {y : Path} {r : Unseen} (hr : r ∈ s.unseen)
    (hx : f.names f.x r.path = true) (ho : r.owed = .nothing) (hc : covers f.scope maker r.agent = true) (hy : f.y ≠ 0)
    (hn : f.names f.y y = true) (ha : covers f.scope maker a = true) :
    ∃ v ∈ (s.fence f maker).unseen, v.ordered y a = true ∧ v = { r with fences := (f, maker) :: r.fences } := by
  refine ⟨{ r with fences := (f, maker) :: r.fences }, ?_, ?_, rfl⟩
  · refine List.mem_map.2 ⟨r, hr, ?_⟩
    rw [if_pos (by simpa [hx, ho, hc] using hy)]
  · simp [Unseen.ordered, hn, ha]

/-- Of the state, the operations on the records change the records alone. -/
theorem State.fence_eq (s : State) (f : Fence) (a : Party) : s.fence f a = { s with unseen := (s.fence f a).unseen } := rfl

theorem State.completeWrites_eq (s : State) (o : Owed) :
    s.completeWrites o = { s with unseen := (s.completeWrites o).unseen } := rfl

theorem State.sees_eq (s : State) (a : Party) (team : Nat) (l : Loc) (n : Nat) :
    s.sees a team l n = { s with unseen := (s.sees a team l n).unseen } := rfl

theorem State.settle_eq (s : State) (team : Nat) (l : Loc) (n : Nat) :
    s.settle team l n = { s with unseen := (s.settle team l n).unseen } := rfl

theorem State.settleTeam_eq (s : State) (n : Nat) : s.settleTeam n = { s with unseen := (s.settleTeam n).unseen } := rfl

/-- Laying a write changes the records, the free values drawn and the count of writes alone. -/
theorem State.layWrite_rest (s : State) (w : Unseen) (v : Nat) :
    ∃ u f, (s.layWrite w v).2 = { s with writes := s.writes + 1, unseen := u, free := f } := by
  unfold State.layWrite
  dsimp only
  split
  · exact ⟨s.unseen, s.free, rfl⟩
  · split
    · exact ⟨_, s.free, rfl⟩
    · exact ⟨_, _, rfl⟩

/-- A write that comes after every write it meets is laid whole. -/
theorem State.layWrite_of_plain {s : State} {w : Unseen} (h : s.plain w.path w.agent w.team w.loc w.n = true) (v : Nat) :
    (s.layWrite w v).1 = v := by
  have hp : ({ s with writes := s.writes + 1 } : State).plain w.path w.agent w.team w.loc w.n = true := h
  unfold State.layWrite
  dsimp only
  split
  · rfl
  · simp [hp]

/-! ## Writes -/

/-- Telling the waiting threads of a write touches no memory. -/
theorem State.notifyOne_memories (s : State) (team : Nat) (l : Loc) (n : Nat) (t : Tid) (th : Thread) :
    (s.notifyOne team l n t th).mem = s.mem ∧ (s.notifyOne team l n t th).teams = s.teams := by
  unfold State.notifyOne
  split
  · split <;> exact ⟨rfl, rfl⟩
  · dsimp only
    split <;> exact ⟨rfl, rfl⟩
  · exact ⟨rfl, rfl⟩

theorem State.notify_memories (s : State) (team : Nat) (l : Loc) (n : Nat) :
    (s.notify team l n).mem = s.mem ∧ (s.notify team l n).teams = s.teams := by
  unfold State.notify
  suffices h : ∀ (ps : List (Tid × Thread)) (v : State),
      (ps.foldl (fun s p => s.notifyOne team l n p.1 p.2) v).mem = v.mem ∧
      (ps.foldl (fun s p => s.notifyOne team l n p.1 p.2) v).teams = v.teams from h s.threads s
  intro ps
  induction ps with
  | nil => exact fun _ => ⟨rfl, rfl⟩
  | cons p ps ih =>
    intro v
    exact ⟨(ih _).1.trans (v.notifyOne_memories team l n p.1 p.2).1,
      (ih _).2.trans (v.notifyOne_memories team l n p.1 p.2).2⟩

/-- What a write leaves at its place: its bytes, but for those that come before a write already made (R111). -/
def State.laid (s : State) (y : Path) (a : Party) (o : Owed) (u : Option Nat) (team : Nat) (l : Loc) (n v : Nat) : Nat :=
  (s.layWrite
    { path := y, agent := a, team, loc := l, n, old := s.readLoc team l n,
      event := (u.map fun k => (k, l.unit)).getD (s.writes, 0), atomic := u.isSome, owed := o,
      fences := s.writeFences y team l n, seenBy := [], shown := false } v).1

theorem State.laid_of_plain {s : State} {y : Path} {a : Party} {team n : Nat} {l : Loc}
    (h : s.plain y a team l n = true) (o : Owed) (u : Option Nat) (v : Nat) : s.laid y a o u team l n v = v :=
  layWrite_of_plain h v

/-- A write leaves in DRAM its bytes, as they are laid, and the teams as they were. -/
theorem State.writeAs_dram (s : State) (y : Path) (a : Party) (o : Owed) (u : Option Nat) (team n v : Nat) {pa : Nat}
    (h : isRegisterPa pa = false) :
    (s.writeAs y a o u team (.glob pa) n v).mem = s.mem.writeNat pa n (s.laid y a o u team (.glob pa) n v) ∧
      (s.writeAs y a o u team (.glob pa) n v).teams = s.teams := by
  unfold State.writeAs State.laid
  generalize Unseen.mk .. = w
  obtain ⟨us, f, hr⟩ := s.layWrite_rest w v
  refine ⟨(notify_memories ..).1.trans ?_, (notify_memories ..).2.trans ?_⟩ <;> rw [hr] <;>
    simp [State.putLoc, h]

/-- A write to a scratchpad changes the team's half alone. -/
theorem State.writeAs_scratch (s : State) (y : Path) (a : Party) (o : Owed) (u : Option Nat) (team half off n v : Nat) :
    (s.writeAs y a o u team (.scr half off) n v).mem = s.mem ∧
      (s.writeAs y a o u team (.scr half off) n v).teams =
        (s.putLoc team (.scr half off) n (s.laid y a o u team (.scr half off) n v)).teams := by
  unfold State.writeAs State.laid
  generalize Unseen.mk .. = w
  obtain ⟨us, f, hr⟩ := s.layWrite_rest w v
  refine ⟨(notify_memories ..).1.trans ?_, (notify_memories ..).2.trans ?_⟩ <;> rw [hr]
  · simp only [State.putLoc, State.modTeam]
    split <;> rfl
  · simp only [State.putLoc, State.modTeam, State.team]
    split <;> rfl

end Sys2Proof.Machine
end

