-- ==== Sys2Proof/Laws/PerInstr.lean ====
section
/-! SUPPORT. What the encoder gives of every instruction: bits that fill its length, which is 4, 12 or 20
bytes (R174, R186). One lemma per constructor. -/

open Sys2Proof

/-- The bits of the instruction, where it has any, fill no more than its length: 4, 12 or 20 bytes. -/
def Sys2Proof.Laws.Encodes.Statement (i : Instr) : Prop :=
  ∀ w len, encode i = some (w, len) → w < 2 ^ (8 * len) ∧ (len = 4 ∨ len = 12 ∨ len = 20)

namespace Sys2Proof.Laws.Encodes

theorem code_lt (op : Op) : op.code < 256 := by cases op <;> decide

theorem bit01_lt (b : Bool) : bit01 b < 2 := by cases b <;> decide

theorem low_word0 (x : Ext) : x.word0 + 1024 ≤ 2 ^ 32 := by
  have h1 := x.d.isLt
  have h2 := x.a.isLt
  have h3 := x.b.isLt
  have h4 := bit01_lt x.bk
  unfold Ext.word0
  omega

theorem layout_lt (l : Layout) (x : Ext) : l.bits x + 1024 ≤ 2 ^ 32 := by
  have h0 := low_word0 x
  have h1 := x.d.isLt
  have h2 := x.a.isLt
  have h3 := x.imm.isLt
  have h4 := bit01_lt x.gn
  have h5 := x.gp.isLt
  unfold Layout.bits
  split <;> omega

theorem word1_lt (x : Ext) : x.word1 < 2 ^ 32 := by
  have h1 := x.gp.isLt
  have h2 := bit01_lt x.gn
  have h3 := x.la.isLt
  have h4 := x.ty.isLt
  have h5 := x.c.isLt
  have h6 := x.e.isLt
  have h7 := x.rf.isLt
  unfold Ext.word1
  omega

theorem word2_lt (x : Ext) : x.word2 < 2 ^ 32 := by
  have h1 := x.sel.isLt
  have h2 := x.hint.isLt
  have h3 := x.sub.isLt
  have h4 := x.imm.isLt
  have h5 := x.pm1.isLt
  have h6 := x.pm2.isLt
  unfold Ext.word2
  omega

theorem of_base {i : Instr} {op : Op} {x : Ext} (h : i.simt = some (op, x, 4)) : Statement i := by
  intro w len hw
  simp only [encode, h, Option.some.injEq, Prod.mk.injEq] at hw
  obtain ⟨rfl, rfl⟩ := hw
  have h1 := code_lt op
  have h2 := layout_lt (op.uses .zero).layout x
  exact ⟨by simp only [encodeSimt, if_true]; omega, .inl rfl⟩

theorem of_ext {i : Instr} {op : Op} {x : Ext} (h : i.simt = some (op, x, x.len)) : Statement i := by
  intro w len hw
  simp only [encode, h, Option.some.injEq, Prod.mk.injEq] at hw
  obtain ⟨rfl, rfl⟩ := hw
  have h1 := code_lt op
  have h2 := layout_lt (op.uses .zero).layout x
  have h3 := low_word0 x
  have h4 := word1_lt x
  have h5 := word2_lt x
  cases hs : x.short <;> cases hl : x.lit with
  | none => simp [encodeSimt, Ext.len, hs, hl]; omega
  | some v =>
    have h6 := v.isLt
    simp [encodeSimt, Ext.len, hs, hl]; omega

theorem of_scribe {i : Instr} {v : SWord} (h : i.simt = none) (hv : i.scribe = some v) (hop : v.op < 64) :
    Statement i := by
  intro w len hw
  simp only [encode, h, hv, Option.map_some, Option.some.injEq, Prod.mk.injEq] at hw
  obtain ⟨rfl, rfl⟩ := hw
  have h1 := v.d.isLt
  have h2 := v.a.isLt
  have h3 := v.b.isLt
  have h4 := v.i.isLt
  have h5 := v.m.isLt
  exact ⟨by unfold SWord.encode; omega, .inl rfl⟩

theorem of_none {i : Instr} (h : i.simt = none) (hv : i.scribe = none) : Statement i := by
  intro w len hw
  simp [encode, h, hv] at hw

end Sys2Proof.Laws.Encodes

open Sys2Proof.Laws.Encodes (Statement of_base of_ext of_scribe of_none)

theorem Sys2Proof.Laws.Encodes.add (k : Bool) (b : BitVec 7) (a : BitVec 7) (d : BitVec 7) : Statement (.add k b a d) :=
  of_base rfl
theorem Sys2Proof.Laws.Encodes.addExt (x : Ext) : Statement (.addExt x) := of_ext rfl
theorem Sys2Proof.Laws.Encodes.sub (k : Bool) (b : BitVec 7) (a : BitVec 7) (d : BitVec 7) : Statement (.sub k b a d) :=
  of_base rfl
theorem Sys2Proof.Laws.Encodes.subExt (x : Ext) : Statement (.subExt x) := of_ext rfl
theorem Sys2Proof.Laws.Encodes.mul (k : Bool) (b : BitVec 7) (a : BitVec 7) (d : BitVec 7) : Statement (.mul k b a d) :=
  of_base rfl
theorem Sys2Proof.Laws.Encodes.mulExt (x : Ext) : Statement (.mulExt x) := of_ext rfl
theorem Sys2Proof.Laws.Encodes.mulh (k : Bool) (b : BitVec 7) (a : BitVec 7) (d : BitVec 7) : Statement (.mulh k b a d) :=
  of_base rfl
theorem Sys2Proof.Laws.Encodes.mulhExt (x : Ext) : Statement (.mulhExt x) := of_ext rfl
theorem Sys2Proof.Laws.Encodes.mad (x : Ext) : Statement (.mad x) := of_ext rfl
theorem Sys2Proof.Laws.Encodes.adds (k : Bool) (b : BitVec 7) (a : BitVec 7) (d : BitVec 7) : Statement (.adds k b a d) :=
  of_base rfl
theorem Sys2Proof.Laws.Encodes.addsExt (x : Ext) : Statement (.addsExt x) := of_ext rfl
theorem Sys2Proof.Laws.Encodes.subs (k : Bool) (b : BitVec 7) (a : BitVec 7) (d : BitVec 7) : Statement (.subs k b a d) :=
  of_base rfl
theorem Sys2Proof.Laws.Encodes.subsExt (x : Ext) : Statement (.subsExt x) := of_ext rfl
theorem Sys2Proof.Laws.Encodes.and (k : Bool) (b : BitVec 7) (a : BitVec 7) (d : BitVec 7) : Statement (.and k b a d) :=
  of_base rfl
theorem Sys2Proof.Laws.Encodes.andExt (x : Ext) : Statement (.andExt x) := of_ext rfl
theorem Sys2Proof.Laws.Encodes.or (k : Bool) (b : BitVec 7) (a : BitVec 7) (d : BitVec 7) : Statement (.or k b a d) :=
  of_base rfl
theorem Sys2Proof.Laws.Encodes.orExt (x : Ext) : Statement (.orExt x) := of_ext rfl
theorem Sys2Proof.Laws.Encodes.xor (k : Bool) (b : BitVec 7) (a : BitVec 7) (d : BitVec 7) : Statement (.xor k b a d) :=
  of_base rfl
theorem Sys2Proof.Laws.Encodes.xorExt (x : Ext) : Statement (.xorExt x) := of_ext rfl
theorem Sys2Proof.Laws.Encodes.andn (k : Bool) (b : BitVec 7) (a : BitVec 7) (d : BitVec 7) : Statement (.andn k b a d) :=
  of_base rfl
theorem Sys2Proof.Laws.Encodes.andnExt (x : Ext) : Statement (.andnExt x) := of_ext rfl
theorem Sys2Proof.Laws.Encodes.shl (k : Bool) (b : BitVec 7) (a : BitVec 7) (d : BitVec 7) : Statement (.shl k b a d) :=
  of_base rfl
theorem Sys2Proof.Laws.Encodes.shlExt (x : Ext) : Statement (.shlExt x) := of_ext rfl
theorem Sys2Proof.Laws.Encodes.shr (k : Bool) (b : BitVec 7) (a : BitVec 7) (d : BitVec 7) : Statement (.shr k b a d) :=
  of_base rfl
theorem Sys2Proof.Laws.Encodes.shrExt (x : Ext) : Statement (.shrExt x) := of_ext rfl
theorem Sys2Proof.Laws.Encodes.sar (k : Bool) (b : BitVec 7) (a : BitVec 7) (d : BitVec 7) : Statement (.sar k b a d) :=
  of_base rfl
theorem Sys2Proof.Laws.Encodes.sarExt (x : Ext) : Statement (.sarExt x) := of_ext rfl
theorem Sys2Proof.Laws.Encodes.rol (k : Bool) (b : BitVec 7) (a : BitVec 7) (d : BitVec 7) : Statement (.rol k b a d) :=
  of_base rfl
theorem Sys2Proof.Laws.Encodes.rolExt (x : Ext) : Statement (.rolExt x) := of_ext rfl
theorem Sys2Proof.Laws.Encodes.min (k : Bool) (b : BitVec 7) (a : BitVec 7) (d : BitVec 7) : Statement (.min k b a d) :=
  of_base rfl
theorem Sys2Proof.Laws.Encodes.minExt (x : Ext) : Statement (.minExt x) := of_ext rfl
theorem Sys2Proof.Laws.Encodes.max (k : Bool) (b : BitVec 7) (a : BitVec 7) (d : BitVec 7) : Statement (.max k b a d) :=
  of_base rfl
theorem Sys2Proof.Laws.Encodes.maxExt (x : Ext) : Statement (.maxExt x) := of_ext rfl
theorem Sys2Proof.Laws.Encodes.abs (a : BitVec 7) (d : BitVec 7) : Statement (.abs a d) := of_base rfl
theorem Sys2Proof.Laws.Encodes.absExt (x : Ext) : Statement (.absExt x) := of_ext rfl
theorem Sys2Proof.Laws.Encodes.neg (a : BitVec 7) (d : BitVec 7) : Statement (.neg a d) := of_base rfl
theorem Sys2Proof.Laws.Encodes.negExt (x : Ext) : Statement (.negExt x) := of_ext rfl
theorem Sys2Proof.Laws.Encodes.clz (a : BitVec 7) (d : BitVec 7) : Statement (.clz a d) := of_base rfl
theorem Sys2Proof.Laws.Encodes.clzExt (x : Ext) : Statement (.clzExt x) := of_ext rfl
theorem Sys2Proof.Laws.Encodes.popc (a : BitVec 7) (d : BitVec 7) : Statement (.popc a d) := of_base rfl
theorem Sys2Proof.Laws.Encodes.popcExt (x : Ext) : Statement (.popcExt x) := of_ext rfl
theorem Sys2Proof.Laws.Encodes.brev (a : BitVec 7) (d : BitVec 7) : Statement (.brev a d) := of_base rfl
theorem Sys2Proof.Laws.Encodes.brevExt (x : Ext) : Statement (.brevExt x) := of_ext rfl
theorem Sys2Proof.Laws.Encodes.bfx (x : Ext) : Statement (.bfx x) := of_ext rfl
theorem Sys2Proof.Laws.Encodes.bfi (x : Ext) : Statement (.bfi x) := of_ext rfl
theorem Sys2Proof.Laws.Encodes.sel (x : Ext) : Statement (.sel x) := of_ext rfl
theorem Sys2Proof.Laws.Encodes.mov (a : BitVec 7) (d : BitVec 7) : Statement (.mov a d) := of_base rfl
theorem Sys2Proof.Laws.Encodes.movExt (x : Ext) : Statement (.movExt x) := of_ext rfl
theorem Sys2Proof.Laws.Encodes.ldi (i : BitVec 8) (d : BitVec 7) : Statement (.ldi i d) := of_base rfl
theorem Sys2Proof.Laws.Encodes.ldiExt (x : Ext) : Statement (.ldiExt x) := of_ext rfl
theorem Sys2Proof.Laws.Encodes.lea (x : Ext) : Statement (.lea x) := of_ext rfl
theorem Sys2Proof.Laws.Encodes.cmp (x : Ext) : Statement (.cmp x) := of_ext rfl
theorem Sys2Proof.Laws.Encodes.div (x : Ext) : Statement (.div x) := of_ext rfl
theorem Sys2Proof.Laws.Encodes.rem (x : Ext) : Statement (.rem x) := of_ext rfl
theorem Sys2Proof.Laws.Encodes.br (o : BitVec 8) (n : Bool) (g : BitVec 3) : Statement (.br o n g) :=
  of_base rfl
theorem Sys2Proof.Laws.Encodes.brExt (x : Ext) : Statement (.brExt x) := of_ext rfl
theorem Sys2Proof.Laws.Encodes.bri (a : BitVec 7) : Statement (.bri a) := of_base rfl
theorem Sys2Proof.Laws.Encodes.briExt (x : Ext) : Statement (.briExt x) := of_ext rfl
theorem Sys2Proof.Laws.Encodes.call (o : BitVec 8) (n : Bool) (g : BitVec 3) : Statement (.call o n g) :=
  of_base rfl
theorem Sys2Proof.Laws.Encodes.callExt (x : Ext) : Statement (.callExt x) := of_ext rfl
theorem Sys2Proof.Laws.Encodes.calli (a : BitVec 7) : Statement (.calli a) := of_base rfl
theorem Sys2Proof.Laws.Encodes.calliExt (x : Ext) : Statement (.calliExt x) := of_ext rfl
theorem Sys2Proof.Laws.Encodes.ret : Statement .ret := of_base rfl
theorem Sys2Proof.Laws.Encodes.retExt (x : Ext) : Statement (.retExt x) := of_ext rfl
theorem Sys2Proof.Laws.Encodes.exit : Statement .exit := of_base rfl
theorem Sys2Proof.Laws.Encodes.exitExt (x : Ext) : Statement (.exitExt x) := of_ext rfl
theorem Sys2Proof.Laws.Encodes.yield : Statement .yield := of_base rfl
theorem Sys2Proof.Laws.Encodes.yieldExt (x : Ext) : Statement (.yieldExt x) := of_ext rfl
theorem Sys2Proof.Laws.Encodes.nop : Statement .nop := of_base rfl
theorem Sys2Proof.Laws.Encodes.nopExt (x : Ext) : Statement (.nopExt x) := of_ext rfl
theorem Sys2Proof.Laws.Encodes.loop (x : Ext) : Statement (.loop x) := of_ext rfl
theorem Sys2Proof.Laws.Encodes.pand (b : BitVec 7) (a : BitVec 7) (d : BitVec 7) : Statement (.pand b a d) :=
  of_base rfl
theorem Sys2Proof.Laws.Encodes.pandExt (x : Ext) : Statement (.pandExt x) := of_ext rfl
theorem Sys2Proof.Laws.Encodes.por (b : BitVec 7) (a : BitVec 7) (d : BitVec 7) : Statement (.por b a d) :=
  of_base rfl
theorem Sys2Proof.Laws.Encodes.porExt (x : Ext) : Statement (.porExt x) := of_ext rfl
theorem Sys2Proof.Laws.Encodes.pxor (b : BitVec 7) (a : BitVec 7) (d : BitVec 7) : Statement (.pxor b a d) :=
  of_base rfl
theorem Sys2Proof.Laws.Encodes.pxorExt (x : Ext) : Statement (.pxorExt x) := of_ext rfl
theorem Sys2Proof.Laws.Encodes.pnot (a : BitVec 7) (d : BitVec 7) : Statement (.pnot a d) := of_base rfl
theorem Sys2Proof.Laws.Encodes.pnotExt (x : Ext) : Statement (.pnotExt x) := of_ext rfl
theorem Sys2Proof.Laws.Encodes.pset (a : BitVec 7) (d : BitVec 7) : Statement (.pset a d) := of_base rfl
theorem Sys2Proof.Laws.Encodes.psetExt (x : Ext) : Statement (.psetExt x) := of_ext rfl
theorem Sys2Proof.Laws.Encodes.pget (a : BitVec 7) (d : BitVec 7) : Statement (.pget a d) := of_base rfl
theorem Sys2Proof.Laws.Encodes.pgetExt (x : Ext) : Statement (.pgetExt x) := of_ext rfl
theorem Sys2Proof.Laws.Encodes.vote (x : Ext) : Statement (.vote x) := of_ext rfl
theorem Sys2Proof.Laws.Encodes.shfl (x : Ext) : Statement (.shfl x) := of_ext rfl
theorem Sys2Proof.Laws.Encodes.sred (x : Ext) : Statement (.sred x) := of_ext rfl
theorem Sys2Proof.Laws.Encodes.sscan (x : Ext) : Statement (.sscan x) := of_ext rfl
theorem Sys2Proof.Laws.Encodes.ssync : Statement .ssync := of_base rfl
theorem Sys2Proof.Laws.Encodes.ssyncExt (x : Ext) : Statement (.ssyncExt x) := of_ext rfl
theorem Sys2Proof.Laws.Encodes.elect (x : Ext) : Statement (.elect x) := of_ext rfl
theorem Sys2Proof.Laws.Encodes.match (x : Ext) : Statement (.match x) := of_ext rfl
theorem Sys2Proof.Laws.Encodes.tbar : Statement .tbar := of_base rfl
theorem Sys2Proof.Laws.Encodes.tbarExt (x : Ext) : Statement (.tbarExt x) := of_ext rfl
theorem Sys2Proof.Laws.Encodes.sysrd (i : BitVec 8) (d : BitVec 7) : Statement (.sysrd i d) := of_base rfl
theorem Sys2Proof.Laws.Encodes.sysrdExt (x : Ext) : Statement (.sysrdExt x) := of_ext rfl
theorem Sys2Proof.Laws.Encodes.clock (d : BitVec 7) : Statement (.clock d) := of_base rfl
theorem Sys2Proof.Laws.Encodes.clockExt (x : Ext) : Statement (.clockExt x) := of_ext rfl
theorem Sys2Proof.Laws.Encodes.realign (i : BitVec 8) : Statement (.realign i) := of_base rfl
theorem Sys2Proof.Laws.Encodes.realignExt (x : Ext) : Statement (.realignExt x) := of_ext rfl
theorem Sys2Proof.Laws.Encodes.fadd (k : Bool) (b : BitVec 7) (a : BitVec 7) (d : BitVec 7) : Statement (.fadd k b a d) :=
  of_base rfl
theorem Sys2Proof.Laws.Encodes.faddExt (x : Ext) : Statement (.faddExt x) := of_ext rfl
theorem Sys2Proof.Laws.Encodes.fsub (k : Bool) (b : BitVec 7) (a : BitVec 7) (d : BitVec 7) : Statement (.fsub k b a d) :=
  of_base rfl
theorem Sys2Proof.Laws.Encodes.fsubExt (x : Ext) : Statement (.fsubExt x) := of_ext rfl
theorem Sys2Proof.Laws.Encodes.fmul (k : Bool) (b : BitVec 7) (a : BitVec 7) (d : BitVec 7) : Statement (.fmul k b a d) :=
  of_base rfl
theorem Sys2Proof.Laws.Encodes.fmulExt (x : Ext) : Statement (.fmulExt x) := of_ext rfl
theorem Sys2Proof.Laws.Encodes.fma (x : Ext) : Statement (.fma x) := of_ext rfl
theorem Sys2Proof.Laws.Encodes.fmin (k : Bool) (b : BitVec 7) (a : BitVec 7) (d : BitVec 7) : Statement (.fmin k b a d) :=
  of_base rfl
theorem Sys2Proof.Laws.Encodes.fminExt (x : Ext) : Statement (.fminExt x) := of_ext rfl
theorem Sys2Proof.Laws.Encodes.fmax (k : Bool) (b : BitVec 7) (a : BitVec 7) (d : BitVec 7) : Statement (.fmax k b a d) :=
  of_base rfl
theorem Sys2Proof.Laws.Encodes.fmaxExt (x : Ext) : Statement (.fmaxExt x) := of_ext rfl
theorem Sys2Proof.Laws.Encodes.fabs (a : BitVec 7) (d : BitVec 7) : Statement (.fabs a d) := of_base rfl
theorem Sys2Proof.Laws.Encodes.fabsExt (x : Ext) : Statement (.fabsExt x) := of_ext rfl
theorem Sys2Proof.Laws.Encodes.fneg (a : BitVec 7) (d : BitVec 7) : Statement (.fneg a d) := of_base rfl
theorem Sys2Proof.Laws.Encodes.fnegExt (x : Ext) : Statement (.fnegExt x) := of_ext rfl
theorem Sys2Proof.Laws.Encodes.fcmp (x : Ext) : Statement (.fcmp x) := of_ext rfl
theorem Sys2Proof.Laws.Encodes.fclass (a : BitVec 7) (d : BitVec 7) : Statement (.fclass a d) := of_base rfl
theorem Sys2Proof.Laws.Encodes.fclassExt (x : Ext) : Statement (.fclassExt x) := of_ext rfl
theorem Sys2Proof.Laws.Encodes.frcp (x : Ext) : Statement (.frcp x) := of_ext rfl
theorem Sys2Proof.Laws.Encodes.frsq (x : Ext) : Statement (.frsq x) := of_ext rfl
theorem Sys2Proof.Laws.Encodes.fexp2 (x : Ext) : Statement (.fexp2 x) := of_ext rfl
theorem Sys2Proof.Laws.Encodes.flog2 (x : Ext) : Statement (.flog2 x) := of_ext rfl
theorem Sys2Proof.Laws.Encodes.fdiv (x : Ext) : Statement (.fdiv x) := of_ext rfl
theorem Sys2Proof.Laws.Encodes.fsqrt (x : Ext) : Statement (.fsqrt x) := of_ext rfl
theorem Sys2Proof.Laws.Encodes.cvt (x : Ext) : Statement (.cvt x) := of_ext rfl
theorem Sys2Proof.Laws.Encodes.cvtsr (x : Ext) : Statement (.cvtsr x) := of_ext rfl
theorem Sys2Proof.Laws.Encodes.dot4 (x : Ext) : Statement (.dot4 x) := of_ext rfl
theorem Sys2Proof.Laws.Encodes.dot2 (x : Ext) : Statement (.dot2 x) := of_ext rfl
theorem Sys2Proof.Laws.Encodes.fscale (k : Bool) (b : BitVec 7) (a : BitVec 7) (d : BitVec 7) : Statement (.fscale k b a d) :=
  of_base rfl
theorem Sys2Proof.Laws.Encodes.fscaleExt (x : Ext) : Statement (.fscaleExt x) := of_ext rfl
theorem Sys2Proof.Laws.Encodes.frnd (x : Ext) : Statement (.frnd x) := of_ext rfl
theorem Sys2Proof.Laws.Encodes.fflags (x : Ext) : Statement (.fflags x) := of_ext rfl
theorem Sys2Proof.Laws.Encodes.ld (x : Ext) : Statement (.ld x) := of_ext rfl
theorem Sys2Proof.Laws.Encodes.st (i : BitVec 8) (a : BitVec 7) (d : BitVec 7) : Statement (.st i a d) :=
  of_base rfl
theorem Sys2Proof.Laws.Encodes.stExt (x : Ext) : Statement (.stExt x) := of_ext rfl
theorem Sys2Proof.Laws.Encodes.atom (x : Ext) : Statement (.atom x) := of_ext rfl
theorem Sys2Proof.Laws.Encodes.red (x : Ext) : Statement (.red x) := of_ext rfl
theorem Sys2Proof.Laws.Encodes.cas (x : Ext) : Statement (.cas x) := of_ext rfl
theorem Sys2Proof.Laws.Encodes.faddw (x : Ext) : Statement (.faddw x) := of_ext rfl
theorem Sys2Proof.Laws.Encodes.waitw (x : Ext) : Statement (.waitw x) := of_ext rfl
theorem Sys2Proof.Laws.Encodes.pref (i : BitVec 8) (a : BitVec 7) : Statement (.pref i a) := of_base rfl
theorem Sys2Proof.Laws.Encodes.prefExt (x : Ext) : Statement (.prefExt x) := of_ext rfl
theorem Sys2Proof.Laws.Encodes.pagereq (x : Ext) : Statement (.pagereq x) := of_ext rfl
theorem Sys2Proof.Laws.Encodes.clhint (x : Ext) : Statement (.clhint x) := of_ext rfl
theorem Sys2Proof.Laws.Encodes.fence (x : Ext) : Statement (.fence x) := of_ext rfl
theorem Sys2Proof.Laws.Encodes.tspawn (x : Ext) : Statement (.tspawn x) := of_ext rfl
theorem Sys2Proof.Laws.Encodes.tdec (x : Ext) : Statement (.tdec x) := of_ext rfl
theorem Sys2Proof.Laws.Encodes.tinc (x : Ext) : Statement (.tinc x) := of_ext rfl
theorem Sys2Proof.Laws.Encodes.defer (x : Ext) : Statement (.defer x) := of_ext rfl
theorem Sys2Proof.Laws.Encodes.rwait (x : Ext) : Statement (.rwait x) := of_ext rfl
theorem Sys2Proof.Laws.Encodes.rpop (i : BitVec 8) : Statement (.rpop i) := of_base rfl
theorem Sys2Proof.Laws.Encodes.rpopExt (x : Ext) : Statement (.rpopExt x) := of_ext rfl
theorem Sys2Proof.Laws.Encodes.obres (x : Ext) : Statement (.obres x) := of_ext rfl
theorem Sys2Proof.Laws.Encodes.obrel (x : Ext) : Statement (.obrel x) := of_ext rfl
theorem Sys2Proof.Laws.Encodes.obld (x : Ext) : Statement (.obld x) := of_ext rfl
theorem Sys2Proof.Laws.Encodes.mma (x : Ext) : Statement (.mma x) := of_ext rfl
theorem Sys2Proof.Laws.Encodes.mmap (x : Ext) : Statement (.mmap x) := of_ext rfl
theorem Sys2Proof.Laws.Encodes.mzero (x : Ext) : Statement (.mzero x) := of_ext rfl
theorem Sys2Proof.Laws.Encodes.mdrain (x : Ext) : Statement (.mdrain x) := of_ext rfl
theorem Sys2Proof.Laws.Encodes.mlease (x : Ext) : Statement (.mlease x) := of_ext rfl
theorem Sys2Proof.Laws.Encodes.mfree (x : Ext) : Statement (.mfree x) := of_ext rfl
theorem Sys2Proof.Laws.Encodes.quant (x : Ext) : Statement (.quant x) := of_ext rfl
theorem Sys2Proof.Laws.Encodes.mrd (x : Ext) : Statement (.mrd x) := of_ext rfl
theorem Sys2Proof.Laws.Encodes.mwr (x : Ext) : Statement (.mwr x) := of_ext rfl
theorem Sys2Proof.Laws.Encodes.cpy (x : Ext) : Statement (.cpy x) := of_ext rfl
theorem Sys2Proof.Laws.Encodes.tcopy (x : Ext) : Statement (.tcopy x) := of_ext rfl
theorem Sys2Proof.Laws.Encodes.put (x : Ext) : Statement (.put x) := of_ext rfl
theorem Sys2Proof.Laws.Encodes.get (x : Ext) : Statement (.get x) := of_ext rfl
theorem Sys2Proof.Laws.Encodes.msg (x : Ext) : Statement (.msg x) := of_ext rfl
theorem Sys2Proof.Laws.Encodes.nmcmd (x : Ext) : Statement (.nmcmd x) := of_ext rfl
theorem Sys2Proof.Laws.Encodes.sealput (x : Ext) : Statement (.sealput x) := of_ext rfl
theorem Sys2Proof.Laws.Encodes.sealget (x : Ext) : Statement (.sealget x) := of_ext rfl
theorem Sys2Proof.Laws.Encodes.sealswap (x : Ext) : Statement (.sealswap x) := of_ext rfl
theorem Sys2Proof.Laws.Encodes.sealref (x : Ext) : Statement (.sealref x) := of_ext rfl
theorem Sys2Proof.Laws.Encodes.unseal (x : Ext) : Statement (.unseal x) := of_ext rfl
theorem Sys2Proof.Laws.Encodes.trev (x : Ext) : Statement (.trev x) := of_ext rfl
theorem Sys2Proof.Laws.Encodes.xlook (x : Ext) : Statement (.xlook x) := of_ext rfl
theorem Sys2Proof.Laws.Encodes.trap (i : BitVec 8) : Statement (.trap i) := of_base rfl
theorem Sys2Proof.Laws.Encodes.trapExt (x : Ext) : Statement (.trapExt x) := of_ext rfl
theorem Sys2Proof.Laws.Encodes.rett : Statement .rett := of_base rfl
theorem Sys2Proof.Laws.Encodes.rettExt (x : Ext) : Statement (.rettExt x) := of_ext rfl
theorem Sys2Proof.Laws.Encodes.csrrd (i : BitVec 8) (d : BitVec 7) : Statement (.csrrd i d) := of_base rfl
theorem Sys2Proof.Laws.Encodes.csrrdExt (x : Ext) : Statement (.csrrdExt x) := of_ext rfl
theorem Sys2Proof.Laws.Encodes.csrwr (i : BitVec 8) (a : BitVec 7) : Statement (.csrwr i a) := of_base rfl
theorem Sys2Proof.Laws.Encodes.csrwrExt (x : Ext) : Statement (.csrwrExt x) := of_ext rfl
theorem Sys2Proof.Laws.Encodes.tlbinv (x : Ext) : Statement (.tlbinv x) := of_ext rfl
theorem Sys2Proof.Laws.Encodes.bkpt : Statement .bkpt := of_base rfl
theorem Sys2Proof.Laws.Encodes.bkptExt (x : Ext) : Statement (.bkptExt x) := of_ext rfl
theorem Sys2Proof.Laws.Encodes.halt : Statement .halt := of_base rfl
theorem Sys2Proof.Laws.Encodes.haltExt (x : Ext) : Statement (.haltExt x) := of_ext rfl
theorem Sys2Proof.Laws.Encodes.ctxsave (x : Ext) : Statement (.ctxsave x) := of_ext rfl
theorem Sys2Proof.Laws.Encodes.ctxload (x : Ext) : Statement (.ctxload x) := of_ext rfl
theorem Sys2Proof.Laws.Encodes.sadd (i : BitVec 8) (b : BitVec 5) (a : BitVec 5) (d : BitVec 5) : Statement (.sadd i b a d) :=
  of_scribe rfl rfl (of_decide_eq_true rfl)
theorem Sys2Proof.Laws.Encodes.ssub (i : BitVec 8) (b : BitVec 5) (a : BitVec 5) (d : BitVec 5) : Statement (.ssub i b a d) :=
  of_scribe rfl rfl (of_decide_eq_true rfl)
theorem Sys2Proof.Laws.Encodes.smul (i : BitVec 8) (b : BitVec 5) (a : BitVec 5) (d : BitVec 5) : Statement (.smul i b a d) :=
  of_scribe rfl rfl (of_decide_eq_true rfl)
theorem Sys2Proof.Laws.Encodes.sand (i : BitVec 8) (b : BitVec 5) (a : BitVec 5) (d : BitVec 5) : Statement (.sand i b a d) :=
  of_scribe rfl rfl (of_decide_eq_true rfl)
theorem Sys2Proof.Laws.Encodes.sor (i : BitVec 8) (b : BitVec 5) (a : BitVec 5) (d : BitVec 5) : Statement (.sor i b a d) :=
  of_scribe rfl rfl (of_decide_eq_true rfl)
theorem Sys2Proof.Laws.Encodes.sxor (i : BitVec 8) (b : BitVec 5) (a : BitVec 5) (d : BitVec 5) : Statement (.sxor i b a d) :=
  of_scribe rfl rfl (of_decide_eq_true rfl)
theorem Sys2Proof.Laws.Encodes.sshl (i : BitVec 8) (b : BitVec 5) (a : BitVec 5) (d : BitVec 5) : Statement (.sshl i b a d) :=
  of_scribe rfl rfl (of_decide_eq_true rfl)
theorem Sys2Proof.Laws.Encodes.sshr (i : BitVec 8) (b : BitVec 5) (a : BitVec 5) (d : BitVec 5) : Statement (.sshr i b a d) :=
  of_scribe rfl rfl (of_decide_eq_true rfl)
theorem Sys2Proof.Laws.Encodes.sldi (i : BitVec 8) (a : BitVec 5) (d : BitVec 5) : Statement (.sldi i a d) :=
  of_scribe rfl rfl (of_decide_eq_true rfl)
theorem Sys2Proof.Laws.Encodes.sldk (i : BitVec 8) (d : BitVec 5) : Statement (.sldk i d) :=
  of_scribe rfl rfl (of_decide_eq_true rfl)
theorem Sys2Proof.Laws.Encodes.smov (i : BitVec 8) (a : BitVec 5) (d : BitVec 5) : Statement (.smov i a d) :=
  of_scribe rfl rfl (of_decide_eq_true rfl)
theorem Sys2Proof.Laws.Encodes.scmp (i : BitVec 8) (b : BitVec 5) (a : BitVec 5) (d : BitVec 5) : Statement (.scmp i b a d) :=
  of_scribe rfl rfl (of_decide_eq_true rfl)
theorem Sys2Proof.Laws.Encodes.jmp (l : BitVec 8) (h : BitVec 5) : Statement (.jmp l h) :=
  of_scribe rfl rfl (of_decide_eq_true rfl)
theorem Sys2Proof.Laws.Encodes.jz (l : BitVec 8) (h : BitVec 5) (a : BitVec 5) : Statement (.jz l h a) :=
  of_scribe rfl rfl (of_decide_eq_true rfl)
theorem Sys2Proof.Laws.Encodes.jnz (l : BitVec 8) (h : BitVec 5) (a : BitVec 5) : Statement (.jnz l h a) :=
  of_scribe rfl rfl (of_decide_eq_true rfl)
theorem Sys2Proof.Laws.Encodes.scribeLoop (l : BitVec 8) (h : BitVec 5) (a : BitVec 5) : Statement (.scribeLoop l h a) :=
  of_scribe rfl rfl (of_decide_eq_true rfl)
theorem Sys2Proof.Laws.Encodes.scribeCall (l : BitVec 8) (h : BitVec 5) : Statement (.scribeCall l h) :=
  of_scribe rfl rfl (of_decide_eq_true rfl)
theorem Sys2Proof.Laws.Encodes.scribeRet : Statement .scribeRet := of_scribe rfl rfl (of_decide_eq_true rfl)
theorem Sys2Proof.Laws.Encodes.sld (i : BitVec 8) (a : BitVec 5) (d : BitVec 5) : Statement (.sld i a d) :=
  of_scribe rfl rfl (of_decide_eq_true rfl)
theorem Sys2Proof.Laws.Encodes.sst (i : BitVec 8) (a : BitVec 5) (d : BitVec 5) : Statement (.sst i a d) :=
  of_scribe rfl rfl (of_decide_eq_true rfl)
theorem Sys2Proof.Laws.Encodes.vld (m : BitVec 3) (i : BitVec 8) (a : BitVec 5) (d : BitVec 5) : Statement (.vld m i a d) :=
  of_scribe rfl rfl (of_decide_eq_true rfl)
theorem Sys2Proof.Laws.Encodes.vst (m : BitVec 3) (i : BitVec 8) (a : BitVec 5) (d : BitVec 5) : Statement (.vst m i a d) :=
  of_scribe rfl rfl (of_decide_eq_true rfl)
theorem Sys2Proof.Laws.Encodes.vgather (m : BitVec 3) (b : BitVec 5) (a : BitVec 5) (d : BitVec 5) : Statement (.vgather m b a d) :=
  of_scribe rfl rfl (of_decide_eq_true rfl)
theorem Sys2Proof.Laws.Encodes.vscatter (m : BitVec 3) (b : BitVec 5) (a : BitVec 5) (d : BitVec 5) : Statement (.vscatter m b a d) :=
  of_scribe rfl rfl (of_decide_eq_true rfl)
theorem Sys2Proof.Laws.Encodes.vaadd (m : BitVec 3) (i : BitVec 8) (b : BitVec 5) (a : BitVec 5) (d : BitVec 5) : Statement (.vaadd m i b a d) :=
  of_scribe rfl rfl (of_decide_eq_true rfl)
theorem Sys2Proof.Laws.Encodes.vadd (m : BitVec 3) (i : BitVec 8) (b : BitVec 5) (a : BitVec 5) (d : BitVec 5) : Statement (.vadd m i b a d) :=
  of_scribe rfl rfl (of_decide_eq_true rfl)
theorem Sys2Proof.Laws.Encodes.vsub (m : BitVec 3) (i : BitVec 8) (b : BitVec 5) (a : BitVec 5) (d : BitVec 5) : Statement (.vsub m i b a d) :=
  of_scribe rfl rfl (of_decide_eq_true rfl)
theorem Sys2Proof.Laws.Encodes.vmul (m : BitVec 3) (i : BitVec 8) (b : BitVec 5) (a : BitVec 5) (d : BitVec 5) : Statement (.vmul m i b a d) :=
  of_scribe rfl rfl (of_decide_eq_true rfl)
theorem Sys2Proof.Laws.Encodes.vfma (m : BitVec 3) (b : BitVec 5) (a : BitVec 5) (d : BitVec 5) : Statement (.vfma m b a d) :=
  of_scribe rfl rfl (of_decide_eq_true rfl)
theorem Sys2Proof.Laws.Encodes.vmin (m : BitVec 3) (i : BitVec 8) (b : BitVec 5) (a : BitVec 5) (d : BitVec 5) : Statement (.vmin m i b a d) :=
  of_scribe rfl rfl (of_decide_eq_true rfl)
theorem Sys2Proof.Laws.Encodes.vmax (m : BitVec 3) (i : BitVec 8) (b : BitVec 5) (a : BitVec 5) (d : BitVec 5) : Statement (.vmax m i b a d) :=
  of_scribe rfl rfl (of_decide_eq_true rfl)
theorem Sys2Proof.Laws.Encodes.vdiv (m : BitVec 3) (b : BitVec 5) (a : BitVec 5) (d : BitVec 5) : Statement (.vdiv m b a d) :=
  of_scribe rfl rfl (of_decide_eq_true rfl)
theorem Sys2Proof.Laws.Encodes.vsqrt (m : BitVec 3) (a : BitVec 5) (d : BitVec 5) : Statement (.vsqrt m a d) :=
  of_scribe rfl rfl (of_decide_eq_true rfl)
theorem Sys2Proof.Laws.Encodes.vrsq (m : BitVec 3) (a : BitVec 5) (d : BitVec 5) : Statement (.vrsq m a d) :=
  of_scribe rfl rfl (of_decide_eq_true rfl)
theorem Sys2Proof.Laws.Encodes.vabs (m : BitVec 3) (i : BitVec 8) (a : BitVec 5) (d : BitVec 5) : Statement (.vabs m i a d) :=
  of_scribe rfl rfl (of_decide_eq_true rfl)
theorem Sys2Proof.Laws.Encodes.vcvt (m : BitVec 3) (i : BitVec 8) (a : BitVec 5) (d : BitVec 5) : Statement (.vcvt m i a d) :=
  of_scribe rfl rfl (of_decide_eq_true rfl)
theorem Sys2Proof.Laws.Encodes.vsel (m : BitVec 3) (i : BitVec 8) (b : BitVec 5) (a : BitVec 5) (d : BitVec 5) : Statement (.vsel m i b a d) :=
  of_scribe rfl rfl (of_decide_eq_true rfl)
theorem Sys2Proof.Laws.Encodes.vcmp (m : BitVec 3) (i : BitVec 8) (b : BitVec 5) (a : BitVec 5) (d : BitVec 5) : Statement (.vcmp m i b a d) :=
  of_scribe rfl rfl (of_decide_eq_true rfl)
theorem Sys2Proof.Laws.Encodes.vred (m : BitVec 3) (i : BitVec 8) (a : BitVec 5) (d : BitVec 5) : Statement (.vred m i a d) :=
  of_scribe rfl rfl (of_decide_eq_true rfl)
theorem Sys2Proof.Laws.Encodes.vbcast (m : BitVec 3) (a : BitVec 5) (d : BitVec 5) : Statement (.vbcast m a d) :=
  of_scribe rfl rfl (of_decide_eq_true rfl)
theorem Sys2Proof.Laws.Encodes.vmovs (i : BitVec 8) (a : BitVec 5) (d : BitVec 5) : Statement (.vmovs i a d) :=
  of_scribe rfl rfl (of_decide_eq_true rfl)
theorem Sys2Proof.Laws.Encodes.scribeTdec (i : BitVec 8) (b : BitVec 5) (a : BitVec 5) : Statement (.scribeTdec i b a) :=
  of_scribe rfl rfl (of_decide_eq_true rfl)
theorem Sys2Proof.Laws.Encodes.scribeFence (i : BitVec 8) : Statement (.scribeFence i) :=
  of_scribe rfl rfl (of_decide_eq_true rfl)
theorem Sys2Proof.Laws.Encodes.texit : Statement .texit := of_scribe rfl rfl (of_decide_eq_true rfl)
theorem Sys2Proof.Laws.Encodes.illegalOpcode (zero : Bool) : Statement (.illegalOpcode zero) :=
  of_none rfl rfl
theorem Sys2Proof.Laws.Encodes.codeBounds : Statement .codeBounds := of_none rfl rfl
theorem Sys2Proof.Laws.Encodes.scribeIllegalOpcode (cause : BitVec 8) : Statement (.scribeIllegalOpcode cause) :=
  of_none rfl rfl
theorem Sys2Proof.Laws.Encodes.realignResume (core : Nat) : Statement (.realignResume core) := of_none rfl rfl
theorem Sys2Proof.Laws.Encodes.waitwWake (t : Tid) : Statement (.waitwWake t) := of_none rfl rfl
theorem Sys2Proof.Laws.Encodes.waitwTimeout (t : Tid) : Statement (.waitwTimeout t) := of_none rfl rfl
theorem Sys2Proof.Laws.Encodes.pagereqComplete (req : Nat) : Statement (.pagereqComplete req) :=
  of_none rfl rfl
theorem Sys2Proof.Laws.Encodes.matrixOpComplete (core : Nat) : Statement (.matrixOpComplete core) :=
  of_none rfl rfl
theorem Sys2Proof.Laws.Encodes.sealWalkerDrop (site : Nat) : Statement (.sealWalkerDrop site) :=
  of_none rfl rfl
theorem Sys2Proof.Laws.Encodes.longLatencyComplete (t : Tid) (w : Nat) : Statement (.longLatencyComplete t w) :=
  of_none rfl rfl
theorem Sys2Proof.Laws.Encodes.longLatencyFault (t : Tid) (w : Nat) (cause : BitVec 8) (addr : DWord) : Statement (.longLatencyFault t w cause addr) :=
  of_none rfl rfl
theorem Sys2Proof.Laws.Encodes.convergenceTimeout (q : Sid) : Statement (.convergenceTimeout q) :=
  of_none rfl rfl
theorem Sys2Proof.Laws.Encodes.watchdog (t : Tid) : Statement (.watchdog t) := of_none rfl rfl
theorem Sys2Proof.Laws.Encodes.exitTrackerResume (q : Sid) : Statement (.exitTrackerResume q) :=
  of_none rfl rfl
theorem Sys2Proof.Laws.Encodes.commandComplete (c : Nat) : Statement (.commandComplete c) := of_none rfl rfl
theorem Sys2Proof.Laws.Encodes.copyLineDelivered (c half line : Nat) : Statement (.copyLineDelivered c half line) :=
  of_none rfl rfl
theorem Sys2Proof.Laws.Encodes.lqtailWrite (q : Nat) (v : Word) : Statement (.lqtailWrite q v) :=
  of_none rfl rfl
theorem Sys2Proof.Laws.Encodes.lqcfgWrite (q : Nat) (v : Word) : Statement (.lqcfgWrite q v) :=
  of_none rfl rfl
theorem Sys2Proof.Laws.Encodes.launchRecordRead (q : Nat) : Statement (.launchRecordRead q) := of_none rfl rfl
theorem Sys2Proof.Laws.Encodes.launchPageResume (q : Nat) : Statement (.launchPageResume q) := of_none rfl rfl
theorem Sys2Proof.Laws.Encodes.launchComplete (lid : Nat) : Statement (.launchComplete lid) := of_none rfl rfl
theorem Sys2Proof.Laws.Encodes.teamPlace (lid : Nat) : Statement (.teamPlace lid) := of_none rfl rfl
theorem Sys2Proof.Laws.Encodes.teamRelease (team : Nat) : Statement (.teamRelease team) := of_none rfl rfl
theorem Sys2Proof.Laws.Encodes.taskDispatch (site : Nat) : Statement (.taskDispatch site) := of_none rfl rfl
theorem Sys2Proof.Laws.Encodes.leaseGrant (core : Nat) : Statement (.leaseGrant core) := of_none rfl rfl
theorem Sys2Proof.Laws.Encodes.leaseIdleExpiry (core : Nat) : Statement (.leaseIdleExpiry core) :=
  of_none rfl rfl
theorem Sys2Proof.Laws.Encodes.congestionSample (site : Nat) (occ : List Nat) : Statement (.congestionSample site occ) :=
  of_none rfl rfl
theorem Sys2Proof.Laws.Encodes.ringAppend (p : Nat) : Statement (.ringAppend p) := of_none rfl rfl
theorem Sys2Proof.Laws.Encodes.putArrive (p : Nat) : Statement (.putArrive p) := of_none rfl rfl
theorem Sys2Proof.Laws.Encodes.putAck (p : Nat) : Statement (.putAck p) := of_none rfl rfl
theorem Sys2Proof.Laws.Encodes.getRequestArrive (p : Nat) : Statement (.getRequestArrive p) := of_none rfl rfl
theorem Sys2Proof.Laws.Encodes.getReplyArrive (p : Nat) : Statement (.getReplyArrive p) := of_none rfl rfl
theorem Sys2Proof.Laws.Encodes.nakReceive (p : Nat) : Statement (.nakReceive p) := of_none rfl rfl
theorem Sys2Proof.Laws.Encodes.packetHop (p : PacketRef) : Statement (.packetHop p) := of_none rfl rfl
theorem Sys2Proof.Laws.Encodes.nmcmdPacketArrive (c site stack : Nat) : Statement (.nmcmdPacketArrive c site stack) :=
  of_none rfl rfl
theorem Sys2Proof.Laws.Encodes.trapReport (site : Nat) : Statement (.trapReport site) := of_none rfl rfl
theorem Sys2Proof.Laws.Encodes.trapqheadWrite (site : Nat) (v : Word) : Statement (.trapqheadWrite site v) :=
  of_none rfl rfl
theorem Sys2Proof.Laws.Encodes.trapactResume (site : Nat) (idx : Word) : Statement (.trapactResume site idx) :=
  of_none rfl rfl
theorem Sys2Proof.Laws.Encodes.trapactForward (site : Nat) (idx : Word) : Statement (.trapactForward site idx) :=
  of_none rfl rfl
theorem Sys2Proof.Laws.Encodes.trapactEndThreads (site : Nat) (idx : Word) : Statement (.trapactEndThreads site idx) :=
  of_none rfl rfl
theorem Sys2Proof.Laws.Encodes.trapactEndLaunch (site : Nat) (idx : Word) : Statement (.trapactEndLaunch site idx) :=
  of_none rfl rfl
theorem Sys2Proof.Laws.Encodes.l2cfgWrite (site : Nat) (v : DWord) : Statement (.l2cfgWrite site v) :=
  of_none rfl rfl
theorem Sys2Proof.Laws.Encodes.l2FlushDone (site : Nat) : Statement (.l2FlushDone site) := of_none rfl rfl
theorem Sys2Proof.Laws.Encodes.l2liveWrite (site : Nat) (v : DWord) : Statement (.l2liveWrite site v) :=
  of_none rfl rfl
theorem Sys2Proof.Laws.Encodes.chremapWrite (site : Nat) (v : DWord) : Statement (.chremapWrite site v) :=
  of_none rfl rfl
theorem Sys2Proof.Laws.Encodes.chremapCopyDone (site : Nat) : Statement (.chremapCopyDone site) :=
  of_none rfl rfl
theorem Sys2Proof.Laws.Encodes.biasToHost (site : Nat) (v : DWord) : Statement (.biasToHost site v) :=
  of_none rfl rfl
theorem Sys2Proof.Laws.Encodes.biasToHostDone (site : Nat) : Statement (.biasToHostDone site) :=
  of_none rfl rfl
theorem Sys2Proof.Laws.Encodes.biasToDevice (site : Nat) (v : DWord) : Statement (.biasToDevice site v) :=
  of_none rfl rfl
theorem Sys2Proof.Laws.Encodes.biasToDeviceDone (site : Nat) (ok : Bool) : Statement (.biasToDeviceDone site ok) :=
  of_none rfl rfl
theorem Sys2Proof.Laws.Encodes.hostMemAccess (off : Nat) (a : HostAccess) : Statement (.hostMemAccess off a) :=
  of_none rfl rfl
theorem Sys2Proof.Laws.Encodes.scribePageResume (sc : Nat) : Statement (.scribePageResume sc) :=
  of_none rfl rfl
theorem Sys2Proof.Laws.Encodes.boot : Statement .boot := of_none rfl rfl
theorem Sys2Proof.Laws.Encodes.attestationQuote (nonce : List Byte) : Statement (.attestationQuote nonce) :=
  of_none rfl rfl
theorem Sys2Proof.Laws.Encodes.tenantDebugGrant (env : List Byte) : Statement (.tenantDebugGrant env) :=
  of_none rfl rfl
theorem Sys2Proof.Laws.Encodes.tenantDebugRevoke : Statement .tenantDebugRevoke := of_none rfl rfl
theorem Sys2Proof.Laws.Encodes.dstateRaise (d : Nat) : Statement (.dstateRaise d) := of_none rfl rfl
theorem Sys2Proof.Laws.Encodes.dstateLower (d : Nat) : Statement (.dstateLower d) := of_none rfl rfl
theorem Sys2Proof.Laws.Encodes.debugHaltRequest (phys : Nat) : Statement (.debugHaltRequest phys) :=
  of_none rfl rfl
theorem Sys2Proof.Laws.Encodes.debugResume (phys : Nat) : Statement (.debugResume phys) := of_none rfl rfl
theorem Sys2Proof.Laws.Encodes.slotRetire (site block slot : Nat) : Statement (.slotRetire site block slot) :=
  of_none rfl rfl
theorem Sys2Proof.Laws.Encodes.blockRouterFail (site block : Nat) : Statement (.blockRouterFail site block) :=
  of_none rfl rfl
theorem Sys2Proof.Laws.Encodes.blockRecompact (site block : Nat) : Statement (.blockRecompact site block) :=
  of_none rfl rfl
theorem Sys2Proof.Laws.Encodes.reticleOut (site : Nat) : Statement (.reticleOut site) := of_none rfl rfl
theorem Sys2Proof.Laws.Encodes.linkDelayMeasure (site edge : Nat) (ps : Word) : Statement (.linkDelayMeasure site edge ps) :=
  of_none rfl rfl
theorem Sys2Proof.Laws.Encodes.timeTreeReparent (site parent : Nat) : Statement (.timeTreeReparent site parent) :=
  of_none rfl rfl
theorem Sys2Proof.Laws.Encodes.ptpSync (offset : Word) : Statement (.ptpSync offset) := of_none rfl rfl
theorem Sys2Proof.Laws.Encodes.linkDead (site edge : Nat) : Statement (.linkDead site edge) := of_none rfl rfl
theorem Sys2Proof.Laws.Encodes.linkDeadTimeout (site edge : Nat) : Statement (.linkDeadTimeout site edge) :=
  of_none rfl rfl
theorem Sys2Proof.Laws.Encodes.netverWrite (site : Nat) (v : DWord) : Statement (.netverWrite site v) :=
  of_none rfl rfl
theorem Sys2Proof.Laws.Encodes.netcommitWrite (site : Nat) (v : Word) : Statement (.netcommitWrite site v) :=
  of_none rfl rfl
theorem Sys2Proof.Laws.Encodes.commitRequestServe : Statement .commitRequestServe := of_none rfl rfl
theorem Sys2Proof.Laws.Encodes.commitBroadcast (site : Nat) : Statement (.commitBroadcast site) :=
  of_none rfl rfl
theorem Sys2Proof.Laws.Encodes.versionHoldTimeout (p : Nat) : Statement (.versionHoldTimeout p) :=
  of_none rfl rfl
theorem Sys2Proof.Laws.Encodes.occupancyReport (site occ : Nat) : Statement (.occupancyReport site occ) :=
  of_none rfl rfl
theorem Sys2Proof.Laws.Encodes.steerInterval (site : Nat) (demand : List Nat) (agree : Bool) : Statement (.steerInterval site demand agree) :=
  of_none rfl rfl
theorem Sys2Proof.Laws.Encodes.laneMove (site : Nat) : Statement (.laneMove site) := of_none rfl rfl
theorem Sys2Proof.Laws.Encodes.laneSkewMeasure (site w : Nat) (inBound : Bool) : Statement (.laneSkewMeasure site w inBound) :=
  of_none rfl rfl
theorem Sys2Proof.Laws.Encodes.carrierLoss (site w : Nat) : Statement (.carrierLoss site w) := of_none rfl rfl
theorem Sys2Proof.Laws.Encodes.portLoss (site serving : Nat) : Statement (.portLoss site serving) :=
  of_none rfl rfl
theorem Sys2Proof.Laws.Encodes.replayEntryExpire (site : Nat) (key : ReplayKey) : Statement (.replayEntryExpire site key) :=
  of_none rfl rfl
theorem Sys2Proof.Laws.Encodes.ackTimeout (p : Nat) : Statement (.ackTimeout p) := of_none rfl rfl
theorem Sys2Proof.Laws.Encodes.replayFullRetry (p : Nat) : Statement (.replayFullRetry p) := of_none rfl rfl
theorem Sys2Proof.Laws.Encodes.bltcfgWrite (site strm : Nat) (v : DWord) : Statement (.bltcfgWrite site strm v) :=
  of_none rfl rfl
theorem Sys2Proof.Laws.Encodes.bltheadWrite (site strm : Nat) (v : DWord) : Statement (.bltheadWrite site strm v) :=
  of_none rfl rfl
theorem Sys2Proof.Laws.Encodes.blotterStallTimeout (site strm : Nat) : Statement (.blotterStallTimeout site strm) :=
  of_none rfl rfl
theorem Sys2Proof.Laws.Encodes.lupcfgWrite (l : Nat) (v : DWord) : Statement (.lupcfgWrite l v) :=
  of_none rfl rfl
theorem Sys2Proof.Laws.Encodes.lineupReview (l : Nat) : Statement (.lineupReview l) := of_none rfl rfl
theorem Sys2Proof.Laws.Encodes.lineupCopiesDone (l : Nat) (failed : List Nat) : Statement (.lineupCopiesDone l failed) :=
  of_none rfl rfl
theorem Sys2Proof.Laws.Encodes.lineupPrepare (l : Nat) : Statement (.lineupPrepare l) := of_none rfl rfl
theorem Sys2Proof.Laws.Encodes.lineupPrepareTimeout (l : Nat) : Statement (.lineupPrepareTimeout l) :=
  of_none rfl rfl
theorem Sys2Proof.Laws.Encodes.lineupCommit (l site : Nat) : Statement (.lineupCommit l site) :=
  of_none rfl rfl
theorem Sys2Proof.Laws.Encodes.lineupCommitAcked (l : Nat) : Statement (.lineupCommitAcked l) :=
  of_none rfl rfl
theorem Sys2Proof.Laws.Encodes.lineupHeartbeat (l : Nat) (arrives : Bool) : Statement (.lineupHeartbeat l arrives) :=
  of_none rfl rfl
theorem Sys2Proof.Laws.Encodes.lineupTakeover (l : Nat) : Statement (.lineupTakeover l) := of_none rfl rfl
theorem Sys2Proof.Laws.Encodes.blockIdle (site block : Nat) : Statement (.blockIdle site block) :=
  of_none rfl rfl
theorem Sys2Proof.Laws.Encodes.blockGate (site block : Nat) : Statement (.blockGate site block) :=
  of_none rfl rfl
theorem Sys2Proof.Laws.Encodes.blockPowerOnCheck (site block : Nat) (amps : List Nat) : Statement (.blockPowerOnCheck site block amps) :=
  of_none rfl rfl
theorem Sys2Proof.Laws.Encodes.powerGateStep (site block : Nat) : Statement (.powerGateStep site block) :=
  of_none rfl rfl
theorem Sys2Proof.Laws.Encodes.reticleOff (site : Nat) : Statement (.reticleOff site) := of_none rfl rfl
theorem Sys2Proof.Laws.Encodes.reticleOn (site : Nat) : Statement (.reticleOn site) := of_none rfl rfl
theorem Sys2Proof.Laws.Encodes.powerLimitThrottle (watts : Nat) : Statement (.powerLimitThrottle watts) :=
  of_none rfl rfl
theorem Sys2Proof.Laws.Encodes.thermalLimit (site celsius : Nat) : Statement (.thermalLimit site celsius) :=
  of_none rfl rfl
theorem Sys2Proof.Laws.Encodes.registerWrite (r : DevReg) (v : DWord) : Statement (.registerWrite r v) :=
  of_none rfl rfl
theorem Sys2Proof.Laws.Encodes.rootDecrementResume (lid : Nat) : Statement (.rootDecrementResume lid) :=
  of_none rfl rfl
theorem Sys2Proof.Laws.Encodes.scribeLoadReturn (sc : Nat) : Statement (.scribeLoadReturn sc) :=
  of_none rfl rfl
theorem Sys2Proof.Laws.Encodes.tlbinvComplete (id : Nat) : Statement (.tlbinvComplete id) := of_none rfl rfl
theorem Sys2Proof.Laws.Encodes.ctxsaveCtxloadCompletion (id : Nat) : Statement (.ctxsaveCtxloadCompletion id) :=
  of_none rfl rfl
theorem Sys2Proof.Laws.Encodes.scribeCoreDead (site k : Nat) : Statement (.scribeCoreDead site k) :=
  of_none rfl rfl
theorem Sys2Proof.Laws.Encodes.softError (e : SoftError) : Statement (.softError e) := of_none rfl rfl
theorem Sys2Proof.Laws.Encodes.ptpHoldover : Statement .ptpHoldover := of_none rfl rfl
theorem Sys2Proof.Laws.Encodes.debugStateWrite (w : DebugWrite) : Statement (.debugStateWrite w) :=
  of_none rfl rfl
theorem Sys2Proof.Laws.Encodes.steeringRequest (site w src dst : Nat) : Statement (.steeringRequest site w src dst) :=
  of_none rfl rfl
end

