-- ==== Sys2Proof/Tests/Slice0.lean ====
section
/-! SUPPORT. The model's own tests: ill-formed terms refused, words of the spec decoded, results of the
spec's examples, and a state that meets the hypotheses of each statement. -/

namespace Sys2Proof.Tests

open Sys2Proof Sys2Proof.Machine

set_option Elab.async false

/-! ## Small states -/

/-- Whether a gang issues an instruction, as `Issuing` says. -/
def issuingB (s : State) (g : Gang) (op : Op) (x : Ext) (len : Nat) : Bool :=
  decide (s.gang = some g) && decide (issueCheck op x (s.gangLaunch g) = none) &&
    decide (g.members.map Prod.snd).Nodup &&
    g.members.all (fun m => decide ((s.thread m.2).pendingTrap m.2 = none)) &&
    g.members.all (fun m => !Issue.violates ⟨op, x, len, g.core, g.pc⟩ (s.thread m.2)) &&
    decide ((s.site (siteOf g.core)).streamOf (s.gangLaunch g).tenant = none)

theorem issuing_of {s : State} {g : Gang} {op : Op} {x : Ext} {len : Nat}
    (h : issuingB s g op x len = true) : Issuing s g op x len := by
  simp only [issuingB, Bool.and_eq_true, decide_eq_true_eq, List.all_eq_true, Bool.not_eq_true'] at h
  exact ⟨h.1.1.1.1.1, h.1.1.1.1.2, h.1.1.1.2, h.1.1.2, h.1.2, h.2⟩

/-- Whether one thread alone issues an instruction, as `Sole` says. -/
def soleB (s : State) (g : Gang) (op : Op) (x : Ext) (len : Nat) (u : Tid) : Bool :=
  issuingB s g op x len && decide (g.members = [(0, u)]) && (AMap.find? u.team s.teams).isSome &&
    decide ((s.thread u).status = .ready) && laneActive x (s.thread u)

theorem sole_of {s : State} {g : Gang} {op : Op} {x : Ext} {len : Nat} {u : Tid}
    (h : soleB s g op x len u = true) : Sole s g op x len u := by
  simp only [soleB, Bool.and_eq_true, decide_eq_true_eq] at h
  exact { toIssuing := issuing_of h.1.1.1.1, only := ⟨0, h.1.1.1.2⟩, team := h.1.1.2, ready := h.1.2,
          active := h.2 }

/-- Thread `l` of the one squad. -/
def lane (l : Nat) : Tid := ⟨1, 0, l⟩

/-- The gang of the first `n` threads of the one squad. -/
def gangOf (n : Nat) : Gang :=
  ⟨0, .ofNat 64 placedCode, none, (List.range n).map fun l => (l, lane l), false⟩

/-- A privileged launch with one team of one squad of `n` threads on core 0, which stand at the placed
instruction with the registers that `f` gives them; the placed page is mapped. -/
def world (n : Nat) (f : Thread → Thread) : State :=
  { State.reset.placeCode [] with
    threads := (List.range n).map fun l => (lane l, f (placedThread 0))
    squads := [(⟨1, 0⟩, { Squad.blank with lead := some 0, code := .ofNat 64 placedCode })]
    teams := [(1, { Team.blank with lid := 1, part := 0x040404 })]
    launches := [(1, placedLaunch)]
    cores := [(0, { Core.reset with order := [⟨1, 0⟩], slots := [(0, 1)] })]
    serial := 2
    agenda := []
    gang := some (gangOf n) }

/-- Registers of a thread set. -/
def withRegs (l : List (Nat × Nat)) (th : Thread) : Thread :=
  th.setRegs (l.map fun p => (p.1, BitVec.ofNat 32 p.2))

/-- Whether the first `n` threads issue an instruction together. -/
def meets (s : State) (n : Nat) (i : Instr) : Bool :=
  match i.simt with
  | some (op, x, len) => issuingB s (gangOf n) op x len
  | none => false

theorem meets_sound {s : State} {n : Nat} {i : Instr} (h : meets s n i = true) :
    ∃ op x len, i.simt = some (op, x, len) ∧ Issuing s (gangOf n) op x len := by
  unfold meets at h
  split at h
  · exact ⟨_, _, _, by assumption, issuing_of h⟩
  · exact absurd h (by simp)

/-- Whether the one thread issues an instruction alone. -/
def meetsSole (s : State) (i : Instr) : Bool :=
  match i.simt with
  | some (op, x, len) => soleB s (gangOf 1) op x len (lane 0)
  | none => false

theorem meetsSole_sound {s : State} {i : Instr} (h : meetsSole s i = true) :
    ∃ op x len, i.simt = some (op, x, len) ∧ Sole s (gangOf 1) op x len (lane 0) := by
  unfold meetsSole at h
  split at h
  · exact ⟨_, _, _, by assumption, sole_of h⟩
  · exact absurd h (by simp)

/-- What a next state says of one thread's registers. -/
def xAfter (o : Out) (l r : Nat) : Option Nat :=
  match o with
  | .next t => some ((t.thread (lane l)).x r).toNat
  | _ => none

def pAfter (o : Out) (l p : Nat) : Option Bool :=
  match o with
  | .next t => some ((t.thread (lane l)).p p)
  | _ => none

def flagsAfter (o : Out) (l : Nat) : Option Nat :=
  match o with
  | .next t => some (t.thread (lane l)).fflags.toNat
  | _ => none

def pcAfter (o : Out) (l : Nat) : Option Nat :=
  match o with
  | .next t => some ((t.thread (lane l)).pc.toNat - placedCode)
  | _ => none

def x0 : Ext := .zero

/-! ## Decoding (R174-R186, with the spec's worked words) -/

theorem test_decode_integer : decodeSimt 0x070C1404 = .ok (.add false 7 6 5) 4 := by decide
theorem test_decode_branch : decodeSimt 0xFD002480 = .ok (.br 0xFD true 1) 4 := by decide
theorem test_decode_compare : decodeSimt (0x000A0875 + 0x00000500 * 2 ^ 32 + 0x00028081 * 2 ^ 64) =
    .ok (.cmp { x0 with d := 2, a := 5, ty := 5, imm := 10, sub := 2, sel := 1 }) 12 := by decide
theorem test_decode_squad : decodeSimt (0x0012251D + 0x00000001 * 2 ^ 32 + 0x000040C2 * 2 ^ 64) =
    .ok (.shfl { x0 with d := 9, a := 9, gp := 1, imm := 1, sub := 3, sel := 2 }) 12 := by decide
theorem test_decode_load : decodeSimt (0x00082A01 + 0x18000E32 * 2 ^ 32 + 0x00040000 * 2 ^ 64) =
    .ok (.ld { x0 with d := 10, a := 4, gp := 2, la := 3, ty := 14, rf := 3, imm := 16 }) 12 := by decide
theorem test_decode_float_base : decodeSimt 0x830C1580 = .ok (.fadd true 3 6 5) 4 := by decide
theorem test_decode_fma : decodeSimt (0x0B14258D + 0x00018E00 * 2 ^ 32) =
    .ok (.fma { x0 with d := 9, a := 10, b := 11, c := 12, ty := 14 }) 12 := by decide
theorem test_decode_frcp : decodeSimt (0x000A11A9 + 0x00000E20 * 2 ^ 32) =
    .ok (.frcp { x0 with d := 4, a := 5, ty := 14, la := 2 }) 12 := by decide
theorem test_decode_cvt : decodeSimt (0x00101DC1 + 0x00000500 * 2 ^ 32 + 0x00038040 * 2 ^ 64) =
    .ok (.cvt { x0 with d := 7, a := 8, ty := 5, imm := 14, sub := 1 }) 12 := by decide
theorem test_decode_ctxsave : decodeSimt (0x000003DD + 0x00608000 * 2 ^ 32) =
    .ok (.ctxsave { x0 with c := 4, e := 6 }) 12 := by decide
/-- LEN 11: a BR with a Target literal of -16 bytes (R174, R179). -/
theorem test_decode_literal : decodeSimt (3 + 0x20 * 4 + (2 ^ 64 - 16) * 2 ^ 96) =
    .ok (.brExt { x0 with lit := some (-16) }) 20 := by decide
/-- LEN 10: an ST with D 10, A 4 and a displacement literal of 0x1000 (R174, R179). -/
theorem test_decode_base_literal : decodeSimt (2 + 0x81 * 4 + 10 * 2 ^ 10 + 4 * 2 ^ 17 + 0x1000 * 2 ^ 32) =
    .ok (.stExt { x0 with d := 10, a := 4, lit := some 0x1000, short := true }) 12 := by decide
/-- Words by R175 and R176 for the families without a worked word: TRAP 3, MMA of h16 with D 4, PUT with
A 4, XLOOK, SEALREF and TINC, extended. -/
theorem test_decode_system : decodeSimt (0xF0 * 4 + 3 * 2 ^ 24) = .ok (.trap 3) 4 := by decide
theorem test_decode_matrix : decodeSimt (1 + 0xC3 * 4 + 6 * 2 ^ 17 + 8 * 2 ^ 24 +
    (12 * 2 ^ 8 + 10 * 2 ^ 13 + 12 * 2 ^ 20) * 2 ^ 32) =
    .ok (.mma { x0 with a := 6, b := 8, c := 10, e := 12, ty := 12 }) 12 := by decide
theorem test_decode_engine : decodeSimt (1 + 0xE2 * 4 + 3 * 2 ^ 10 + 4 * 2 ^ 17 + 8 * 2 ^ 24 +
    (10 * 2 ^ 13 + 12 * 2 ^ 20) * 2 ^ 32) = .ok (.put { x0 with d := 3, a := 4, b := 8, c := 10, e := 12 }) 12 := by
  decide
theorem test_decode_seal : decodeSimt (1 + 0xE9 * 4 + 5 * 2 ^ 10 + (8 * 2 ^ 13) * 2 ^ 32 + 2 * 2 ^ 6 * 2 ^ 64) =
    .ok (.sealref { x0 with d := 5, c := 8, sub := 2 }) 12 := by decide
theorem test_decode_task : decodeSimt (1 + 0xA3 * 4 + 4 * 2 ^ 17 + (6 * 2 ^ 13) * 2 ^ 32) =
    .ok (.tinc { x0 with a := 4, c := 6 }) 12 := by decide
theorem test_decode_scribe_fence : decodeScribe 0x0C600039 = .ok (.scribeFence 0x63) 4 := by decide
theorem test_decode_scribe_load : decodeScribe 0x00200918 = .ok (.sld 1 1 4) 4 := by decide
theorem test_decode_scribe_vector : decodeScribe 0x000118A3 = .ok (.vfma 0 1 3 2) 4 := by decide
theorem test_decode_scribe_scalar : decodeScribe 0x080018C1 = .ok (.sadd 0x40 0 3 3) 4 := by decide
theorem test_decode_scribe_masked : decodeScribe 0x2006291E = .ok (.vaadd 1 0 6 5 4) 4 := by decide
theorem test_decode_scribe_loop : decodeScribe 0x1F5F2813 = .ok (.scribeLoop 0xFA 0x1F 5) 4 := by decide

/-! Encodings that are refused: each check of R181 and R299 by its cause. -/

theorem test_refuse_zero_word : decodeSimt 0 = .trap 0x01 := by decide
theorem test_refuse_opcode : decodeSimt (0x29 * 4) = .trap 0x02 := by decide
theorem test_refuse_reserved : decodeSimt (0x12 * 4 + 2 ^ 24) = .trap 0x03 := by decide
theorem test_refuse_length : decodeSimt (0x1D * 4) = .trap 0x04 := by decide
theorem test_refuse_type : decodeSimt (1 + 0x01 * 4 + 14 * 2 ^ 40) = .trap 0x05 := by decide
theorem test_refuse_subop : decodeSimt (1 + 0x1D * 4 + 6 * 2 ^ 6 * 2 ^ 64) = .trap 0x0A := by decide
theorem test_refuse_scribe_mask : decodeScribe (0x20 + 4 * 2 ^ 29) = .trap 0x03 := by decide
theorem test_refuse_scribe_type : decodeScribe (0x20 + 2 * 2 ^ 21) = .trap 0x05 := by decide
theorem test_refuse_scribe_subop : decodeScribe (0x0C + 8 * 2 ^ 21) = .trap 0x0A := by decide
theorem test_refuse_scribe_register : decodeScribe (0x0A + 128 * 2 ^ 21) = .trap 0x06 := by decide

/-! Ill-formed terms: one for each check of `Instr.wf`. -/

theorem test_wf_accepts : (Instr.cmp { x0 with d := 2, a := 5, sub := 5 }).wf = true := by decide
theorem test_wf_length : (Instr.addExt { x0 with lit := some 1 }).wf = false := by decide
theorem test_wf_reserved : (Instr.addExt { x0 with la := 1 }).wf = false := by decide
theorem test_wf_short : (Instr.stExt { x0 with short := true, lit := some 1, gp := 1 }).wf = false := by decide
theorem test_wf_type : (Instr.addExt { x0 with ty := 14 }).wf = false := by decide
theorem test_wf_subop : (Instr.vote { x0 with sub := 3 }).wf = false := by decide
theorem test_wf_scribe : (Instr.vadd 4 0 0 0 0).wf = false := by decide
theorem test_wf_site : (Instr.reticleOut 60).wf = false := by decide
theorem test_wf_encoded : (Instr.vfma 0 1 3 2).wf = true ∧ encode (.vfma 0 1 3 2) = some (0x000118A3, 4) := by
  decide
theorem test_wf_encoded_simt : (Instr.add false 7 6 5).wf = true ∧
    encode (.add false 7 6 5) = some (0x070C1404, 4) := by decide
theorem test_wf_encoded_short : (Instr.stExt { x0 with d := 10, a := 4, lit := some 0x1000, short := true }).wf =
    true := by decide

/-! ## The hypotheses of the statements on instructions of the register groups -/

theorem test_meets_TwoSourceInstructions : [Instr.add false 7 6 5, .subExt { x0 with b := 7, a := 6, d := 5, ty := 5 },
    .mul true 3 6 5, .mulhExt { x0 with b := 8, a := 6, d := 4, ty := 8 }, .adds false 7 6 5,
    .subsExt { x0 with a := 6, d := 5, imm := 0x80, sel := 1, ty := 1 }, .and false 7 6 5, .or true 1 6 5,
    .xor false 7 6 5, .andn false 7 6 5, .shlExt { x0 with b := 9, a := 6, d := 4, ty := 10 }, .shr false 7 6 5,
    .sar false 7 6 5, .rol false 7 6 5, .min false 7 6 5, .maxExt { x0 with b := 7, a := 6, d := 5, ty := 6 }].all
      (meets (world 2 id) 2) = true := by decide
theorem test_meets_OneSourceInstructions : [Instr.abs 6 5, .neg 6 5, .clz 6 5,
    .popcExt { x0 with a := 6, d := 4, ty := 10 }, .brev 6 5].all (meets (world 2 id) 2) = true := by decide
theorem test_meets_ThreeSourcesAndMoves : [Instr.mad { x0 with a := 6, b := 7, c := 8, d := 5 },
    .bfx { x0 with a := 6, d := 5, imm := 31, sel := 2, e := 64 }, .bfi { x0 with a := 6, d := 5, imm := 4, sel := 2, e := 8 },
    .sel { x0 with a := 6, d := 5, b := 7, c := 1 }, .mov 6 5, .movExt { x0 with d := 5, imm := 0xFF, sel := 1 },
    .ldi 0xFF 5, .lea { x0 with a := 6, d := 4, imm := 0x80 }].all (meets (world 2 id) 2) = true := by decide
theorem test_meets_ComparisonAndDivision : [Instr.cmp { x0 with d := 2, a := 5, ty := 5, imm := 10, sub := 2, sel := 1 },
    .div { x0 with d := 5, a := 6, b := 7, la := 2 }, .rem { x0 with d := 4, a := 6, b := 8, ty := 7, la := 15 }].all
      (meets (world 2 id) 2) = true := by decide
theorem test_meets_Comparison_subop : decodeCheck .cmp { x0 with d := 2, sub := 0 } = none ∧
    6 ≤ ({ x0 with d := 2, sub := 6 } : Ext).sub.toNat := by decide
theorem test_meets_PredicateInstructions : [Instr.pand 1 2 3, .por 1 2 7, .pxorExt { x0 with b := 1, a := 2, d := 3, gp := 1, gn := true },
    .pnot 1 0, .pset 6 1, .pget 1 5].all (meets (world 2 id) 2) = true := by decide
theorem test_meets_PredicateInstructions_field : decodeCheck .pget { x0 with a := 8 } = none := by decide
theorem test_meets_VotesShufflesElections : [Instr.vote { x0 with a := 1, d := 2 }, .vote { x0 with a := 1, d := 4, sub := 2 },
    .shfl { x0 with d := 9, a := 9, imm := 1, sub := 3, sel := 2, e := 1 }, .elect { x0 with d := 1, e := 5 },
    .match { x0 with d := 4, a := 6, e := 1 }].all (meets (world 2 id) 2) = true := by decide
theorem test_meets_Vote_subop : decodeCheck .vote { x0 with sub := 0 } = none ∧
    decodeCheck .shfl { x0 with sub := 0 } = none := by decide
theorem test_meets_Comparison_type : [Op.cmp, .div, .rem].all (fun o => decodeCheck o { x0 with d := 2 } == none &&
    decodeCheck o { x0 with d := 2, ty := 14 } == some 0x05) = true := by decide
theorem test_meets_Shuffle_type : [Op.shfl, .match].all (fun o => decodeCheck o { x0 with d := 2 } == none &&
    decodeCheck o { x0 with d := 2, ty := 5 } == some 0x05) = true := by decide
theorem test_meets_PredicateInstructions_bk :
    [0x40, 0x41, 0x42].all (fun n => decodeSimt (n * 4 + 2 ^ 31) == .trap 0x03) = true := by decide
theorem test_meets_ReduceAndScan : [Instr.sred { x0 with d := 5, a := 6, ty := 14, sub := 6 },
    .sscan { x0 with d := 5, a := 6, sub := 16 }].all (meets (world 2 id) 2) = true := by decide
theorem test_meets_FloatArithmetic : [Instr.fadd false 7 6 5, .fsubExt { x0 with b := 8, a := 6, d := 4, ty := 15 },
    .fmul true 3 6 5, .fma { x0 with a := 6, b := 7, c := 8, d := 5, ty := 19 }, .fmin false 7 6 5, .fmax false 7 6 5,
    .fabs 6 5, .fnegExt { x0 with a := 6, d := 5, ty := 16 }, .frnd { x0 with a := 6, d := 5, ty := 12, sub := 3 }].all
      (meets (world 2 id) 2) = true := by decide
theorem test_meets_FloatLongLatency : [Instr.fdiv { x0 with a := 6, b := 7, d := 5, ty := 14 },
    .fsqrt { x0 with a := 6, d := 4, ty := 15, la := 1 }, .frcp { x0 with a := 5, d := 4, ty := 14, la := 2 },
    .frsq { x0 with a := 5, d := 4, ty := 14 }, .fexp2 { x0 with a := 5, d := 4, ty := 13 },
    .flog2 { x0 with a := 5, d := 4, ty := 19 }].all (meets (world 2 id) 2) = true := by decide
theorem test_meets_FloatTestsAndDots : [Instr.fscale false 7 6 5,
    .fcmp { x0 with d := 1, a := 5, b := 6, e := 2, ty := 14, sub := 7 }, .fclass 6 5,
    .dot4 { x0 with d := 9, a := 10, b := 11, c := 12, ty := 21, sub := 1 }, .dot2 { x0 with d := 9, a := 10, b := 11, c := 12, ty := 19 },
    .fflags { x0 with d := 5, sub := 1 }, .fflags { x0 with a := 5, sub := 3 }].all (meets (world 2 id) 2) = true := by decide
theorem test_meets_FloatTests_finite : (Fmt.f32.decode 0x80000000).isFinite = true ∧
    (Fmt.f32.decode 0x7F7FFFFF).isFinite = true := by decide
theorem test_meets_Conversions : [Instr.cvt { x0 with d := 7, a := 8, ty := 5, imm := 14, sub := 1 },
    .cvtsr { x0 with d := 7, a := 8, ty := 12, imm := 14 }].all (meets (world 2 id) 2) = true := by decide
theorem test_meets_SystemValues : [Instr.sysrd 8 5, .sysrdExt { x0 with d := 5, imm := 2 }, .clock 4,
    .clockExt { x0 with d := 4, sub := 1 }].all (meets (world 2 id) 2) = true := by decide
theorem test_meets_RoundingToNearest : Fmt.e4m3 ∈ [Fmt.h16, .bf16, .f32, .f64, .e4m3, .e5m2] ∧
    (Fmt.e4m3.round .rn false 3 (-10) false).flags &&& (flagOF ||| flagSAT) = 0 := by decide

/-- BRI to an aligned address below 2^52, and the branches that need nothing. -/
theorem test_meets_Branches : [Instr.br 0xFD true 1, .brExt { x0 with lit := some 64 }, .bri 6,
    .loop { x0 with d := 5, imm := 0xFE }, .nop, .nopExt { x0 with gp := 1 }].all (meets (world 2 id) 2) = true ∧
    ∀ m ∈ (gangOf 2).members, (((world 2 id).thread m.2).xp 6).toNat < 2 ^ 52 ∧
      (((world 2 id).thread m.2).xp 6).toNat % 4 = 0 := by decide
/-- RET at depth 1: its entry is present, good and holds a PC below 2^52. -/
def called : State := world 2 fun th => { th with depth := 1 }
theorem test_meets_Returns : [Instr.ret, .retExt { x0 with gp := 1 }].all (meets called 2) = true ∧
    ∀ m ∈ (gangOf 2).members, 0 < (called.thread m.2).depth ∧
      called.lineAbsent m.2.team (called.stackLoc m.2 0) 8 = none ∧
      called.badLoc m.2.team (called.stackLoc m.2 0) 8 = false ∧
      called.readLoc m.2.team (called.stackLoc m.2 0) 8 < 2 ^ 52 := by decide
theorem test_meets_Calls : [Instr.call 4 false 0, .callExt { x0 with imm := 4 }, .calli 6].all (meetsSole (world 1 id)) =
    true ∧ ((world 1 id).thread (lane 0)).depth < ((world 1 id).launchOf (lane 0)).depth ∧
    (world 1 id).badLoc 1 ((world 1 id).stackLoc (lane 0) 0) 8 = false ∧
    (((world 1 id).thread (lane 0)).xp 6).toNat % 4 = 0 := by decide
theorem test_meets_Barriers : [Instr.ssync, .ssyncExt x0, .tbar, .tbarExt x0].all (meetsSole (world 1 id)) = true ∧
    (world 1 id).liveOf ⟨1, 0⟩ = [lane 0] ∧ ((world 1 id).thread (lane 0)).pc = (gangOf 1).pc := by decide
/-- TBAR of one thread of two, the other not at a TBAR. -/
def two : State := { world 2 id with gang := some (gangOf 1) }
theorem test_meets_Barriers_waiting : meetsSole two .tbar = true ∧
    ∃ q ∈ two.squadsOfTeam 1, ∃ w ∈ two.liveOf q, w ≠ lane 0 ∧ (two.thread w).tbarLen = none := by decide
theorem test_meets_ExitYieldRealign : [Instr.exit, .exitExt x0, .realign 6, .realignExt x0].all (meetsSole (world 1 id)) =
    true ∧ [Instr.yield, .yieldExt { x0 with gp := 1 }].all (meets (world 2 id) 2) = true := by decide

/-! ## Memory, waiting and rings -/

/-- The state after an access's checks, where they pass. -/
def okState : Checked → State
  | .ok _ s => s
  | _ => State.reset

/-- The location that an access's checks lead to, where they pass. -/
def okLoc : Checked → Option Loc
  | .ok l _ => some l
  | _ => none

theorem ok_of {c : Checked} {l : Loc} (h : okLoc c = some l) : c = .ok l (okState c) := by
  cases c <;> simp_all [okLoc, okState]

def checkedAt (s : State) (k : Issue) (u : Tid) (n : Nat) (kind : AccessKind) : Checked :=
  (s.issuing u).checkAddr k.core u.team (s.launchOf u).space (effAddr s k u) n n kind

theorem reaches_of {s : State} {k : Issue} {u : Tid} {n : Nat} {kind : AccessKind} {l : Loc}
    (h : okLoc (checkedAt s k u n kind) = some l) :
    Reaches s k u n kind (.ok l (okState (checkedAt s k u n kind))) := ok_of h

/-- A completion operand of 0 names nothing to signal. -/
theorem noSignal {s : State} {c : Nat} {n : Option Nat} {sp : Space} {op : DWord} (h : sigAddr op = 0) :
    s.checkCompletion c n sp op = .ok s := by simp [State.checkCompletion, h]

/-- x4:x5 at offset 16 of the scratchpad. -/
def near : State := world 1 (withRegs [(4, 16), (5, 2 ^ 24), (10, 0xCAFE), (11, 1)])
/-- x4:x5 at a mapped global address. -/
def far : State := world 1 (withRegs [(4, 0x10008000)])
/-- x4:x5 at a page that is valid and not resident. -/
def gone : State := { far with
  mem := far.mem.writeNat placedTable 8 5
  threads := [(lane 0, withRegs [(4, 0x8000)] (placedThread 0))] }

def loadNear : Ext := { x0 with d := 10, a := 4, ty := 14, la := 3, rf := 1 }

def kNear (op : Op) (x : Ext) : Issue := (gangOf 1).issue op x 12

theorem test_meets_Loads : Sole near (gangOf 1) .ld loadNear 12 (lane 0) ∧ ∃ s1,
    Reaches near (kNear .ld loadNear) (lane 0) 4 .read (.ok (.scr 0 16) s1) ∧
    s1.lineAbsent 1 (.scr 0 16) 4 = none ∧ s1.badLoc 1 (.scr 0 16) 4 = false :=
  ⟨sole_of (by decide), _, reaches_of (by decide), by decide, by decide⟩
def absentB : Checked → Bool
  | .absent => true
  | _ => false
theorem test_meets_Loads_absent : Sole gone (gangOf 1) .ld loadNear 12 (lane 0) ∧
    Reaches gone (kNear .ld loadNear) (lane 0) 4 .read .absent ∧ loadNear.rf ≠ 0 :=
  ⟨sole_of (by decide), (by
    have h : absentB (checkedAt gone (kNear .ld loadNear) (lane 0) 4 .read) = true := by decide
    unfold absentB at h
    split at h
    · assumption
    · exact absurd h (by simp)), by decide⟩
theorem test_meets_StoresToMemory : (Instr.st 0 4 10).simt = some (.st, .bi 0 4 10, 4) ∧
    Sole near (gangOf 1) .st (.bi 0 4 10) 4 (lane 0) ∧ ∃ s1,
    Reaches near ((gangOf 1).issue .st (.bi 0 4 10) 4) (lane 0) 4 .write (.ok (.scr 0 16) s1) ∧
    (Loc.scr 0 16).plain = true ∧ s1.badLoc 1 (.scr 0 16) 4 = false :=
  ⟨by decide, sole_of (by decide), _, reaches_of (by decide), by decide, by decide⟩
/-- A store to DRAM: its translation succeeds in the mapped page. -/
theorem test_meets_StoresToMemory_global : Sole far (gangOf 1) .st (.bi 0 4 10) 4 (lane 0) ∧ ∃ s1,
    Reaches far ((gangOf 1).issue .st (.bi 0 4 10) 4) (lane 0) 4 .write (.ok (.glob 0x10008000) s1) ∧
    (Loc.glob 0x10008000).plain = true ∧ s1.badLoc 1 (.glob 0x10008000) 4 = false :=
  ⟨sole_of (by decide), _, reaches_of (by decide), by decide, by decide⟩
def casNear : Ext := { x0 with d := 10, a := 4, c := 11, e := 12 }
theorem test_meets_Atomics : [Instr.atom { x0 with d := 10, a := 4, c := 11, ty := 5 }, .cas casNear,
      .faddw { x0 with d := 10, a := 4, c := 11, sub := 1, ty := 14 }].all (meetsSole near) = true ∧ ∃ s1,
    Reaches near (kNear .cas casNear) (lane 0) 4 .atomic (.ok (.scr 0 16) s1) ∧
    (Loc.scr 0 16).plain = true ∧ s1.lineAbsent 1 (.scr 0 16) 4 = none ∧ s1.badLoc 1 (.scr 0 16) 4 = false :=
  ⟨by decide, _, reaches_of (by decide), by decide, by decide, by decide⟩
def redNear : Ext := { x0 with a := 4, c := 11, ty := 14, sub := 8 }
theorem test_meets_Reductions : Sole near (gangOf 1) .red redNear 12 (lane 0) ∧ ∃ s1,
    Reaches near (kNear .red redNear) (lane 0) 4 .atomic (.ok (.scr 0 16) s1) ∧
    (Loc.scr 0 16).plain = true ∧ s1.lineAbsent 1 (.scr 0 16) 4 = none ∧ s1.badLoc 1 (.scr 0 16) 4 = false :=
  ⟨sole_of (by decide), _, reaches_of (by decide), by decide, by decide, by decide⟩
theorem test_meets_HintsFencesPageRequests : meetsSole near (.fence { x0 with sel := 1 }) = true ∧
    [Instr.pref 0 4, .prefExt { x0 with a := 4, rf := 2 }, .clhint { x0 with a := 4 }].all (meetsSole near) = true ∧
    ∃ s1, Reaches near (kNear .clhint { x0 with a := 4 }) (lane 0) 1 .read (.ok (.scr 0 16) s1) :=
  ⟨by decide, by decide, _, reaches_of (by decide)⟩
def page : Ext := { x0 with a := 4, c := 6 }
theorem test_meets_PageRequests : Sole gone (gangOf 1) .pagereq page 12 (lane 0) ∧
    (gone.issuing (lane 0)).checkCompletion 0 (some 1) (gone.launchOf (lane 0)).space
      ((gone.thread (lane 0)).xp 6) = .ok (gone.issuing (lane 0)) ∧
    (effAddr gone (kNear .pagereq page) (lane 0)).toNat < 2 ^ 52 :=
  ⟨sole_of (by decide), noSignal (by decide), by decide⟩
/-- The word is 0: unequal to the expected 1, so WAITW goes on; equal to the expected 0, so it parks. -/
def waitNear (c : BitVec 7) : Ext := { x0 with d := 10, a := 4, c, e := 12, sub := 0 }
theorem test_meets_WaitsAndRings : Sole near (gangOf 1) .waitw (waitNear 11) 12 (lane 0) ∧
    Sole near (gangOf 1) .waitw (waitNear 13) 12 (lane 0) ∧ ∃ s1,
    Reaches near (kNear .waitw (waitNear 11)) (lane 0) 4 .read (.ok (.scr 0 16) s1) ∧
    s1.lineAbsent 1 (.scr 0 16) 4 = none ∧ s1.badLoc 1 (.scr 0 16) 4 = false ∧
    ¬s1.readLoc 1 (.scr 0 16) 4 = (near.thread (lane 0)).xs 11 1 ∧
    s1.readLoc 1 (.scr 0 16) 4 = (near.thread (lane 0)).xs 13 1 :=
  ⟨sole_of (by decide), sole_of (by decide), _, reaches_of (by decide), by decide, by decide, by decide, by decide⟩
/-- Ring 1 registered at offset 0 with two slots, empty, and with one slot filled. -/
def ring (filled : Nat) : State := { near with
  teams := [(1, { Team.blank with
    lid := 1, part := 0x040404, ringCfg := [(1, .ofNat 64 (2 ^ 63 + 2 ^ 36))], ringTail := [(1, .ofNat 32 filled)]
    scratch0 := Memory.writeNat [] 4 4 filled })] }
theorem test_meets_Rings : [0, 1].all (fun n => ((ring n).team 1).ringOn 1 && !(ring n).badRing 1 1 &&
    meetsSole (ring n) (.rwait { x0 with d := 5, imm := 1 }) && meetsSole (ring n) (.rpop 1)) = true := by decide

/-! ## Task records -/

/-- A record at 0x10008000 of a given COUNT and STATE. -/
def record (count state : Nat) : State := { far with
  mem := far.mem.writeNat 0x10008000 8 (count + state * 2 ^ 32)
  threads := [(lane 0, withRegs [(4, 0x10008000), (6, 1)] (placedThread 0))] }
def count : Ext := { x0 with a := 4, c := 6 }
def recordCheck (s : State) : Checked :=
  (s.issuing (lane 0)).checkAddr 0 1 (s.launchOf (lane 0)).space (effAddr s (kNear .tdec count) (lane 0)) 64 64 .atomic
theorem test_meets_TaskCounts : [Instr.tinc count, .tdec count].all (meetsSole (record 2 1)) = true ∧
    isGlobal (effAddr (record 2 1) (kNear .tdec count) (lane 0)) = true ∧ ∃ s1,
    recordCheck (record 2 1) = .ok (.glob 0x10008000) s1 ∧ s1.badLoc 1 (.glob 0x10008000) 64 = false ∧
    isRegisterPa 0x10008000 = false ∧ recState s1 0x10008000 = 1 ∧ recCount s1 0x10008000 = 2 :=
  ⟨by decide, by decide, _, ok_of (by decide), by decide, by decide, by decide, by decide⟩
theorem test_meets_TaskCounts_ready : ∃ s1, recordCheck (record 1 1) = .ok (.glob 0x10008000) s1 ∧
    recState s1 0x10008000 = 1 ∧ recCount s1 0x10008000 = 1 ∧ recScribe s1 0x10008000 = false ∧
    (s1.site (recSite s1 0x10008000)).readyQ.length < readyLimit :=
  ⟨_, ok_of (by decide), by decide, by decide, by decide, by decide⟩
def isOk {ε α : Type} : Except ε α → Bool
  | .ok _ => true
  | .error _ => false
theorem isOk_sound {ε α : Type} {r : Except ε α} (h : isOk r = true) : ∃ v, r = .ok v := by
  cases r <;> simp_all [isOk]
def cont : Ext := { x0 with a := 4, c := 8, e := 10 }
theorem test_meets_TaskSpawns : [Instr.tspawn { x0 with a := 4 }, .defer cont].all (meetsSole (record 1 0)) = true ∧
    ∃ s1, recordCheck (record 1 0) = .ok (.glob 0x10008000) s1 ∧ recMalformed s1 0x10008000 8 = false ∧
    recState s1 0x10008000 = 0 ∧ 0 < recCount s1 0x10008000 ∧
    (∃ s2, spawnChecks (kNear .tspawn { x0 with a := 4 }) (lane 0) s1 0x10008000 placedCode = .ok s2) :=
  ⟨by decide, _, ok_of (by decide), by decide, by decide, by decide, isOk_sound (by decide)⟩
/-- A DEFER of the continuation that a WAITING record already holds. -/
theorem test_meets_TaskSpawns_again :
    let s := { record 1 1 with mem := (record 1 1).mem.writeNat 0x10008010 8 placedCode }
    meetsSole s (.defer cont) = true ∧ ∃ s1, recordCheck s = .ok (.glob 0x10008000) s1 ∧
      recState s1 0x10008000 = 1 ∧ recEntry s1 0x10008000 = 0 ∧ recCode s1 0x10008000 = placedCode ∧
      recArg s1 0x10008000 = 0 :=
  ⟨by decide, _, ok_of (by decide), by decide, by decide, by decide, by decide⟩

/-! ## Traps, control registers and system instructions -/

theorem test_meets_TrapsAndHandlerReturns : [Instr.trap 3, .trapExt { x0 with imm := 31 }, .bkpt, .bkptExt x0].all
    (meetsSole (world 1 id)) = true ∧ (world 1 id).coreOf (lane 0).sid = 0 := by decide
def handler : State := world 2 fun th => { th with depth := 1, hnd := true }
theorem test_meets_HandlerReturns : [Instr.rett, .rettExt { x0 with gp := 1 }].all (meets handler 2) = true ∧
    ∀ m ∈ (gangOf 2).members, (handler.thread m.2).hnd = true ∧ (handler.thread m.2).windows.all (·.complete) = true ∧
      0 < (handler.thread m.2).depth ∧ handler.lineAbsent m.2.team (handler.stackLoc m.2 0) 8 = none ∧
      handler.badLoc m.2.team (handler.stackLoc m.2 0) 8 = false ∧
      handler.readLoc m.2.team (handler.stackLoc m.2 0) 8 < 2 ^ 52 := by decide
theorem test_meets_ControlRegisters : ([0x01, 0x02, 0x08, 0x10, 0x11, 0x12, 0x13, 0x18, 0x1F, 0x20, 0x23, 0x28, 0x2D,
    0x30, 0x40] : List (BitVec 8)).all (fun n => meets (world 2 id) 2 (.csrrd n 4)) = true := by decide
/-- x4:x5 registers a ring of two slots; x6:x7 withdraws one. -/
def ringWord : State := world 1 (withRegs [(5, 2 ^ 31 + 2 ^ 4)])
theorem test_meets_CsrWrites : ([0x01, 0x02, 0x18, 0x1F, 0x20, 0x23, 0x28, 0x2D, 0x30, 0x40] : List (BitVec 8)).all
      (fun n => meetsSole ringWord (.csrwr n 4)) = true ∧
    ((.ofNat 64 ((ringWord.thread (lane 0)).xs 4 2) : DWord).getLsbD 63 = true) ∧
    badRingCfg (ringWord.team 1) 0 ((ringWord.thread (lane 0)).xs 4 2) = false ∧
    ((.ofNat 64 ((ringWord.thread (lane 0)).xs 6 2) : DWord).getLsbD 63 = false) ∧
    ringWord.ringWaiters 1 0 = [] := by decide
theorem test_meets_SystemInstructions : [Instr.tlbinv { x0 with a := 4, sel := 2 }, .tlbinv { x0 with a := 4, sel := 3, sub := 1 }].all
    (meetsSole (world 1 id)) = true := by decide
/-- HALT where the core cannot be halted, and where it can: a debug level above 0 with the core in scope
(R365). -/
theorem test_meets_Halts : meetsSole (world 1 id) .halt = true ∧ ((world 1 id).core 0).bltStall = false ∧
    ((world 1 id).haltCapable && (world 1 id).inScope 0) = false := by decide
def debug : State := { (world 1 id).activate 0 with dbgstate := 2 + 2 ^ 15 }
theorem test_meets_ContextOperations : [Instr.ctxsave { x0 with c := 4, e := 6 }, .ctxload { x0 with c := 4, e := 6 }].all
      (meetsSole (world 1 id)) = true ∧ (((world 1 id).thread (lane 0)).x 4).toNat < 64 ∧
    ((world 1 id).issuing (lane 0)).checkCompletion 0 (some 1) ((world 1 id).launchOf (lane 0)).space
      (((world 1 id).thread (lane 0)).xp 6) = .ok ((world 1 id).issuing (lane 0)) ∧
    AMap.find? 0 ((world 1 id).core 0).slots = some 1 ∧ ((world 1 id).team 1).frozen = false ∧
    (AMap.getD ((world 1 id).site 0).ctxbase (0, 0) 0).toNat % 256 = 0 :=
  ⟨by decide, by decide, noSignal (by decide), by decide, by decide, by decide⟩

/-! ## The matrix engine -/

/-- Whether the threads of one squad issue an instruction, as `OneSquad` says. -/
def oneSquadB (s : State) (g : Gang) (op : Op) (x : Ext) (len : Nat) (q : Sid) : Bool :=
  issuingB s g op x len && g.members.all (fun m => m.2.sid == q) &&
    g.members.any (fun m => laneActive x (s.thread m.2)) && (AMap.find? q.team s.teams).isSome &&
    (s.team q.team).cores.all fun c => siteOf c == siteOf g.core

theorem oneSquad_of {s : State} {g : Gang} {op : Op} {x : Ext} {len : Nat} {q : Sid}
    (h : oneSquadB s g op x len q = true) : OneSquad s g op x len q := by
  simp only [oneSquadB, Bool.and_eq_true, List.all_eq_true, List.any_eq_true, beq_iff_eq] at h
  exact { toIssuing := issuing_of h.1.1.1.1, squad := h.1.1.1.2, some_active := h.1.1.2, team := h.1.2,
          here := h.2 }

def sq : Sid := ⟨1, 0⟩

/-- A squad of eight whose team holds the lease, with a reservation of one unit of h16 in record 0 at unit
0, and in lane 0 (and all others) x6:x7 a scratchpad address, x8:x9 the op word, x10:x11 a shape of 8 x 16
with one chunk and x12:x13 that shape without chunks. -/
def engine : State :=
  let s := world 8 (withRegs [(4, 1), (7, 2 ^ 24), (8, 0), (9, 32 + 32 * 2 ^ 16), (10, 1 + 2 ^ 8 + 2 ^ 16), (11, 2 ^ 16),
    (12, 1 + 2 ^ 8), (13, 2 ^ 16), (14, 0x1000), (15, 2 ^ 24)])
  { s with cores := [(0, { s.core 0 with
      lease := { (s.core 0).lease with holder := some 1, left := 8 }
      records := [(0, .ofNat 64 (2 ^ 63 + 2 ^ 44 + 12 * 2 ^ 39))] })] }
def solo : State := { engine with gang := some (gangOf 1) }

def reserve : Ext := { x0 with d := 5, c := 6, e := 1 }
/-- An OBRES of one unit of h16 with records and units free, and with no record free; an OBREL. -/
def reserving (l : AMap Nat DWord) : State :=
  let s := world 1 (withRegs [(4, 0), (6, 1 + 12 * 2 ^ 7)])
  { s with cores := [(0, { s.core 0 with records := l })] }
theorem test_meets_OperandBuffers : meetsSole (reserving []) (.obres reserve) = true ∧ ((reserving []).core 0).engine = [] ∧
    recValid 12 0 0 1 = true ∧ ((reserving []).core 0).freeRecord = some 0 ∧
    findUnits ((reserving []).core 0).usedUnits 1 64 0 = some 0 := by decide
theorem test_meets_OperandBuffers_full :
    let s := reserving ((List.range 16).map fun r => (r, .ofNat 64 (2 ^ 63 + r * 2 ^ 51 + 2 ^ 44)))
    meetsSole s (.obres reserve) = true ∧ (s.core 0).freeRecord = none := by decide
theorem test_meets_OperandBuffers_release : meetsSole solo (.obrel { x0 with a := 8 }) = true ∧
    ((solo.thread (lane 0)).x 8).toNat < 16 ∧ solo.record 0 1 0 = some (.ofNat 64 (2 ^ 63 + 2 ^ 44 + 12 * 2 ^ 39)) ∧
    (solo.core 0).engine = [] := by decide
def bload : Ext := { x0 with a := 6, c := 8 }
theorem test_meets_OperandBufferLoads : Sole solo (gangOf 1) .obld bload 12 (lane 0) ∧ ∃ r s1,
    bitsOf ((solo.thread (lane 0)).x 8).toNat 7 4 = 0 ∧ bitsOf ((solo.thread (lane 0)).x 8).toNat 31 26 = 0 ∧
    solo.record 0 1 0 = some r ∧ 0 + 4 ≤ recBytes r ∧
    Reaches solo (kNear .obld bload) (lane 0) 4 .read (.ok (.scr 0 0) s1) ∧ s1.badLoc 1 (.scr 0 0) 4 = false :=
  ⟨sole_of (by decide), .ofNat 64 (2 ^ 63 + 2 ^ 44 + 12 * 2 ^ 39), _, by decide, by decide, by decide, by decide,
    reaches_of (by decide), by decide⟩
theorem test_meets_AccumulatorWords : [Instr.mrd { x0 with d := 4, c := 8 }, .mwr { x0 with a := 4, c := 8 }].all (meetsSole solo) =
    true ∧ ((solo.thread (lane 0)).x 8).toNat = 0 ∧ 0 + 4 ≤ (solo.team 1).accBytes := by decide
def mul : Ext := { x0 with a := 6, b := 8, c := 10, ty := 12 }
theorem test_meets_MatrixMultiplies : OneSquad engine (gangOf 8) .mma mul 12 sq ∧
    mmaCheck ((gangOf 8).issue .mma mul 12) sq engine = none ∧ engine.leaseHeld 1 = true :=
  ⟨oneSquad_of (by decide), by decide, by decide⟩
def zeroTile : Ext := { x0 with c := 12 }
theorem test_meets_TileInstructions : OneSquad engine (gangOf 8) .mzero zeroTile 12 sq ∧
    shapeOk ((engine.thread (lane 0)).xp 12).toNat false = true ∧ shapeChunks ((engine.thread (lane 0)).xp 12).toNat = 0 ∧
    (shapeTile ((engine.thread (lane 0)).xp 12).toNat 1).fits (engine.team 1).accBytes = true :=
  ⟨oneSquad_of (by decide), by decide, by decide, by decide⟩
theorem test_meets_Halts_halting : let s := ((world 1 id).activate 0).setDebug 2 2 0
    meetsSole s .halt = true ∧ (s.core 0).bltStall = false ∧ s.haltCapable = true ∧ s.inScope 0 = true ∧
      (s.powerOf 0).on = true := by decide

/-- A tensor shape record for an 8 x 16 array of f32 in the scratchpad at 0x2000, placed at 0x1000. -/
def tsrImage : Nat := (2 ^ 56 + 0x2000) + 2 ^ 64 * (64 * 2 ^ 16 + 2 * 2 ^ 5 + 14) +
  2 ^ 128 * (15 * 2 ^ 36 + 7 * 2 ^ 44) + 2 ^ 160 * 2 ^ 160 * (16 + 8 * 2 ^ 20)
def draining : State :=
  let s := { engine with threads := engine.threads.map fun (p : Tid × Thread) => (p.1, withRegs [(6, 0x1000)] p.2) }
  s.modTeam 1 fun t => { t with scratch0 := Memory.writeNat [] 0x1000 64 tsrImage }
def drain : Ext := { x0 with d := 1, a := 6, c := 12, e := 16, ty := 14 }
def tsrOk : TsrRead → Option Tsr
  | .ok r _ _ => some r
  | _ => none
theorem tsr_of {r : TsrRead} {v : Tsr} (h : tsrOk r = some v) : ∃ image s, r = .ok v image s := by
  cases r <;> simp_all [tsrOk]
def done0 (s : State) : Command → Prop := fun c => s.admits c
theorem test_meets_TileInstructions_drain : OneSquad draining (gangOf 8) .mdrain drain 12 sq ∧
    (draining.issuingAll (gangOf 8)).checkCompletion 0 (some 1) (draining.teamLaunch 1).space
      ((draining.thread (lane0 sq)).xp 16) = .ok (draining.issuingAll (gangOf 8)) ∧
    ∃ r image s2, (draining.issuingAll (gangOf 8)).readTsr 0 (lane0 sq)
      (tsrAddr ((gangOf 8).issue .mdrain drain 12) draining (lane0 sq)) = .ok r image s2 ∧
    r.ty = some .f32 ∧ r.boxes.getD 0 1 = 16 ∧ r.boxes.getD 1 1 = 8 ∧ (r.boxes.drop 2).all (· == 1) = true ∧
    badScratchDst (draining.team 1) (drainPieces r (shapeTile ((draining.thread (lane0 sq)).xp 12).toNat 1)) = none ∧
    ((drainPieces r (shapeTile ((draining.thread (lane0 sq)).xp 12).toNat 1)).flatMap fun p => pageStarts p.dst p.n) = [] ∧
    (draining.takeEntry 0 1 .copy).isSome = true := by
  refine ⟨oneSquad_of (by decide), noSignal (by decide), Tsr.ofNat tsrImage, ?_⟩
  obtain ⟨image, s2, h⟩ := tsr_of (r := (draining.issuingAll (gangOf 8)).readTsr 0 (lane0 sq)
    (tsrAddr ((gangOf 8).issue .mdrain drain 12) draining (lane0 sq))) (v := Tsr.ofNat tsrImage) (by decide +kernel)
  exact ⟨image, s2, h, by decide, by decide, by decide, by decide, by decide +kernel, by decide +kernel, by decide⟩

/-- QUANT with q4 codes into a reservation of q4, and into the scratchpad. -/
def quantBuf : State := { engine with
  threads := engine.threads.map fun (p : Tid × Thread) => (p.1, withRegs [(8, 0), (9, 16)] p.2)
  cores := [(0, { engine.core 0 with records := [(0, .ofNat 64 (2 ^ 63 + 2 ^ 44 + 18 * 2 ^ 39 + 2 ^ 37 + 2 ^ 25))] })] }
theorem test_meets_TileInstructions_quant :
    let x : Ext := { x0 with b := 8, c := 12, sub := 4, ty := 18 }
    OneSquad quantBuf (gangOf 8) .quant x 12 sq ∧
    ∃ e, quantWork ((gangOf 8).issue .quant x 12) sq quantBuf = .ok e :=
  ⟨oneSquad_of (by decide), isOk_sound (by decide)⟩
def quantScr : State := { engine with
  threads := engine.threads.map fun (p : Tid × Thread) => (p.1, withRegs [(8, 0), (9, 16 * 2 ^ 16)] p.2) }
theorem test_meets_TileInstructions_quantScratch :
    let x : Ext := { x0 with a := 6, b := 8, c := 12, e := 14, sub := 0, ty := 18 }
    OneSquad quantScr (gangOf 8) .quant x 12 sq ∧ (quantScr.core 0).engine = [] ∧
    ∃ e, quantWork ((gangOf 8).issue .quant x 12) sq quantScr = .ok e :=
  ⟨oneSquad_of (by decide), by decide, isOk_sound (by decide)⟩

/-- The lease held, and free, and a launch without one. -/
def free_ : State := { solo with cores := [(0, { solo.core 0 with lease := Core.reset.lease })] }
def noLease : State := { free_ with launches := [(1, { placedLaunch with lease := 0 })] }
theorem test_meets_Leases : [solo, free_, noLease].all (fun s => meetsSole s (.mlease x0) && meetsSole s (.mfree x0)) = true ∧
    0 < (solo.launchOf (lane 0)).lease ∧ solo.leaseHeld 1 = true ∧ free_.leaseHeld 1 = false ∧
    (noLease.launchOf (lane 0)).lease = 0 ∧ (∀ c ∈ (solo.team 1).cores, siteOf c = siteOf 0) ∧
    (∀ p ∈ free_.threads, p.1.team = 1 → p.2.status ≠ .parked .lease) := by decide

/-! ## Engine commands -/

/-- CPY of four bytes in each of eight lanes, from one line of the scratchpad to another. -/
def copying : State := world 8 fun th => withRegs [(4, 0x80), (5, 2 ^ 24), (6, 0x2000), (7, 2 ^ 24)] th
def copy : Ext := { x0 with d := 1, a := 4, c := 6, e := 8 }
theorem test_meets_CopyCommands : OneSquad copying (gangOf 8) .cpy copy 12 sq ∧
    (activeOf copying (gangOf 8) copy).head? = some (lane 0) ∧
    (copying.issuingAll (gangOf 8)).checkCompletion 0 (some 1) (copying.teamLaunch 1).space
      ((copying.thread (lane 0)).xp 8) = .ok (copying.issuingAll (gangOf 8)) ∧
    (∃ s3 pages work, (activeOf copying (gangOf 8) copy).foldl (cpyLane ((gangOf 8).issue .cpy copy 12) sq)
      ⟨copying.issuingAll (gangOf 8), [], [], [], []⟩ = ⟨s3, pages, activeOf copying (gangOf 8) copy, work, []⟩) ∧
    (copying.takeEntry 0 1 .copy).isSome = true ∧ copying.linesFull 1 [(0, 1)] = false := by
  refine ⟨oneSquad_of (by decide), by decide, noSignal (by decide), ?_, by decide, by decide⟩
  generalize hg : (activeOf copying (gangOf 8) copy).foldl (cpyLane ((gangOf 8).issue .cpy copy 12) sq)
    ⟨copying.issuingAll (gangOf 8), [], [], [], []⟩ = o
  have h1 : o.lanes = activeOf copying (gangOf 8) copy := by rw [← hg]; decide +kernel
  have h2 : o.traps = [] := by rw [← hg]; decide +kernel
  exact ⟨o.s, o.pages, o.work, by cases o; simp_all⟩

/-- TCOPY between a record's box in the scratchpad and a linear range there. -/
def tcopying : State := { draining with
  threads := draining.threads.map fun (p : Tid × Thread) => (p.1, withRegs [(10, 0x3000), (11, 2 ^ 24)] p.2) }
def tcopy : Ext := { x0 with d := 1, a := 6, c := 10, e := 16 }
theorem test_meets_CopyCommands_tensor : OneSquad tcopying (gangOf 8) .tcopy tcopy 12 sq ∧
    ∃ image s2, (tcopying.issuingAll (gangOf 8)).readTsr 0 (lane 0)
      (tsrAddr ((gangOf 8).issue .tcopy tcopy 12) tcopying (lane 0)) = .ok (Tsr.ofNat tsrImage) image s2 ∧
    cmdAddr (tcopying.team 1) ((tcopying.thread (lane 0)).xp 10) 512 4 = none ∧
    badElement (tcopying.team 1) 4 (tensorSide false (tcopyPieces (Tsr.ofNat tsrImage)
      ((tcopying.thread (lane 0)).xp 10).toNat false)) = none ∧
    (tensorSide false (tcopyPieces (Tsr.ofNat tsrImage) ((tcopying.thread (lane 0)).xp 10).toNat false)).flatMap
      (fun a => pageStarts a 4) = [] := by
  obtain ⟨image, s2, h⟩ := tsr_of (r := (tcopying.issuingAll (gangOf 8)).readTsr 0 (lane 0)
    (tsrAddr ((gangOf 8).issue .tcopy tcopy 12) tcopying (lane 0))) (v := Tsr.ofNat tsrImage) (by decide +kernel)
  exact ⟨oneSquad_of (by decide), image, s2, h, by decide, by decide +kernel, by decide +kernel⟩
/-- UNSEAL of one leaf of a tree of depth 0. -/
def unsealing : State := world 8 fun th => withRegs [(4, 0x2000), (5, 2 ^ 24), (7, 1)] th
theorem test_meets_CopyCommands_unseal :
    let x : Ext := { x0 with d := 1, a := 4, b := 6, c := 8, e := 12 }
    OneSquad unsealing (gangOf 8) .unseal x 12 sq ∧ unsealOk (opWord unsealing x (lane 0)).toNat = true ∧
    cmdAddr (unsealing.team 1) ((unsealing.thread (lane 0)).xp 4) 256 256 = none ∧
    pageStarts ((unsealing.thread (lane 0)).xp 4).toNat 256 = [] :=
  ⟨oneSquad_of (by decide), by decide, by decide, by decide⟩

/-- One window: all rights, site 1 of this module, 4 KiB from 0x1000. -/
def windowed : State :=
  let s := world 8 fun th => withRegs [(4, 0x80), (5, 2 ^ 24), (10, 8)] th
  { s with
    launches := [(1, { placedLaunch with wptr := 0x10009000, wcnt := 1 })]
    mem := s.mem.writeNat 0x10009000 24 (2 ^ 63 + 7 * 2 ^ 56 + 1 + 2 ^ 64 * 0x1000 + 2 ^ 128 * 0x1000) }
def winOk : WinRead → Option WinEntry
  | .ok e _ => some e
  | _ => none
theorem win_of {r : WinRead} {e : WinEntry} (h : winOk r = some e) : ∃ s, r = .ok e s := by
  cases r <;> simp_all [winOk]
def put : Ext := { x0 with d := 1, a := 4, b := 6, c := 10, e := 12 }
theorem test_meets_PacketCommands : ([.put, .get, .msg] : List Op).all (fun op => oneSquadB windowed (gangOf 8) op put 12 sq) = true ∧
    (activeOf windowed (gangOf 8) put).head? = some (lane 0) ∧
    ∃ e s2, readWindow 0 1 (windowed.teamLaunch 1) 0 (windowed.issuingAll (gangOf 8)) = .ok e s2 ∧
    ([.put, .get, .msg] : List Op).all (fun op => winCheck ((gangOf 8).issue op put 12) (windowed.team 1) e 0 0 8
      ((windowed.thread (lane 0)).xp 4) == none) = true ∧
    (windowed.takeEntry 0 1 .put).isSome = true := by
  obtain ⟨s2, h⟩ := win_of (r := readWindow 0 1 (windowed.teamLaunch 1) 0 (windowed.issuingAll (gangOf 8)))
    (e := { valid := true, radd := true, rget := true, rput := true, modId := 0, site := 1, base := 0x1000,
            len := 0x1000, arrived := 0, tag := 0, rsv := false }) (by decide +kernel)
  exact ⟨by decide +kernel, by decide, _, s2, h, by decide +kernel, by decide⟩
/-- NMCMD of one 64-byte part of a mapped row. -/
def nearMem : State := world 8 fun th => withRegs [(4, 0x10008000), (6, 0x80), (7, 2 ^ 24)] th
def nm : Ext := { x0 with d := 1, a := 4, c := 6, e := 8, imm := 1, ty := 14 }
theorem test_meets_PacketCommands_near : OneSquad nearMem (gangOf 8) .nmcmd nm 12 sq ∧
    1 ≤ nm.imm.toNat ∧ nm.imm.toNat ≤ 64 ∧
    (∃ s3 pages work, (activeOf nearMem (gangOf 8) nm).foldl (nmLane ((gangOf 8).issue .nmcmd nm 12) sq)
      ⟨nearMem.issuingAll (gangOf 8), [], [], [], []⟩ = ⟨s3, pages, activeOf nearMem (gangOf 8) nm, work, []⟩) := by
  refine ⟨oneSquad_of (by decide), by decide, by decide, ?_⟩
  generalize hg : (activeOf nearMem (gangOf 8) nm).foldl (nmLane ((gangOf 8).issue .nmcmd nm 12) sq)
    ⟨nearMem.issuingAll (gangOf 8), [], [], [], []⟩ = o
  have h1 : o.lanes = activeOf nearMem (gangOf 8) nm := by rw [← hg]; decide +kernel
  have h2 : o.traps = [] := by rw [← hg]; decide +kernel
  exact ⟨o.s, o.pages, o.work, by cases o; simp_all⟩

/-- XLOOK; and TREV under an open stream of its tenant. -/
def traced : State := (world 1 id).modSite 0 fun st =>
  { st with streams := st.streams.set 0 { Stream.reset with cfg := .ofNat 64 (2 ^ 63) } }
theorem test_meets_LookupsAndEvents : meetsSole (world 1 id) (.xlook { x0 with d := 4, a := 8 }) = true ∧
    traced.gang = some (gangOf 1) ∧ issueCheck .trev x0 (traced.gangLaunch (gangOf 1)) = none ∧
    (traced.thread (lane 0)).pendingTrap (lane 0) = none ∧
    Issue.violates ⟨.trev, x0, 12, 0, (gangOf 1).pc⟩ (traced.thread (lane 0)) = false ∧
    laneActive x0 (traced.thread (lane 0)) = true ∧ (traced.site 0).streamOf (traced.gangLaunch (gangOf 1)).tenant = some 0 ∧
    ((traced.site 0).stream 0).lossless = false ∧ ((traced.site 0).stream 0).stalls = [] := by decide


/-! ## Seals -/

/-- A live leaf of count `n` under seal 1 + 2^127 of this module, in x8:x11, homed on site 0; x12:x15 hold
the empty seal. -/
def sealed (n : Nat) : State :=
  let s := world 1 (withRegs [(4, 0x100), (5, 2 ^ 24), (8, 1), (11, 2 ^ 31)])
  let s := { s with seals := [(2 ^ 127 + 1, { cls := 0, content := 7, count := n })], sealHome := [(32, 2 ^ 31)] }
  s.modSite 0 fun st => { st with sealpcfg := .ofNat 64 (2 ^ 63 + 2 ^ 20) }
def sealX : Op → Ext
  | .sealget => { x0 with a := 4, c := 8 }
  | .sealref => { x0 with d := 16, c := 8 }
  | .sealswap => { x0 with d := 16, a := 4, c := 8, e := 12 }
  | _ => { x0 with d := 16, a := 4, c := 8 }
def sealK (op : Op) : Issue := (gangOf 1).issue op (sealX op) 12
theorem test_meets_Seals_get : Sole (sealed 2) (gangOf 1) .sealget (sealX .sealget) 12 (lane 0) ∧
    isScratch (effAddr (sealed 2) (sealK .sealget) (lane 0)) = true ∧
    (∃ s1, checkedAt (sealed 2) (sealK .sealget) (lane 0) 256 .write = .ok (.scr 0 0x100) s1) ∧
    ((sealed 2).thread (lane 0)).xq 8 ≠ 0 ∧
    ((sealed 2).sealLine (((sealed 2).thread (lane 0)).xq 8)).map SealLine.content = some 7 :=
  ⟨sole_of (by decide), by decide, ⟨_, ok_of (by decide)⟩, by decide, by decide⟩
theorem test_meets_Seals_count : [1, 2, sealMax - 1].all (fun n =>
    soleB (sealed n) (gangOf 1) .sealref { sealX .sealref with sub := 0 } 12 (lane 0) &&
    soleB (sealed n) (gangOf 1) .sealref { sealX .sealref with sub := 1 } 12 (lane 0) &&
    (((sealed n).sealLine (((sealed n).thread (lane 0)).xq 8)).map SealLine.count == some n)) = true ∧
    sealMax - 1 < sealMax := by decide
/-- SEALSWAP of the empty seal for the cell's seal: the cell at 0x100 holds it, another, or none. -/
def swapped (cell : Nat) : State :=
  let s := sealed 2
  let s := s.modTeam 1 fun t => { t with scratch0 := Memory.writeNat [] 0x100 16 cell }
  if cell = 0 then { s with threads := [(lane 0, withRegs [(4, 0x100), (5, 2 ^ 24)] (placedThread 0))] } else s
theorem test_meets_Seals_swap : [0, 2 ^ 127 + 1, 5].all (fun n =>
      soleB (swapped n) (gangOf 1) .sealswap (sealX .sealswap) 12 (lane 0) &&
      (okLoc (checkedAt (swapped n) (sealK .sealswap) (lane 0) 16 .atomic) == some (.scr 0 0x100)) &&
      decide ((okState (checkedAt (swapped n) (sealK .sealswap) (lane 0) 16 .atomic)).lineAbsent 1 (.scr 0 0x100) 16 = none) &&
      !(okState (checkedAt (swapped n) (sealK .sealswap) (lane 0) 16 .atomic)).badLoc 1 (.scr 0 0x100) 16 &&
      ((okState (checkedAt (swapped n) (sealK .sealswap) (lane 0) 16 .atomic)).readLoc 1 (.scr 0 0x100) 16 == n)) = true ∧
    ((swapped 0).thread (lane 0)).xq 8 = 0 ∧ ((swapped 5).thread (lane 0)).xq 8 = 2 ^ 127 + 1 ∧
    ((swapped 5).thread (lane 0)).xq 12 = 0 ∧ (swapped 1).sealLive (2 ^ 127 + 1) = true := by decide +kernel
/-- A leaf of 256 zero bytes where every home entry leads to site 0. -/
def fresh : State :=
  let s := sealed 2
  let s := { s with sealHome := (List.range 64).map fun n => (n, 2 ^ 31) }
  let s := { s with threads := [(lane 0, withRegs [(4, 0x100), (5, 2 ^ 24)] (placedThread 0))] }
  s
def sealOkB : SealOut → Bool
  | .ok _ _ => true
  | .trap _ => false
theorem sealOk_sound {r : SealOut} (h : sealOkB r = true) : ∃ v s, r = .ok v s := by
  cases r <;> simp_all [sealOkB]
theorem test_meets_Seals_put : Sole fresh (gangOf 1) .sealput (sealX .sealput) 12 (lane 0) ∧
    isScratch (effAddr fresh (sealK .sealput) (lane 0)) = true ∧
    (∃ s1, checkedAt fresh (sealK .sealput) (lane 0) 256 .read = .ok (.scr 0 0x100) s1 ∧
      s1.lineAbsent 1 (.scr 0 0x100) 256 = none ∧ s1.badLoc 1 (.scr 0 0x100) 256 = false ∧
      ∃ v s2, s1.sealPut 0 (s1.readLoc 1 (.scr 0 0x100) 256) = .ok v s2) ∧
    ((fresh.thread (lane 0)).x 8).toNat % 256 ≤ 1 :=
  ⟨sole_of (by decide), by decide, ⟨_, ok_of (by decide), by decide, by decide, sealOk_sound (by decide +kernel)⟩, by decide⟩

/-! ## Scribe cores -/

/-- Scribe core 0 runs the task of the record at 0x10008000: s1 = 8, s2 the start of its SRAM, s3 the
record, one return address on its stack, z1 = 1 … 16. -/
def scribing : State :=
  let s := { world 1 id with scribe := some 0 }
  let s := { s with tasks := [(0x10008000, 0x10008000, 1)] }
  s.modScribe 0 fun c => { c with
    task := some (0x10008000, 1), s := [(1, 8), (2, .ofNat 64 (2 ^ 57)), (3, 0x10008000)], stack := [0x40],
    z := [(1, (List.range 16).map fun k => .ofNat 32 (k + 1))] }
def begunB (s : State) (i : Instr) : Bool :=
  match i.scribe with
  | some w => decide (s.scribe = some 0) && decide (scribeCheck w = none) &&
      (scribeReads w).all fun r => !(s.scribeCore 0).loads.contains r
  | none => false
theorem begun_sound {s : State} {i : Instr} (h : begunB s i = true) : ∃ w, i.scribe = some w ∧ Begun s 0 i w := by
  unfold begunB at h
  split at h
  · simp only [Bool.and_eq_true, decide_eq_true_eq, List.all_eq_true, Bool.not_eq_true',
      List.contains_eq_mem, decide_eq_false_iff_not] at h
    exact ⟨_, by assumption, ⟨by assumption, h.1.1, h.1.2, h.2⟩⟩
  · exact absurd h (by simp)
theorem test_meets_ScribeScalarsAndMoves : ([.sadd 255 1 2 4, .ssub 0 1 2 4, .smul 0 1 1 4, .sand 0 1 2 4,
    .sor 0 1 2 4, .sxor 0 1 1 4, .sshl 63 0 1 4, .sshr 3 1 1 0, .sldi 255 1 4, .sldk 31 4, .scmp 7 1 2 4,
    .smov 0 1 4, .smov 1 1 3, .smov 2 3 4, .smov 3 0 4, .smov 4 1 0, .smov 5 0 4, .smov 6 1 0] : List Instr).all
      (begunB scribing) = true := by decide
theorem test_meets_ScribeJumps : ([.jmp 255 31, .jz 4 0 0, .jnz 4 0 1, .scribeLoop 4 0 1, .scribeCall 4 0, .scribeRet] :
    List Instr).all (begunB scribing) = true ∧ (scribing.scribeCore 0).stack = 0x40 :: [] := by decide
def sOkLoc : SAcc → Option SLoc
  | .ok l _ => some l
  | _ => none
theorem sOk_of {r : SAcc} {l : SLoc} (h : sOkLoc r = some l) : ∃ s, r = .ok l s := by
  cases r <;> simp_all [sOkLoc]
theorem test_meets_ScribeLoadsAndStores : ([.sld 0 2 4, .sst 0 2 1, .sld 2 3 4, .sst 2 3 1] : List Instr).all (begunB scribing) = true ∧
    (∃ s1, scribing.begun.scribeAccess 0 (.ofNat 64 (2 ^ 57)) 8 .read = .ok (.sram 0) s1) ∧
    (∃ s1, scribing.begun.scribeAccess 0 0x10008010 8 .write = .ok (.glob 0x10008010) s1) ∧
    isRegisterPa 0x10008010 = false :=
  ⟨by decide, sOk_of (by decide), sOk_of (by decide), by decide⟩
theorem test_meets_ScribeVectorAccesses :
    ([.vld 0 0 2 4, .vst 0 0 3 1, .vgather 0 1 3 4, .vscatter 0 1 2 1, .vaadd 0 1 1 2 1] : List Instr).all (begunB scribing) = true ∧
    ([.vld 0 0 2 4, .vst 0 0 3 1, .vgather 0 1 3 4, .vscatter 0 1 2 1, .vaadd 0 1 1 2 1] : List Instr).all (fun i =>
      match i.scribe with
      | some w => let as := ((scribing.scribeCore 0).lanes w).map fun k => (k, laneAddrOf w (scribing.scribeCore 0) k)
        isOk (scribing.begun.scribePlaces 0 4 .write (wholeGranule as) as)
      | none => false) = true := ⟨by decide, by decide +kernel⟩
theorem test_meets_ScribeVectors : ([.vadd 0 0 1 1 2, .vsub 0 1 1 1 2, .vmul 0 1 1 1 2, .vfma 0 1 1 2, .vmin 0 0 1 1 2,
    .vmax 0 1 1 1 2, .vdiv 0 1 1 2, .vsqrt 0 1 2, .vrsq 0 1 2, .vabs 0 1 1 2, .vcvt 0 5 1 2, .vsel 0 3 1 1 2, .vbcast 0 1 2,
    .vcmp 0 13 1 1 2, .vred 0 3 1 4, .vmovs 31 1 4, .vmovs 0 1 2] : List Instr).all (begunB scribing) = true := by decide
/-- The record counts 1 down from 2. -/
def counting : State := { scribing with mem := scribing.mem.writeNat 0x10008000 8 (2 + 2 ^ 32) }
theorem test_meets_ScribeTasks : ([.scribeTdec 1 0 3, .scribeFence 64, .texit] : List Instr).all (begunB counting) = true ∧
    (∃ s1, counting.begun.scribeAccess 0 0x10008000 64 .atomic = .ok (.glob 0x10008000) s1) ∧
    recCount counting.begun 0x10008000 = 2 ∧ recState counting.begun 0x10008000 = 1 :=
  ⟨by decide, sOk_of (by decide), by decide, by decide⟩

/-! ## Steps that threads wait for -/

/-- The end of a squad's one thread's wait. -/
def parked (p : Park) : State := near.modThread (lane 0) fun th => { th with status := .parked p }
def watch : Watch :=
  { addr := .ofNat 64 (2 ^ 56 + 16), loc := .scr 0 16, expect := 0, deadline := some 0, d := 10, ty := .b32, ge := false,
    rf := 1, len := 12, fence := ⟨1, 1, 4⟩ }
def openWin (f : Option (Nat × DWord)) : State := (world 1 id).modThread (lane 0) fun th => { th with
  windows := [{ id := 5, pc := 0, left := 0, issued := 0, pend := pendingSet .sealget x0, known := true, complete := false,
                regs := [(6, 7)], preds := [], flags := 1, fault := f }] }
theorem test_meets_WaitingThreads :
    ((world 1 id).modCore 0 fun c => { c with stall := some 0 }).tick = 0 ∧
    (∃ s1, (parked (.word watch)).checkAddr 0 1 ((parked (.word watch)).launchOf (lane 0)).space watch.addr 4 4 .read =
        .ok (.scr 0 16) s1 ∧ s1.lineAbsent 1 (.scr 0 16) 4 = none ∧ s1.badLoc 1 (.scr 0 16) 4 = false) ∧
    ((parked (.word watch)).core ((parked (.word watch)).coreOf (lane 0).sid)).stopped = false ∧
    (((openWin none).thread (lane 0)).windowOf 5).map (fun v => (v.known, v.complete, v.fault)) =
      some (true, false, none) ∧
    (((openWin (some (0x25, 9))).thread (lane 0)).windowOf 5).map (fun v => (v.known, v.complete, v.fault)) =
      some (true, false, some (0x25, 9)) :=
  ⟨by decide, ⟨_, ok_of (by decide), by decide, by decide⟩, by decide, by decide, by decide⟩
/-- A convergence window that opened at clock 0, with its thread held. -/
def converging : State :=
  let s := (world 1 id).modThread (lane 0) fun th => { th with status := .held }
  { s.modSquad ⟨1, 0⟩ (fun q => { q with window := some (0, .ofNat 64 placedCode) }) with clock := 64 }
def starved : State := { world 1 id with clock := 16 * 4096 }
def dropping : State :=
  { (world 1 id).modThread (lane 0) (fun th => { th with status := .invalidating 3 12 }) with
    invalidations := [(3, ⟨lane 0, 12, [9]⟩)] }
theorem test_meets_WaitingThreads_more :
    (converging.squad ⟨1, 0⟩).window = some (0, .ofNat 64 placedCode) ∧ 0 + 64 ≤ converging.clock ∧
    (converging.core (converging.coreOf ⟨1, 0⟩)).stopped = false ∧ lane 0 ∈ converging.liveOf ⟨1, 0⟩ ∧
    (converging.thread (lane 0)).status = .held ∧
    (starved.thread (lane 0)).isReady = true ∧
    16 * (starved.launchOf (lane 0)).shot ≤ (starved.thread (lane 0)).waitCount starved.clock ∧
    (parked (.tracker false 1)).gangsLeaving ((parked (.tracker false 1)).coreOf ⟨1, 0⟩) = [1] ∧
    (parked (.tracker false 1)).exitRoom 0 ((parked (.tracker false 1)).gangLeaving 0 1) = true ∧
    AMap.find? 9 dropping.commands = none ∧ (dropping.thread (lane 0)).status = .invalidating 3 12 := by decide
/-- A team whose shares are empty is saved at 0x1000A000, and loaded from there. -/
def leavingTeam : State :=
  let s := (world 1 id).modLaunch 1 fun l => { l with regs := 8 }
  s.modTeam 1 fun t => { t with part := 0 }
def saving : CtxOp := ⟨false, 0, 9, 1, .module, (world 1 id).teamLaunch 1 |>.space, 0, 0x1000A000, some 1, [⟨1, 0⟩], false, [], 0, 0⟩
def loading : CtxOp := ⟨true, 0, 9, 1, .module, (world 1 id).teamLaunch 1 |>.space, 1, 0x1000A000, none, [], false, [], 0, 0⟩
def leave : State := { leavingTeam with contexts := [(4, saving)] }
/-- The placed page's table, and the area of the team (R332, R333). -/
def saved : Memory := [
  (65536, 3), (65538, 2), (131080, 255), (131083, 16), (268476416, 1), (268476419, 193), (268476420, 1), (268476432, 8),
  (268476438, 8), (268476439, 1), (268476449, 2), (268476457, 9), (268476465, 9), (268476473, 9), (268476481, 9),
  (268476931, 16), (268476936, 1), (268476940, 64), (268477159, 48), (268477160, 1), (268477164, 64), (268477166, 32),
  (268477383, 48), (268477384, 1), (268477388, 64), (268477390, 64), (268477607, 48), (268477608, 1), (268477612, 64),
  (268477614, 96), (268477831, 48), (268477832, 1), (268477836, 64), (268477838, 128), (268478055, 48), (268478056, 1),
  (268478060, 64), (268478062, 160), (268478279, 48), (268478280, 1), (268478284, 64), (268478286, 192),
  (268478503, 48), (268478504, 1), (268478508, 64), (268478510, 224)]
def load : State :=
  ({ leave with contexts := [(4, loading)], mem := saved }.removeTeam 1).activate 0
theorem test_meets_ContextCompletions_save :
    (AMap.find? 1 leave.teams).isSome = true ∧ leave.quiet 1 = true ∧ leave.drained 1 = true ∧
    (∀ u ∈ leave.threadsOfTeam 1, (leave.thread u).pendingTrap u = none) ∧
    ∃ s2, { leave with contexts := leave.contexts.set 4 saving }.writeVa 0 saving.space saving.agent 0x1000A000
      (leave.saveArea saving 1) = .ok s2 :=
  ⟨by decide, by decide, by decide, by decide, isOk_sound (by decide +kernel)⟩
def areaOf (s : State) : Except Nat (Area × State) := s.readArea 0 loading.space loading.agent 0x1000A000
def readOk (s : State) : Area × State :=
  match areaOf s with
  | .ok r => r
  | .error _ => (⟨0, 0, 0, 0, 0, 0⟩, s)
def placedOf (s : State) : Nat × State := ((readOk s).2.placeArea loading (readOk s).1).getD (0, s)
theorem test_meets_ContextCompletions_load :
    (isOk (areaOf load) && (readOk load).2.loadable 0 1 (readOk load).1 &&
      ((readOk load).2.placeArea loading (readOk load).1).isSome &&
      ((placedOf load).2.reissueAll ((placedOf load).2.teamLaunch (placedOf load).1).space
        ((readOk load).1.commands 0 (placedOf load).1 (areaLid (readOk load).1.head)
          ((readOk load).2.launch (areaLid (readOk load).1.head)).space)).1.isEmpty) = true := by
  decide +kernel
/-- A page request for the placed page. -/
def asking : State := { world 1 id with pageReqs := [(7, ⟨0, placedRoot, true, placedCode, 0, 1, 0, .module⟩)] }
theorem test_meets_ContextCompletions_page :
    ∃ pa s1, asking.translateWalk ⟨0, placedRoot, true⟩ placedCode .read = .ok (pa, s1) := by
  obtain ⟨⟨pa, s1⟩, h⟩ := isOk_sound (r := asking.translateWalk ⟨0, placedRoot, true⟩ placedCode .read) (by decide)
  exact ⟨pa, s1, h⟩

/-- One entry in the engine order of core 0. -/
def working (w : EngineWork) : State := engine.modCore 0 fun c => { c with engine := [⟨w, 1, 0, [lane 0], 5⟩] }
def smallTile : Tile := ⟨0, 8, 8, 8⟩
theorem test_meets_MatrixEngine : ([.zero smallTile, .mma .f32 false 0 0 0 32 32 0 0 smallTile 1 none, .write 4 8 7,
      .load 4 8 7, .read 4 8 10] : List EngineWork).all (fun w =>
        decide (((working w).core 0).engine = [⟨w, 1, 0, [lane 0], 5⟩]) &&
        (AMap.find? 1 (working w).teams).isSome && ((working w).team 1).badAcc.isEmpty &&
        ((working w).core 0).badOpBuf.isEmpty) = true ∧ smallTile.cols ≤ smallTile.pitch := by decide
theorem test_meets_MatrixEngine_read :
    let s := (working (.read 4 8 10)).modThread (lane 0) fun th =>
      { th with windows := ((openWin none).thread (lane 0)).windows }
    ((s.thread (lane 0)).windowOf 5).isSome = true := by decide

/-! ## Commands and packets -/

/-- One command, number 30, of the one team. -/
def cmd0 : Command :=
  { Command.blank with op := .cpy, core := 0, team := 1, lid := 1, lanes := [lane 0], ready := true }
def commanded (c : Command) : State := { world 1 id with commands := [(30, c)] }
/-- One packet, number 20, of the command, from site 0 to site 1. -/
def pkt (ptype : BitVec 8) : Packet :=
  { blankPacket with
    ptype, dstSite := 1, at_ := 1, tag := 3, len := 4, payload := [1, 2, 3, 4], cmd := 30, part := 40
    win := { blankPacket.win with valid := true, base := 0x1000C000, len := 0x1000 } }
/-- The packet, and a registration of its TAG on site 1 with every right, at 0x1000B0C0. -/
def arriving (p : Packet) : State :=
  let s := commanded { cmd0 with op := .put, parts := [40], addr := 2 ^ 56 }
  let s := s.modSite 1 fun st => { st with wregbase := 0x1000B000, wregcfg := .ofNat 32 (2 ^ 31) }
  { s with
    packets := [(20, p)]
    sent := [(20, p)]
    mem := s.mem.writeNat 0x1000B0C0 40
      (2 ^ 63 + 7 * 2 ^ 56 + 3 + 2 ^ 64 * 0x1000C000 + 2 ^ 128 * 0x1000 + 2 ^ 144 * 2 ^ 144) }
def admitOk : Admit → Option Arrival
  | .go a _ => some a
  | .refuse _ _ => none
def admitState : Admit → State
  | .go _ s => s
  | .refuse _ s => s
theorem admit_of {r : Admit} {a : Arrival} (h : admitOk r = some a) : r = .go a (admitState r) := by
  cases r <;> simp_all [admitOk, admitState]
def replayOk : Replay → Bool
  | .apply _ => true
  | _ => false
theorem replay_of {r : Replay} (h : replayOk r = true) : ∃ s, r = .apply s := by
  cases r <;> simp_all [replayOk]
def nearCmd : Command :=
  { cmd0 with op := .nmcmd, len := 64, parts := [2 ^ 64 + 1], pages := [(4096, some 4096)],
              rows := [(0x10000000, 0x10008000)] }
theorem test_meets_Commands :
    let v := { cmd0 with lines := [(0, 1), (1, 2)] }
    (commanded cmd0).commandHeld cmd0 = false ∧ cmd0.parts = [] ∧ cmd0.lines = [] ∧ cmd0.pieces = [] ∧
    ((commanded cmd0).site (siteOf cmd0.core)).streamOf ((commanded cmd0).tenantOf cmd0.lid) = none ∧
    (0, 1) ∈ v.lines ∧ (commanded v).commandHeld v = false ∧
    nearCmd.units = [1] ∧ (commanded nearCmd).commandHeld nearCmd = false ∧
    ((commanded nearCmd).site 0).streamOf ((commanded nearCmd).tenantOf 1) = none := by decide
/-- The packet's arrival, first of one. -/
def arrival : Arrival :=
  { left := 1, cause := 0, entry := 0x1000B0C0, parts := [], bytes := 0, lid := 1, space := ⟨0, placedRoot, true⟩, refused := none }
def afterAdmit (p : Packet) : State := admitState ((arriving p).admission 1 p)
theorem test_meets_Packets_put : ([1, 2] : List (BitVec 8)).all (fun n =>
      (admitOk ((arriving (pkt n)).admission 1 (pkt n)) == some arrival) &&
      ((((afterAdmit (pkt n)).site 1).streamOf ((afterAdmit (pkt n)).tenantOf (regLid (afterAdmit (pkt n)) 0x1000B0C0))) == none) &&
      !(afterAdmit (pkt n)).targetHeld (pkt n) arrival) = true ∧
    isReducing (pkt 1) = false ∧ isReducing (pkt 2) = true ∧
    replayOk ((afterAdmit (pkt 2)).replayCheck 1 (pkt 2)) = true := by decide +kernel
theorem test_meets_Packets_get : admitOk ((arriving (pkt 3)).admission 1 (pkt 3)) = some arrival ∧
    (afterAdmit (pkt 3)).targetHeld (pkt 3) arrival = false ∧
    isOk (((afterAdmit (pkt 3)).dropPacket 20).translateWalk
      (((afterAdmit (pkt 3)).dropPacket 20).launch (regLid ((afterAdmit (pkt 3)).dropPacket 20) 0x1000B0C0)).space
      0x1000C000 .read) = true ∧ (afterAdmit (pkt 3)).badLoc 0 (.glob 0x1000C000) 4 = false := by decide +kernel
/-- Ring 2 of team 0 of the launch, of two slots at 0x40 of its scratchpad. -/
def ringing : State :=
  let s := arriving { pkt 5 with off := 2 * 2 ^ 24 }
  s.modTeam 1 fun t => { t with ringCfg := [(2, .ofNat 64 (2 ^ 63 + 2 ^ 36 + 64))] }
theorem test_meets_Packets_ring : ringing.regOnModule 3 = some 0x1000B0C0 ∧ bitOf (regWord ringing 0x1000B0C0 0) 56 = true ∧
    (AMap.find? (regLid ringing 0x1000B0C0) ringing.launches).isSome = true ∧
    ringing.teamNumbered (regLid ringing 0x1000B0C0) 0 = some 1 ∧ (ringing.team 1).frozen = false ∧
    (ringing.team 1).ringOn 2 = true ∧ (0 + 2 ^ 32 - (ringing.team 1).ringHead 2) % 2 ^ 32 <
      2 ^ bitsOf (AMap.getD (ringing.team 1).ringCfg 2 0).toNat 39 36 := by decide +kernel
theorem test_meets_Packets_answers :
    let s := arriving { pkt 0x11 with reason := 5, dstSite := 0 }
    (AMap.find? 30 s.commands).any (fun v => v.parts.contains 40 && !s.commandHeld v && v.op != .get) = true ∧
    (pkt 4).payload ≠ [] ∧
    (s.site 0).streamOf (s.tenantOf 1) = none ∧ (AMap.find? 20 s.sent).isSome = true := by decide +kernel
theorem test_meets_Packets_hop :
    let q := { pkt 1 with ver := 1 }
    let v := (arriving q).modSite 1 fun st => { st with held := [20] }
    q.plane = .mesh ∧ q.ver.toNat = ((arriving q).site 1).active ∧ q.at_ = q.dstSite ∧
    older 1 (((arriving q).modSite 1 fun st => { st with netver := 2 }).site 1).active = true ∧
    (pkt 1).dstMod.toNat = (arriving q).moduleId ∧ knownPacket (pkt 1) = true ∧ (pkt 1).ver = 0 ∧
    20 ∈ (v.site q.at_).held ∧
    let r := { (world 1 id).modSite 0 fun st => { st with replay := [(⟨0, 1, 3⟩, ⟨5, 1, 0⟩)] } with tick := 8000000 }
    AMap.find? ⟨0, 1, 3⟩ (r.site 0).replay = some ⟨5, 1, 0⟩ ∧ 0 + 8000000 ≤ r.tick := by decide +kernel

/-! ## The scheduler -/

/-- Launch queue 0 with one record at 0x10009000: a team of one squad of 8 threads. -/
def queued : State :=
  let s := world 1 id
  let s := s.modQueue 0 fun _ => { LaunchQueue.reset with base := 0x10009000, cfg := .ofNat 32 (2 ^ 31), tail := 1, pt := 65536 }
  let rec0 := 0x10000000 + 2 ^ 64 * (0x10000 * 2 ^ 32) + 2 ^ 128 * 8 + 2 ^ 192 * (0x040404 * 2 ^ 32 + 1)
  { s with mem := s.mem.writeNat 0x10009000 32 rec0 }
def readRec : SchedRead → Nat
  | .ok r _ => r
  | _ => 0
def readRecState : SchedRead → State
  | .ok _ s => s
  | _ => .reset
def isRead : SchedRead → Bool
  | .ok _ _ => true
  | _ => false
theorem read_of {r : SchedRead} (h : isRead r = true) : r = .ok (readRec r) (readRecState r) := by
  cases r <;> simp_all [isRead, readRec, readRecState]
def recordRead : SchedRead := queued.schedRead (queued.queueSpace 0) 0x10009000 32
theorem test_meets_Scheduler_record : (queued.queue 0).enabled = true ∧ (queued.queue 0).wait = false ∧
    (queued.queue 0).waiting = 1 ∧ 1 ≤ (queued.queue 0).size ∧ isRead recordRead = true ∧
    bitsOf (queued.queue 0).base.toNat 51 8 * 256 + 256 * ((queued.queue 0).head.toNat % (queued.queue 0).size) =
      0x10009000 := by decide +kernel
theorem test_meets_Scheduler_accepted :
    (readRecState recordRead).lrecBad (readRec recordRead)
      (lrecLaunch (readRec recordRead) 0 (queued.queueSpace 0) []) = none ∧
    isRead ((readRecState recordRead).schedRead (queued.queueSpace 0) (lrec (readRec recordRead) 0x20 51 0)
      (lrec (readRec recordRead) 0x28 6 0)) = true ∧
    (readRecState recordRead).checkDone (queued.queueSpace 0)
      (lrecLaunch (readRec recordRead) 0 (queued.queueSpace 0) []).done = none := by decide +kernel
theorem test_meets_Scheduler_queues :
    bitsOf (0x80003B0F#32).toNat 30 24 = 0 ∧
    bitsOf (0x80003B0F#32).toNat 15 14 = 0 ∧ bitsOf (0x80003B0F#32).toNat 7 4 = 0 ∧ bitsOf (0x80003B0F#32).toNat 13 8 < 60 ∧
    ((queued.modQueue 1 fun q => { q with wait := true }).queue 1).wait = true := by decide
/-- The launch with none of its threads left, and with a second team to place. -/
def ended : State := { world 1 id with threads := [], squads := [], cores := [] }
def second : State := ((world 1 id).activate 0).modLaunch 1 fun l => { l with teams := 2 }
def released : State := { second with threads := [], squads := [] }
def mayOk (r : Bool × State) : Bool := r.1
theorem test_meets_Scheduler_teams :
    (ended.strand 1).launchOver 1 = true ∧
    (AMap.find? 1 second.launches).any (fun l => l.unplaced && (second.placeFor l == some 1)) = true ∧
    second.unpowered 1 = false ∧ second.outranked 1 = false ∧ second.slotWait (siteOf 1) = 0 ∧
    (second.mayStart (siteOf 1) (second.startStep (second.launch 1) 1) (.teamPlace 1)).1 = true ∧
    (AMap.find? 1 released.teams).isSome = true ∧ released.squadsOfTeam 1 = [] ∧ (released.team 1).frozen = false ∧
    (released.launch 1).unplaced = true ∧ released.hasTracker (fun e => e.team == 1) = false := by decide +kernel
/-- A Scribe task in site 0's ready queue. -/
def readied : State :=
  let s := { counting with scribes := [] }
  s.modSite 0 fun st => { st with readyQ := [⟨3, 0x10008000, 1, true, 0, 0, 0⟩] }
theorem test_meets_Scheduler_tasks : (readied.site 0).dispatches = 0 ∧
    (readied.nextTask 0).any (fun r => (readied.mayStart 0 r.2.step (.taskDispatch 0)).1) = true := by decide +kernel
def wanting : State :=
  let s := (world 1 id).modTeam 1 fun t => { t with leaseWait := true }
  { s with clock := 4096 }
def holding : State := wanting.modCore 0 fun c => { c with lease := { c.lease with holder := some 9 } }
theorem test_meets_Scheduler_leases : (wanting.core 0).lease.holder = none ∧
    wanting.leaseBest 0 (wanting.leaseWaiters 0) = some 1 ∧
    (∀ d ∈ (wanting.team 1).cores, (wanting.core d).lease.holder = none) ∧
    (wanting.mayStart (siteOf 0) (wanting.grantStep 1) (.leaseGrant 0)).1 = true ∧
    (holding.core 0).lease.holder = some 9 ∧ holding.leaseWaiters 0 ≠ [] ∧ holding.leaseRest 0 = 0 := by decide +kernel
def rooting : State := (world 1 id).modLaunch 1 fun l => { l with root := 0x10008000, rootWait := true }
theorem test_meets_Scheduler_root : (AMap.find? 1 rooting.launches).any (fun l => l.rootWait &&
    isOk (rooting.translateWalk l.space l.root .write)) = true := by decide +kernel

/-! ## The trap queue and the memories -/

/-- A report of thread 0, trapped, waiting at site 0; its trap queue of 64 reports at 0x10009000. -/
def report0 : Report :=
  { lid := 1, cause := 0x25, flags := 0, core := 0, lanes := 1, tslot := 0, issued := 0, pc := 0, addr := 0, threads := [lane 0] }
def trapped : State :=
  let s := (world 1 id).modThread (lane 0) fun th => { th with status := .trapped, resume := .ofNat 64 (placedCode + 4) }
  let s := s.modLaunch 1 fun l => { l with hv := true, hoff := 0x100 }
  s.modSite 0 fun st => { st with trapqbase := 0x10009000, trapqcfg := .ofNat 32 (2 ^ 31), waiting := [report0],
                                  reports := [(5, report0)] }
theorem test_meets_TrapQueue : (trapped.site 0).trapEn = true ∧ (trapped.site 0).trapFilled = 0 ∧
    0 < (trapped.site 0).trapSize ∧ (trapped.site 0).waiting.find? trapped.reportable = some report0 ∧
    (match trapped.trapSlot 0 with | .ok r => r.1 == 0x10009000 | .error _ => false) = true ∧ (∀ k, k < 4 → isRegisterPa (0x10009000 + 8 * k) = false) ∧
    trapped.reportAt 0 5 = some report0 ∧ report0.threads ≠ [] ∧ (trapped.launch 1).hv = true ∧
    (trapped.thread (lane 0)).hnd = false ∧ (trapped.thread (lane 0)).trapCause.getLsbD 20 = false ∧
    (((trapped.modSite 0 fun st => { st with trapact := .ofNat 64 (1 * 2 ^ 61 + 5) }).leaveDelivery [lane 0]).forward
      (lane 0)).isSome = true := by decide +kernel
/-- L2CFG and L2LIVE of site 0 written, its flush underway, CHREMAP set and busy. -/
theorem test_meets_MemorySteps_l2 :
    let st := State.reset.site 0
    let v : DWord := 1 + 2 ^ 8
    let f := setBits v.toNat 31 31 0
    st.l2cfg.getLsbD 31 = false ∧ l2cfgOk v.toNat = true ∧
    ({ st with l2cfg := BitVec.ofNat 64 f } : Site).partitionsLive = true ∧ f ≠ setBits st.l2cfg.toNat 31 31 0 ∧
    let live := 0x1F
    bitsOf live 63 32 = 0 ∧ st.l2live.getLsbD 31 = false ∧ live ≠ st.l2live.toNat % 64 ∧
    bitsOf (live ||| st.l2live.toNat % 64) 5 0 = st.l2live.toNat % 64 ∧
    ({ st with l2live := BitVec.ofNat 32 live } : Site).partitionsLive = true := by decide +kernel
theorem test_meets_MemorySteps_chremap : (State.reset.site 0).chremap.getLsbD 63 = false ∧
    ([2 ^ 63, 2 ^ 63 + 47 * 2 ^ 48, 5] : List Nat).all (fun f => bitsOf f 61 54 == 0 && bitsOf f 47 19 == 0 &&
      decide (chanOf f < 48) && decide (regionOf f + regionBytes ≤ dramBytes)) = true ∧
    let s := State.reset.modSite 0 fun st => { st with chremap := .ofNat 64 (2 ^ 62 + 2 ^ 63) }
    bitOf (s.site 0).chremap.toNat 62 = true ∧ s.badGranules 0 (s.site 0).chremap.toNat = [] := by decide +kernel
theorem test_meets_MemorySteps_bias :
    let s := State.reset.modSite 0 fun st => { st with biasbase := 0x20000 }
    let t := { s with mem := s.mem.writeNat 0x20000 1 2 }
    let busy := s.modSite 0 fun st => { st with biascmd := .ofNat 64 (2 ^ 63 + 2 ^ 16) }
    (s.site 0).biascmd.getLsbD 63 = false ∧ biasPage 0x10000 = 1 ∧ 1 * 65536 < dramBytes ∧ s.hostBias 0 1 = false ∧
    t.hostBias 0 1 = true ∧ (busy.site 0).biascmd.getLsbD 63 = true := by decide +kernel
theorem test_meets_MemorySteps_host : 0x1000 + 8 ≤ 60 * dramBytes ∧ State.reset.hostHeld 0x1000 8 = false ∧
    8 ≤ hdmRoom (dramBytes - 8) ∧ isRegisterPa (hdmAddr 0x1000) = false ∧ isDramPa 0x1000 = true := by decide +kernel
theorem test_meets_MemorySteps_more :
    let s := State.reset.modSite 0 fun st => { st with walker := [[7, 8]] }
    let v := scribing.modScribe 0 fun c => { c with stall := some 0x10008000 }
    (s.site 0).walker = (7 :: [8]) :: [] ∧ (v.scribeCore 0).stall = some 0x10008000 ∧
    isOk (v.translateWalk (v.scribeSpace 0) 0x10008000 .read) = true ∧
    (0x1000#64) &&& ~~~0x000FFFFFFFFFFF00#64 = 0 ∧ (1#64) &&& ~~~0x000FFFFFFFFFFF00#64 ≠ 0 ∧
    (0x8000000000000001#64) &&& ~~~0x80000000FFFFFFFF#64 = 0 ∧
    ((State.reset.modLupSlot 0 fun l => { l with cfg := .ofNat 64 (2 ^ 63) }).lupSlot 0).en = true := by decide +kernel

/-! ## Security, retirement and the fabric -/

theorem test_meets_Security_boot : State.reset.bootStage = .cold ∧
    ({ State.reset with bootStage := .powering } : State).nibUp = true ∧ State.reset.flash.lmsLeaf < 2 ^ 20 := by decide
/-- An accepted envelope of KIND 0x20 of tenant 9, where its signatures verify; its body is empty. -/
def envelope : List Byte := bytesOfNat 0x900 (natOfBytes (sha384 []) * 2 ^ (8 * 0x10) + magic * 2 ^ 32 + 0x20 * 2 ^ 24 +
  9 * 2 ^ 40 * 2 ^ (8 * 0x48))
/-- The keys, the minimum SVN and the device's BIND are values that the manual leaves open. -/
theorem test_meets_Security_grant
    (h1 : ecdsaGood (Config.ownerKey State.reset.flash.config) (sha384 (envBytes envelope 0 0x100)) (envBytes envelope 0x100 96) = true)
    (h2 : lmsGood (Config.ownerRoot State.reset.flash.config) (envBytes envelope 0 0x100) (envBytes envelope 0x160 1772) = true)
    (h3 : Config.minSvn State.reset.flash.config 0x20 = 0) (h7 : State.reset.flash.bind = 0) : State.reset.level = 0 ∧
    envAccepted State.reset.flash State.reset.flash.config 0x20 envelope = true ∧
    envWord envelope 0x40 = State.reset.flash.bind := by
  have h4 : envForm 0x20 envelope = true := by decide +kernel
  have h5 : (envBytes envelope 0x10 48 == sha384 (envBody envelope)) = true := by decide +kernel
  have h6 : envWord envelope 0x40 = 0 := by decide +kernel
  refine ⟨by decide, ?_, h6.trans h7.symm⟩
  simp [envAccepted, keyOf, h1, h2, h3, h4, h5, h6, minimumSvn]
/-- The debug states: tenant-debug and halt-capable over core 0, its picker standing still. -/
def debugging : State :=
  let s := ((world 1 id).activate 0).setDebug 1 2 0
  s.modCore 0 fun c => { c with hreq := true, halted := true }
theorem test_meets_Security_debug : debugging.level = 1 ∧ debugging.dstate = 2 ∧ State.reset.dstate < 1 ∧
    debugPermitted State.reset.level 1 = true ∧ debugging.coreOfPhys 0 = some 0 ∧ debugging.haltCapable = true ∧
    (∀ d ∈ debugging.haltSet 0, debugging.inScope d = true) ∧ (debugging.site (siteOf 0)).off = false ∧
    (∀ d ∈ debugging.haltSet 0, (debugging.powerOf d).on = true) ∧ (debugging.core 0).hreq = true ∧
    debugging.mayWrite (lane 0) = true := by decide
theorem test_meets_Retirement :
    let b : Block := { Block.reset with slots := [2, 0, 0, 0, 0, 0, 0, 0, 0], names := [14, 1, 2, 3, 4, 5, 6, 7] }
    let s := State.reset.modSite 0 fun st => { st with blocks := [(0, b)] }
    ((State.reset.site 0).block 0).slots.getD 8 1 = 0 ∧ ((State.reset.site 0).block 0).rtdead = false ∧
    (s.site 0).block 0 = b ∧ vacantName ∈ b.names ∧ (∀ c ∈ coresOfBlock 0 0, s.teamsOn c = []) ∧
    (s.site 0).out = false ∧ (s.site 0).scdead.getLsbD 63 = false := by decide
/-- Site 0 with links 0 and 1 up, of three lanes each, and steering on. -/
def lit : State := State.reset.modSite 0 fun st => { st with
  optlinks := [(0, .ofNat 64 (2 ^ 63 + 0x7)), (1, .ofNat 64 (2 ^ 63 + 0x38))]
  steercfg := .ofNat 64 (2 ^ 63 + 1000)
  demand := [(1, 9000000)] }
theorem test_meets_Fabric_links : State.reset.linkAlive 0 1 = true ∧ (State.reset.site 0).off = false ∧
    1 ∈ State.reset.aliveNeighbours 0 ∧ neighbour 0 1 = some 1 ∧ bitOf (State.reset.site 0).edead 1 = false ∧
    bitsOf ({ State.reset with wtstatus := .ofNat 64 (2 ^ 62) } : State).wtstatus.toNat 63 62 = 1 ∧
    1 ∈ ((State.reset.modSite 0 fun st => { st with deadWait := [1] }).site 0).deadWait := by decide +kernel
theorem test_meets_Fabric_versions :
    let v : DWord := 2 ^ 32 + 2 * 2 ^ 16
    let b := State.reset.modSite 0 fun st =>
      { st with broadcasts := [⟨2, true⟩], netver := .ofNat 64 (2 ^ 32 + 2 * 2 ^ 16 + 1) }
    let r := { State.reset with commits := [⟨5, some 2, 0⟩] }
    bitsOf v.toNat 63 34 = 0 ∧ bitOf v.toNat 32 = true ∧ bitOf v.toNat 33 = false ∧
    bitsOf v.toNat 31 16 = nextVersion (State.reset.site 0).active ∧
    bitsOf (2 ^ 32 + 3 * 2 ^ 16) 31 16 ≠ nextVersion (State.reset.site 0).active ∧
    (0x80000002#32).getLsbD 31 = true ∧ bitsOf (0x80000002#32).toNat 30 16 = 0 ∧
    earliestRequest r.tick r.commits = some ⟨5, some 2, 0⟩ ∧ 2 = nextVersion (r.site r.netroot).active ∧
    3 ≠ nextVersion (r.site r.netroot).active ∧ (b.site 0).broadcasts = ⟨2, true⟩ :: [] ∧
    older (b.site 0).active 2 = true ∧ (b.site 0).prep = true ∧ (b.site 0).shadow = 2 := by decide +kernel
theorem test_meets_Fabric_lanes : (lit.site 0).steers = true ∧ (lit.site 0).steerMove = some (2, 0, 1) ∧
    (lit.site 0).prep = false ∧ (lit.site 0).agrees 2 0 1 = true ∧ (lit.site 0).linkOf 2 = some 0 ∧
    (lit.site 0).portLive = true ∧ (lit.site 0).off = false ∧ neighbour 1 3 = some 0 := by decide +kernel

/-! ## The Blotter, the Lineup and power -/

theorem test_meets_Blotter :
    let v : DWord := 2 ^ 63 + 4 * 2 ^ 28
    let s := State.reset.modStream 0 7 fun t => { t with cfg := v, tail := 5, stalls := [(3, 1)] }
    State.reset.bltcfgBad 0 7 v.toNat = false ∧ v.getLsbD 63 = true ∧ ((State.reset.site 0).stream 7).isOpen = false ∧
    v.getLsbD 62 = false ∧ ((State.reset.site 0).stream 7).stalls = [] ∧
    { s with tick := 32000 }.stallOver (({ s with tick := 32000 }.site 0).stream 7) = true := by decide +kernel
theorem test_meets_Blotter_head :
    let s := State.reset.modStream 0 7 fun t => { t with tail := 5 }
    ((s.site 0).stream 7).head.toNat ≤ 5 ∧ 5 ≤ ((s.site 0).stream 7).tail.toNat ∧ ((s.site 0).stream 7).stalls = [] := by decide
/-- Slot 0 bound to launch 1, its gate at 0x10008000, its table at 0: expert 0 has two replicas in service
and no load. -/
def lineup : State :=
  let s := (world 1 id).modLupSlot 0 fun v => { v with
    cfg := .ofNat 64 (2 ^ 63 + 2 ^ 62 + 1 * 2 ^ 44 + 1), pol := 1, gate := 0x10008000 }
  let s := s.modLupSite 0 0 fun v => { v with bank := 0, ver := 1 }
  { s with mem := s.mem.writeNat (s.lupEntryPa 0 0 0 0) 8 (2 ^ 63 + 3) }
def gated : Bool × State :=
  let r := (lineup.due (.lineupReview 0) (lineup.lupSlot 0).reviewTicks).gateCas 0 0 0xFFFFFFFF
  (r.1, r.2.fence lupFence .module)
theorem test_meets_Lineup_review : (lineup.lupSlot 0).en = true ∧ (lineup.lupSlot 0).auto = true ∧
    (lineup.lupSlot 0).review = none ∧ gated.1 = true := by decide +kernel
theorem test_meets_Lineup_plan :
    ((gated.2.clearCounters 0).planReview 0 (gated.2.sumCounters 0)).n ≠ 0 := by decide +kernel
def reviewing (stage : ReviewStage) (acks : List Nat) : State := lineup.modLupSlot 0 fun v =>
  { v with review := some ⟨1, [], [], [], [], acks, 1, stage, 0, 0⟩ }
theorem test_meets_Lineup :
    bitsOf (2 ^ 63 + 5) 61 56 = 0 ∧ bitsOf (2 ^ 63 + 5) 35 32 = 0 ∧ (lineup.lupSlot 1).en = false ∧ lineup.lidBound 1 5 = false ∧
    ((reviewing .copying []).lupSlot 0).review.any (fun r => r.stage == .copying &&
      ((reviewing .copying []).lupCopies r.lid r.copies).2.isEmpty) = true ∧
    ((reviewing .prepared [3]).lupSlot 0).review.any (fun r => r.stage == .prepared && r.acks.contains 3) = true ∧
    ((reviewing .committing []).lupSlot 0).review.any (fun r => r.stage == .committing && r.acks.isEmpty) = true ∧
    (lineup.lupSlot 0).csite ≠ (lineup.lupSlot 0).ssite := by decide
def blocked (p : Power) : State := { State.reset.modBlock 0 3 (fun b => { b with power := p }) with tick := 8000000 }
theorem test_meets_Power :
    ((blocked .active).site 0).block 3 = { Block.reset with power := .active } ∧ (blocked .active).blockBusy 0 3 = false ∧
    0 + 80000 ≤ (blocked .active).tick ∧ (((blocked (.idle 0)).site 0).block 3).power = .idle 0 ∧
    0 + 8000000 ≤ (blocked (.idle 0)).tick ∧ (blocked (.idle 0)).keepsPower 0 3 = false ∧
    ((blocked (.powering none)).site 0).powering = none ∧ (blocked (.powering none)).pendingBlock 0 = some 3 ∧
    mayPower (blocked (.powering none)) 0 3 [1000, 72, 72] = true ∧
    (((blocked (.powering (some 7))).site 0).block 3).power = .powering (some 7) ∧ State.reset.mayTurnOff 1 = true ∧
    ((State.reset.modSite 0 fun st => { st with off := true }).site 0).off = true := by decide +kernel

/-! ## Steps -/

/-- A word placed for the very next step of core 0. -/
def placed (w : Nat) : State := State.reset.placeSimt (bytesOfNat 4 w)
def chosen (w : Nat) : State := { (placed w).choose 0 with todo := [] }
def fetchOk : Fetched → Option Nat
  | .ok w _ => some w
  | .trap _ _ _ => none
theorem test_meets_StepRunsDecoded : ([0x070C1404, 0, 0x29 * 4] : List Nat).all (fun w =>
      ((placed w).dueNow.isNone) && ((placed w).todo == [.core 0]) && !((placed w).core 0).stopped &&
      ((placed w).watched 0).isEmpty && ((chosen w).gang.isSome)) = true ∧
    ([0x070C1404, 0, 0x29 * 4] : List Nat).all (fun w => match (chosen w).gang with
      | some g => fetchOk ((chosen w).fetchAt 0 ((chosen w).gangCode g) g.pc) == some w
      | none => false) = true := by decide +kernel
theorem test_meets_StepRunsDecoded_translation : (match (chosen 0x070C1404).gang with
    | some g => decide (((chosen 0x070C1404).gangCode g).codeBase.toNat ≤ g.pc.toNat) &&
        isOk ((chosen 0x070C1404).translate 0 ((chosen 0x070C1404).gangCode g).space g.pc.toNat .fetch)
    | none => false) = true := by decide +kernel
theorem test_meets_StepRunsDecoded_module : State.reset.dueNow.isSome = true ∧
    ({ State.reset with agenda := [] } : State).dueNow = none ∧
    ({ State.reset with agenda := [] } : State).todo = [] := by decide
theorem test_meets_StepRunsDecoded_scribe : ([0x080018C1, 0] : List Nat).all (fun w =>
    let s := State.reset.placeScribe (bytesOfNat 4 w)
    s.dueNow.isNone && (s.todo == [.scribe 0]) && (s.scribeCore 0).task.isSome && (s.scribeCore 0).stall.isNone &&
      (match ({ s with todo := [] } : State).scribeWord 0 with
        | .ok (v, _) => v == w
        | .error _ => false)) = true := by decide +kernel
theorem test_meets_WholeGangTraps : issuingB (world 8 id) (gangOf 8) .nop .zero 4 = true ∧
    issueCheck .add { x0 with ty := 14 } ((world 8 id).gangLaunch (gangOf 8)) = some 0x05 := by decide
theorem test_meets_StepsAnswer : ({ world 1 id with scribe := some 0 } : State).gang.isSome = true ∧
    ({ world 1 id with scribe := some 0 } : State).scribe.isSome = true := by decide
theorem test_meets_StepKeepsMemories : State.reset.memoriesWf ∧
    ∃ t, step State.reset = .next t := by
  refine ⟨⟨by decide, by decide, by decide, by decide, by decide⟩, ?_⟩
  have h : (match step State.reset with
    | .next _ => true
    | _ => false) = true := by decide +kernel
  cases hs : step State.reset with
  | next t => exact ⟨t, rfl⟩
  | fault f => rw [hs] at h; exact absurd h (by simp)
  | refused r => rw [hs] at h; exact absurd h (by simp)
/-- A pair at x7, and the register x8 of eight. -/
theorem test_meets_RegistersAndPredicates : ([⟨7, 7, 2⟩, ⟨8, 5, 1⟩] : List (BitVec 7 × BitVec 5 × Nat)).all (fun p =>
    (decodeCheck .add { x0 with a := p.1, ty := p.2.1 } == none) &&
    (Op.add.operands { x0 with a := p.1, ty := p.2.1 }).any (fun o => !o.pred && o.num == p.1.toNat && o.count == p.2.2)) = true ∧
    7 % 2 ≠ 0 ∧ 8 < 8 + 1 := by decide
theorem test_meets_RegistersAndPredicates_predicate : decodeCheck .pand { x0 with b := 8 } = none ∧
    (Op.pand.operands { x0 with b := 8 }).any (fun o => o.pred && 8 ≤ o.num) = true := by decide

/-! ## Results, from the spec's examples -/

/-- R195: sums wrap. -/
theorem test_add_wraps : xAfter (exec (.add false 7 6 5) (world 1 (withRegs [(6, 0xFFFFFFFF), (7, 2)]))) 0 5 = some 1 := by decide
/-- R200: division by zero gives all ones, the remainder the dividend. -/
theorem test_divide_by_zero : (exec (.div { x0 with a := 6, b := 7, d := 5, ty := 6 })
    (world 1 (withRegs [(6, 9), (7, 0)])) |> fun o => match o with
      | .next t => (t.thread (lane 0)).windows.map (·.regs)
      | _ => []) = [[(5, 0xFFFFFFFF)]] := by decide
/-- R210's example: lane 5 is inactive by p1. -/
def scanWorld : State := { world 8 id with
  threads := (List.range 8).map fun l =>
    let v := [0x4B800000, 0x3F800000, 0x3F800000, 0xCB800000].getD l 0
    (lane l, (withRegs [(4, v), (6, 77), (7, 77)] (placedThread 0)).setP 1 (l != 5)) }
theorem test_scan : let o := exec (.sscan { x0 with d := 6, a := 4, gp := 1, ty := 14, sub := 6 }) scanWorld
    (List.range 8).map (xAfter o · 6) = [0x4B800000, 0x4B800000, 0x4B800000, 0, 0, 77, 0, 0].map some ∧
    (List.range 8).map (flagsAfter o ·) = [16, 16, 16, 16, 16, 0, 16, 16].map some := by decide +kernel
theorem test_reduce : let o := exec (.sred { x0 with d := 7, a := 4, gp := 1, ty := 14, sub := 6 }) scanWorld
    (List.range 8).map (xAfter o · 7) = [0, 0, 0, 0, 0, 77, 0, 0].map some := by decide +kernel
/-- R246's example: 300.5, −300.5 and 500 to e4m3 under .rn, .rz, .ru and .rd. -/
theorem test_convert : ([0x43964000, 0xC3964000, 0x43FA0000] : List Nat).map (fun v => ([0, 1, 2, 3] : List (BitVec 8)).map fun m =>
      let o := exec (.cvt { x0 with d := 7, a := 8, ty := 16, imm := 14, sub := m }) (world 1 (withRegs [(8, v)]))
      (xAfter o 0 7, flagsAfter o 0)) =
    [[(some 0x79, some 16), (some 0x79, some 16), (some 0x7A, some 16), (some 0x79, some 16)],
     [(some 0xF9, some 16), (some 0xF9, some 16), (some 0xF9, some 16), (some 0xFA, some 16)],
     [(some 0x7E, some 48), (some 0x7E, some 48), (some 0x7E, some 48), (some 0x7E, some 48)]] := by decide +kernel
/-- R249's example, with RNGSTATE 1. -/
theorem test_convert_stochastic :
    let o := exec (.cvtsr { x0 with d := 7, a := 8, ty := 16, imm := 14 }) (world 1 (withRegs [(8, 0x43964000)]))
    xAfter o 0 7 = some 0x7A ∧ flagsAfter o 0 = some 16 ∧
    (match o with | .next t => (t.thread (lane 0)).rng | _ => 0) = 0x00042021 := by decide +kernel
/-- R250's example: one rounding. -/
theorem test_dot :
    let s := world 1 (withRegs [(10, 0x3838), (11, 0x3838), (12, 0x4B800000)])
    let o := exec (.dot4 { x0 with d := 9, a := 10, b := 11, c := 12, ty := 21 }) s
    xAfter o 0 9 = some 0x4B800001 ∧ flagsAfter o 0 = some 0 := by decide +kernel
/-- R150's example: the scale exponent of one E2M1 block. -/
theorem test_quantize : q4BlockE 1 ([0x3E99999A, 0xBF99999A, 0x40200000, 0, 0x3D4CCCCD, 0xBF333333, 0x3FF33333, 0x3F4CCCCD].map
    Fmt.f32.decode) = 31 := by decide +kernel
/-- R7's examples: the first edge of a route (E is 1, S is 2, W is 3). -/
theorem test_routes : [bootEdge 14 33, bootEdge 17 33, bootEdge 25 33, bootEdge 2 22, bootEdge 8 22, bootEdge 15 22, bootEdge 14 22] =
    [some 1, some 2, some 2, some 2, some 2, some 3, some 2] := by decide
/-- R10's example: dead slots 2 and 5. -/
theorem test_names : let b := { Block.reset with slots := [0, 0, 1, 0, 0, 1, 0, 0, 0] }.derive
    b.npairs = 3 ∧ b.names.take 7 = [0, 1, 3, 4, 6, 7, 8] := by decide
/-- R103's example: the ring of 8 slots at 0x4000 takes a message of 24 bytes with HEAD 6 and TAIL 13. -/
theorem test_ring : let s := (world 1 id).modTeam 1 fun t => { t with
      ringCfg := [(0, .ofNat 64 (2 ^ 63 + 3 * 2 ^ 36 + 0x4000))], ringTail := [(0, 13)]
      scratch0 := Memory.writeNat [] 0x4000 8 (6 + 13 * 2 ^ 32) }
    let t := s.append 1 0 { pkt 5 with len := 24, payload := List.replicate 24 7 }
    ((t.team 1).scratch 0).readNat 0x4180 25 = 0x070707070707070707070707070707070707070707070707 ∧
    ((t.team 1).scratch 0).readNat 0x4268 4 = 24 ∧ ((t.team 1).scratch 0).readNat 0x4004 4 = 14 := by decide +kernel
/-- R383's example: with slice 2 retired, line 7 of shared mode lies in slice 3. -/
theorem test_slice : (State.reset.modSite 0 fun st => { st with l2live := 0x3B }).sliceOf (7 * 128) = 3 := by decide
/-- R220: a load takes the lowest byte from the lowest address. -/
theorem test_load_order : let s := near.modTeam 1 fun t => { t with scratch0 := [(16, 0x78), (17, 0x56), (18, 0x34), (19, 0x12)] }
    (match exec (.ld { loadNear with la := 0 }) s with
      | .next t => (t.thread (lane 0)).windows.map (·.regs)
      | _ => []) = [[(10, 0x12345678)]] := by decide +kernel
/-- R320, R325: TRAP 3 leaves its thread in trap delivery, to resume behind it. -/
theorem test_trap : (match exec (.trap 3) (world 1 id) with
      | .next t => ((t.thread (lane 0)).status, (t.thread (lane 0)).resume.toNat - placedCode)
      | _ => (.ready, 0)) = (.trapped, 4) := by decide
/-- R303: LOOP on a count of 1 goes on. -/
theorem test_scribe_loop : (match exec (.scribeLoop 4 0 5) (scribing.modScribe 0 fun c => { c with s := [(5, 1)] }) with
      | .next t => ((t.scribeCore 0).pc, (t.scribeCore 0).rs 5)
      | _ => (0, 1)) = (4, 0) := by decide
/-- R307: VRED adds the sixteen integers 1 to 16. -/
theorem test_scribe_reduce : (match exec (.vred 0 3 1 4) scribing with
      | .next t => (t.scribeCore 0).rs 4
      | _ => 0) = 136 := by decide +kernel

/-! ## Further clauses -/

/-- A target literal that is no multiple of 4 (R179). -/
theorem test_meets_Branches_literal : [Instr.brExt { x0 with lit := some 2 }, .callExt { x0 with lit := some 6 },
    .loop { x0 with d := 5, lit := some 1 }].all (meets (world 2 id) 2) = true ∧
    [2#64, 6#64, 1#64].all (fun v => v.toNat % 4 != 0) = true := by decide
/-- Nothing stands between the thread and the newest bytes that it reads; its access is at no register. -/
def stepAt (s : State) (k : Issue) (n : Nat) (kind : AccessKind) : State := okState (checkedAt s k (lane 0) n kind)
theorem test_meets_Loads_plain :
    (stepAt near (kNear .ld loadNear) 4 .read).plain .t ((stepAt near (kNear .ld loadNear) 4 .read).party (lane 0)) 1 (.scr 0 16) 4 =
      true := by decide
def kStore : Issue := (gangOf 1).issue .st (.bi 0 4 10) 4
theorem test_meets_Stores_ready :
    let s1 := stepAt near kStore 4 .write
    let w := (s1.storeAt kStore (lane 0) (.scr 0 16)).threadWrite (lane 0) (.scr 0 16) 4 0xCAFE
    ((s1.registersWritten w).thread (lane 0)).status = .ready := by decide
theorem test_meets_Atomics_ready :
    let k := kNear .cas casNear
    let s1 := stepAt near k 4 .atomic
    let w := ((s1.readAt k (lane 0) (.scr 0 16)).sees (s1.party (lane 0)) 1 (.scr 0 16) 4).openWindow k (lane 0) true
      (regWrites 10 1 0) [] 0 none
    ((s1.registersWritten w.2).thread (lane 0)).status = .ready := by decide
theorem test_meets_Reductions_ready :
    let k := kNear .red redNear
    let s1 := stepAt near k 4 .atomic
    let w := ((s1.addFlags 1 (.scr 0 16) 0).atomicAt k (lane 0) (.scr 0 16)).threadWrite (lane 0) (.scr 0 16) 4 1
    ((s1.registersWritten w).thread (lane 0)).status = .ready := by decide
/-- A thread's complete store on path t, and a FENCE .t, .t, .squad of that thread. -/
def stored0 : Unseen :=
  { path := .t, agent := near.party (lane 0), team := 1, loc := .scr 0 16, n := 4, old := 0, event := (0, 0), atomic := false,
    owed := .nothing, fences := [], seenBy := [], shown := false }
theorem test_meets_HintsAndFences_fence :
    let f : Fence := ⟨1, 1, 0⟩
    meetsSole { near with unseen := [stored0] } (.fence { x0 with pm1 := 1, pm2 := 1 }) = true ∧
    f.names f.x stored0.path = true ∧ covers f.scope (near.party (lane 0)) stored0.agent = true ∧
    f.names f.y .t = true ∧ covers f.scope (near.party (lane 0)) (near.party (lane 3)) = true := by decide
/-- EXIT with a command in flight, the tracker with room, and full. -/
def owing (n : Nat) : State :=
  let c := { Command.blank with op := .cpy, core := 0, team := 1, lid := 1, lanes := [lane 0], ready := true }
  { (world 1 id) with commands := [(30, c)] }.modCore 0 fun co =>
    { co with tracker := List.replicate n { team := 1, lid := 1, task := none, cmds := [31] } }
theorem test_meets_Exit : (world 1 id).outstanding [lane 0] = [] ∧ (owing 63).outstanding [lane 0] ≠ [] ∧
    ((owing 63).core 0).tracker.length < 64 ∧ 64 ≤ ((owing 64).core 0).tracker.length ∧
    [owing 63, owing 64].all (fun s => meetsSole s .exit) = true := by decide
/-- DEFER's checks of the continuation that the WAITING record already holds. -/
theorem test_meets_TaskSpawns_checked :
    let s := { record 1 1 with mem := (record 1 1).mem.writeNat 0x10008010 8 placedCode }
    let s1 := okState (recordCheck s)
    isOk (spawnChecks (kNear .defer cont) (lane 0) s1 0x10008000 placedCode) = true ∧
    recMalformed s1 0x10008000 8 = false := by decide
theorem test_meets_OperandBufferLoads_plain :
    (stepAt solo (kNear .obld bload) 4 .read).plain .m ((stepAt solo (kNear .obld bload) 4 .read).party (lane 0)) 1 (.scr 0 0) 4 =
      true := by decide
/-- MFREE of a team that waits for the lease. -/
theorem test_meets_Leases_waiting : let s := free_.modTeam 1 fun t => { t with leaseWait := true }
    meetsSole s (.mfree x0) = true ∧ s.leaseHeld 1 = false ∧ 0 < (s.launchOf (lane 0)).lease ∧
    (∀ p ∈ s.threads, p.1.team = 1 → p.2.status ≠ .parked .lease) ∧ (s.team 1).leaseWait = true := by decide
theorem test_meets_Seals_plain :
    let s1 := stepAt fresh (sealK .sealput) 256 .read
    s1.plain .t (s1.party (lane 0)) 1 (.scr 0 0x100) 256 = true ∧ (Loc.scr 0 0x100).plain = true := by decide
def sAccState : SAcc → State
  | .ok _ s => s
  | _ => .reset
theorem test_meets_ScribeLoads_plain :
    let s1 := sAccState (scribing.begun.scribeAccess 0 0x10008010 8 .read)
    s1.plain .n (.scribe 0) 0 (.glob 0x10008010) 8 = true := by decide
/-- TDEC of the last count: the record becomes READY and has room. -/
def lastCount : State := { scribing with mem := scribing.mem.writeNat 0x10008000 8 (1 + 2 ^ 32) }
def countDone : CountEv → Option State
  | .done s true => some s
  | _ => none
theorem test_meets_ScribeTasks_ready :
    let s1 := sAccState ((lastCount.begun.completeWrites (.scribe 0)).scribeAccess 0 0x10008000 64 .atomic)
    begunB lastCount (.scribeTdec 1 0 3) = true ∧
    (countDone (s1.countDown (.scribe 0) 0x10008000 1)).any (fun s2 => !(s2.ready (.scribe 0) 0x10008000).2) = true := by decide
/-- Packets at site 1, of the version in force there, on the mesh. -/
def carried (n : BitVec 8) : Packet := { pkt n with ver := 1 }
theorem test_meets_Packets_stale : ([1, 3, 4] : List (BitVec 8)).all (fun n => !(arriving (pkt n)).stalePacket (pkt n)) = true ∧
    regWord ringing 0x1000B0C0 3 = (pkt 5).win.arrived.toNat := by decide +kernel
/-- A packet for site 1 that stands on site 0. -/
def leavingPacket : Packet := { carried 1 with at_ := 0 }
theorem test_meets_Packets_crossing :
    let s := ((arriving leavingPacket).modSite 0 fun st => { st with activeBank := bootBank 0 }).modSite 1 fun st =>
      { st with activeBank := bootBank 1 }
    let e := meshEntry (s.site 0).activeBank 1
    s.delivers (carried 1) = true ∧ bitOf (meshEntry (s.site 1).activeBank 1) 15 = true ∧
    bitsOf (meshEntry (s.site 1).activeBank 1) 13 3 = 0 ∧ leavingPacket.ver.toNat = (s.site 0).active ∧
    leavingPacket.hops < 24 ∧ bitOf e 15 = true ∧ bitOf e 14 = false ∧ bitsOf e 13 3 = 0 ∧
    s.reaches leavingPacket (edgeRouter (e % 4)) = true ∧ neighbour 0 (e % 4) = some 1 ∧ leavingPacket.vc ≠ 3 ∧
    (e % 4) ∉ (s.site 0).deadRefuse ∧ (s.site 1).off = false ∧ bitOf (s.site 0).edead (e % 4) = false := by decide +kernel
theorem test_meets_Packets_outside : (pkt 1).dstSite < 60 ∧ (pkt 1).len ≤ 4096 ∧ (pkt 1).payload.length ≤ 4096 ∧
    ((arriving (pkt 1)).site 0).off = false := by decide +kernel
theorem test_meets_ContextCompletions_cause : saving.cause = 0 ∧ saving.base.toNat % 256 = 0 ∧ loading.base.toNat % 256 = 0 := by decide
theorem test_meets_MatrixEngine_window : ∀ e ∈ ([] : List EngineOp), e.window = 5 → ∀ m, e.work.hold m = e.work := by simp
theorem test_meets_Scheduler_completed : (ended.launch 1).root = 0 ∧ wanting.squadsOfTeam 1 ≠ [] ∧
    (∀ d ∈ (holding.team 9).cores, (holding.core d).halted = false) ∧ (rooting.launch 1).root ≠ 0 := by decide
/-- A run of one corrected error at a line of DRAM, and the time at which it closes. -/
def struck : State :=
  let r := (State.reset.strikeReport (.dram 0x1000) false).2
  { State.reset.modSite 0 (fun st => { st with runs := [⟨r, 0, 0, 1⟩] }) with tick := oneMilli }
theorem test_meets_MemorySteps_runs : (State.reset.site 0).runs = [] ∧
    (∀ d ∈ ({ State.reset with agenda := [] } : State).agenda, d.ev ≠ .l2FlushDone 0) ∧ 8 ≤ hdmRoom 0x1000 ∧
    State.reset.plain .host .host 0 (.glob 0x1000) 8 = true ∧
    (struck.strikeReport (.dram 0x1000) false).1 = 0 ∧
    (struck.site 0).runs.all (fun q => sameUnit q.first (struck.strikeReport (.dram 0x1000) false).2 &&
      decide (q.opened + oneMilli ≤ struck.tick)) = true ∧ (struck.site 0).runs.length = 1 := by decide +kernel
theorem test_meets_Retirement_routers : ((State.reset.site 0).block 3).rtdead = false ∧
    bitOf (State.reset.site 0).rdead (3 * (12 - 12)) = false ∧ bitOf (State.reset.site 0).rdead (3 * (17 - 12)) = false := by
  decide
theorem test_meets_Fabric_off : (State.reset.site 0).off = false ∧
    ((State.reset.modSite 0 fun st => { st with off := true }).site 0).off = true := by decide
theorem test_meets_Lineup_unheld : lineup.maintained = false ∧
    ([.copying, .prepared, .committing] : List ReviewStage).all (fun k => !(reviewing k []).maintained) = true := by decide +kernel
theorem test_meets_Power_launches : (world 1 id).launchesOn 0 ≠ [] ∧
    (∀ k ∈ (world 1 id).launchesOn 0, AMap.find? k (world 1 id).launches ≠ none) ∧
    AMap.find? report0.lid trapped.launches ≠ none := by decide
theorem test_meets_StepRunsDecoded_more :
    ({ converging with todo := [], agenda := [] } : State).windowsOver = [⟨1, 0⟩] ∧
    ({ starved with todo := [.core 0] } : State).watched 0 = [lane 0] ∧
    (match (chosen 0x070C1404).gang with
      | some g => !(chosen 0x070C1404).accessHeld (match (chosen 0x070C1404).translate 0
          ((chosen 0x070C1404).gangCode g).space g.pc.toNat .fetch with | .ok r => r.1 | .error _ => 0)
      | none => false) = true := by decide +kernel

/-! ## Event points (R417) -/

/-- Stream 2 of site 0 takes tenant 0, lossless with its watermark at 960 of 1,024 slots, and holds `n`
records. -/
def lossless (n : Nat) : State := State.reset.modStream 0 2 fun t =>
  { t with cfg := .ofNat 64 (2 ^ 63 + 2 ^ 62 + 0xFF * 2 ^ 40 + 15 * 2 ^ 28), tail := .ofNat 64 n }

/-- Stream 7 of site 0 with three records lost. -/
def lossy : State := State.reset.modStream 0 7 fun t => { t with tail := 1024, lost := 3, lostBy := emitter 5 noCore }

theorem test_meets_StepRunsDecoded_stall : ((lossless 960).report 0 0x2403 5 noCore 0 7).stops ≠ [] ∧
    ((lossless 959).report 0 0x2403 5 noCore 0 7).stops = [] := by decide +kernel
theorem test_meets_Trace_loss : ((lossy.site 0).stream 7).lost ≠ 0 ∧ ((lossy.site 0).stream 7).fallback = false ∧
    ((lossy.site 0).stream 7).stalls = [] ∧
    ((lossy.site 0).stream 7).tail.toNat - 512 < ((lossy.site 0).stream 7).size := by decide
/-- 23_blotter.md, R411, R413, R417: the loss record takes the first room, its count 3, SRC 5, CODE 1. -/
theorem test_lossRecord : (match execBltheadWrite 0 7 512 lossy with
    | .next t => some (t.mem.readNat 8 8)
    | _ => none) = some (3 * 2 ^ 40 + 5 * 2 ^ 29 + 0x1FFF * 2 ^ 16 + 1) := by decide +kernel
/-- R417: a step whose engine must stall is made again later, and its emitter is stalled. -/
theorem test_stallHolds : (match (lossless 960).atPoints (some (.slotRetire 0 0 0))
      (.next ((lossless 960).report 0 0x2403 5 noCore 0 7)) with
    | .next t => some (t.stops, ((t.site 0).stream 2).stalls, t.agenda.getLast?.map (·.ev))
    | _ => none) = some ([], [(emitter 5 noCore, 1)], some (.slotRetire 0 0 0)) := by decide +kernel

/-! ## Clauses of the third review -/

/-- Whether every memory is in canonical form, as `State.memoriesWf` says. -/
def wfB (s : State) : Bool :=
  s.mem.wf && s.teams.all (fun p => p.2.scratch0.wf && p.2.scratch1.wf && p.2.acc0.wf && p.2.acc1.wf) &&
    s.cores.all (fun p => p.2.opBuf.wf) && s.scribes.all (fun p => p.2.sram.wf) &&
    s.sites.all fun p => p.2.activeBank.wf && p.2.shadowBank.wf
theorem wf_of {s : State} (h : wfB s = true) : s.memoriesWf := by
  simp only [wfB, Bool.and_eq_true, List.all_eq_true] at h
  exact ⟨h.1.1.1.1, fun p hp => ⟨(h.1.1.1.2 p hp).1.1.1, (h.1.1.1.2 p hp).1.1.2, (h.1.1.1.2 p hp).1.2,
    (h.1.1.1.2 p hp).2⟩, h.1.1.2, h.1.2, h.2⟩
theorem test_meets_memoriesWf : [world 2 id, near, far, ring 1, record 2 1, solo, engine, quantScr, sealed 2, fresh,
    scribing, counting].all wfB = true := by decide +kernel

/-- CALL and CALLI by two lanes with room, by one alone, and at full depth. -/
def deep : State := world 2 fun th => { th with depth := 8 }
theorem test_meets_Calls_gang : [Instr.call 4 false 0, .callExt { x0 with imm := 4 }, .calli 6].all
      (fun i => meets (world 2 id) 2 i && meets deep 2 i) = true ∧
    (∀ m ∈ (gangOf 2).members, ((world 2 id).thread m.2).status = .ready ∧ (deep.thread m.2).status = .ready ∧
      ((world 2 id).thread m.2).depth < ((world 2 id).launchOf m.2).depth ∧
      (world 2 id).badLoc m.2.team ((world 2 id).stackLoc m.2 0) 8 = false ∧
      (deep.launchOf m.2).depth ≤ (deep.thread m.2).depth) ∧
    (world 1 id).lastAt (lane 0) ((world 1 id).stackLoc (lane 0) 0) 8 ∧
    (called.lastAt (lane 0) (called.stackLoc (lane 0) 0) 8) ∧ handler.lastAt (lane 1) (handler.stackLoc (lane 1) 0) 8 := by
  unfold State.lastAt; decide
/-- Two threads at a barrier together; one of two, the other still running; and the other parked there before, at
another PC. -/
def waitsAt (p : Park) : State :=
  two.modThread (lane 1) fun th => { th with status := .parked p, pc := .ofNat 64 (placedCode + 64) }
theorem test_meets_Barriers_gathered : [Instr.ssync, .ssyncExt x0, .tbar, .tbarExt x0].all
      (fun i => meets (world 2 id) 2 i && meets two 1 i) = true ∧
    meets (waitsAt (.ssync 4)) 1 .ssync = true ∧ meets (waitsAt (.tbar 4)) 1 .tbar = true ∧
    (gangOf 2).gathered (world 2 id) ∧ (gangOf 1).gathered two ∧ (gangOf 1).gathered (waitsAt (.ssync 4)) ∧
    (∃ u ∈ two.liveOf sq, u ≠ lane 0 ∧ (two.thread u).ssyncLen = none) ∧
    (∀ u ∈ (world 2 id).liveOf sq, u ∈ (gangOf 2).members.map Prod.snd ∧ ((world 2 id).thread u).pc = (gangOf 2).pc) ∧
    (∀ u ∈ (waitsAt (.ssync 4)).liveOf sq, u = lane 0 ∨ ((waitsAt (.ssync 4)).thread u).ssyncLen = some 4 ∧
      ((waitsAt (.ssync 4)).thread u).pc ≠ (gangOf 1).pc) ∧
    (∀ q ∈ (waitsAt (.tbar 4)).squadsOfTeam 1, ∀ u ∈ (waitsAt (.tbar 4)).liveOf q,
      u = lane 0 ∨ ((waitsAt (.tbar 4)).thread u).tbarLen = some 4) := by
  unfold Gang.gathered; decide
theorem test_meets_Barriers_untraced : (gangOf 2).untraced (world 2 id) := by
  intro m hm u h
  have e : u.sid = sq := by
    rw [h]
    exact (by decide : ∀ m ∈ (gangOf 2).members, m.2.sid = sq) m hm
  have t : u.team = 1 := congrArg Sid.team e
  have l : (world 2 id).launchOf u = (world 2 id).launchOf (lane 0) := by
    simp only [State.launchOf, t]; rfl
  rw [e, l]; decide
/-- Nothing keeps a thread from the newest bytes at the places that the stores of the tests go to. -/
theorem test_meets_Stores_last :
    (stepAt near kStore 4 .write).lastAt (lane 0) (.scr 0 16) 4 ∧
    ((ring 1).seesRing (lane 0) 1).lastAt (lane 0) (.scr (((ring 1).team 1).ringHalf 1) (((ring 1).team 1).ringBase 1)) 4 ∧
    (stepAt (sealed 2) (sealK .sealget) 256 .write).lastAt (lane 0) (.scr 0 0x100) 256 := by
  unfold State.lastAt; decide
/-- MRD and MWR of a word past the share. -/
theorem test_meets_AccumulatorWords_beyond :
    let s := { engine with threads := engine.threads.map fun (p : Tid × Thread) => (p.1, withRegs [(8, 98304)] p.2) }
    oneSquadB s (gangOf 8) .mrd { x0 with d := 4, c := 8 } 12 sq = true ∧
    oneSquadB s (gangOf 8) .mwr { x0 with a := 4, c := 8 } 12 sq = true ∧
    lane 0 ∈ activeOf s (gangOf 8) { x0 with d := 4, c := 8 } ∧ (s.team 1).accBytes <
      bitsOf ((s.thread (lane 0)).x 8).toNat 20 0 + (x0.type).size := by decide
/-- The blocks of an 8 x 16 tile lie apart, and lane 0 must see every write at them. -/
def fullTile : Tile := ⟨0, 16, 8, 16⟩
theorem test_meets_Quant_places : (quantPlaces fullTile 0 4096 0 16).Nodup ∧ (quantPlaces fullTile 0 64 0 16).Nodup ∧
    (quantScr.team 1).badAcc = [] ∧ quantScr.unseen = [] ∧ (activeOf quantScr (gangOf 8) x0).head? = some (lane 0) := by
  decide +kernel
/-- The entries of MDRAIN and QUANT at the head of the engine's order. -/
theorem test_meets_MatrixEngine_drainQuant :
    let r : DWord := .ofNat 64 (2 ^ 63 + 2 ^ 44 + 18 * 2 ^ 39 + 2 ^ 37 + 2 ^ 25)
    let d := { working (.drain 30 smallTile) with commands := [(30, Command.blank)] }
    ([.drain 30 smallTile, .quantBuffer 0 fullTile r 0 16, .quantScratch 0 fullTile 0 0 4096 16] :
      List EngineWork).all (fun w => decide (((working w).core 0).engine = [⟨w, 1, 0, [lane 0], 5⟩]) && wfB (working w) &&
        ((working w).team 1).badAcc.isEmpty && ((working w).core 0).badOpBuf.isEmpty && (working w).unseen.isEmpty) = true ∧
    AMap.find? 30 d.commands = some Command.blank ∧ recBase r * 4096 = 0 ∧ recSoff r * 64 = 64 := by decide +kernel
/-- XLOOK of an expert with two replicas in service, of one without a table, with no flip or flush. -/
theorem test_meets_Lookups : (world 1 id).lookHeld 0 1 0 = false ∧ (world 1 id).lupOf 1 = none ∧
    lineup.lookHeld 0 1 0 = false ∧ lineup.lupOf 1 = some 0 ∧ ((lineup.site 0).lupSite 0).version = 1 ∧
    (List.range 8).filter (bitOf (lineup.lupLive 0 0 ((lineup.site 0).lupSite 0).sel 0)) = [0, 1] ∧
    meetsSole lineup (.xlook { x0 with d := 4, a := 8 }) = true := by decide +kernel
/-- The stream of `traced` with another configuration. -/
def openTo (v : Nat) : State := ({ traced with gang := some (gangOf 1) }).modSite 0 fun st =>
  { st with streams := st.streams.set 0 { Stream.reset with cfg := .ofNat 64 v } }
theorem test_meets_Events : meetsSole (world 1 id) (.trev x0) = true ∧
    (traced.thread (lane 0)).status = .ready ∧ ((traced.site 0).stream 0).cfg.getLsbD 39 = false ∧
    ((traced.site 0).stream 0).cfg.getLsbD 40 = false := by decide
theorem test_meets_Events_room : let s := openTo (2 ^ 63 + 2 ^ 39 + 4 * 2 ^ 28)
    let st := (s.site 0).stream 0
    wfB s = true ∧ (s.site 0).streamOf (s.gangLaunch (gangOf 1)).tenant = some 0 ∧
    st.cfg.getLsbD 39 = true ∧ st.fallback = false ∧ st.owed = [] ∧ st.lost = 0 ∧ st.lossless = false ∧ st.stalls = [] ∧
    st.head.toNat ≤ st.tail.toNat ∧ st.tail.toNat + 1 < 2 ^ 64 ∧ st.room 1 = true := by decide
/-- The area's team can be placed on a core with power. -/
theorem test_meets_ContextCompletions_power : ((readOk load).2.powerOf 0).on = true ∧ saving.cause = 0 := by decide +kernel

/-! Packets. -/

/-- The second of two parts of a put, and a copy of a reducing put taken in before. -/
def twoParts : Packet := { pkt 1 with total := 2 }
def partOf (p : Packet) : Option Arrival := admitOk ((arriving p).admission 1 p)
def replayed : State := (arriving (pkt 2)).modSite 1 fun st => { st with
  replay := [(⟨(pkt 2).srcMod, (pkt 2).srcSite, (pkt 2).tag⟩, ⟨(pkt 2).seq.toNat, 1, 0⟩)] }
def seenB : Replay → Bool
  | .seen _ => true
  | _ => false
theorem test_meets_Packets_taken : ([1, 2, 3] : List (BitVec 8)).all (fun n => !(arriving (pkt n)).regHeld 1 3) = true ∧
    wfB (arriving (pkt 1)) = true ∧ (partOf twoParts).any (fun a => decide (1 < a.left)) = true ∧
    twoParts.payload.length = twoParts.len ∧
    isOk (((afterAdmit twoParts).dropPacket 20).translateWalk ⟨0, placedRoot, true⟩ 0x1000C000 .write) = true ∧
    isRegisterPa 0x1000C000 = false ∧
    (afterAdmit twoParts).plain .p ((afterAdmit twoParts).packetAgent twoParts) 0 (.glob 0x1000C000) 4 = true ∧
    replayOk ((arriving (pkt 2)).replayCheck 1 (pkt 2)) = true ∧ seenB (replayed.replayCheck 1 (pkt 2)) = true := by
  decide +kernel
/-- A message's page is free, and a module's own put and another's are told apart. -/
theorem test_meets_Packets_free : ringing.accessHeld 0x1000B0C0 = false ∧ ringing.unseen = [] ∧ wfB ringing = true ∧
    (pkt 3).srcMod.toNat = (arriving (pkt 3)).moduleId ∧ ({ pkt 3 with srcMod := 7 }).srcMod.toNat ≠ (arriving (pkt 3)).moduleId :=
  by decide +kernel
/-- A reply of a GET into the scratchpad; the units of an NMCMD, new and seen; a refusal that answers no answer. -/
def getting : State :=
  let s := arriving (pkt 4)
  { s with commands := [(30, { cmd0 with op := .get, parts := [40], addr := 2 ^ 56, len := 4 })] }
def nmAt : State := { arriving { pkt 7 with off := 0, ptype := 7 } with commands := [(30, nearCmd)] }
theorem test_meets_Packets_replies :
    ((AMap.find? 30 getting.commands).map fun c => (c.op == .get, c.loc (c.addr + ((pkt 4).off - c.word.toNat)),
      c.addr + ((pkt 4).off - c.word.toNat), getting.commandHeld c)) = some (true, some (.scr 0 0), 2 ^ 56, false) ∧
    2 ^ 56 % 65536 + (pkt 4).payload.length ≤ 65536 ∧ getting.unseen = [] ∧ wfB getting = true ∧
    nearCmd.units = [0 * 4 + 1] ∧ nmAt.commandHeld nearCmd = false ∧ nmAt.stalePacket (pkt 7) = false ∧
    replayOk (nmAt.replayCheck 1 (pkt 7)) = true ∧ seenB ((nmAt.modSite 1 fun st => { st with
      replay := [(⟨(pkt 7).srcMod, (pkt 7).srcSite, (pkt 7).tag⟩, ⟨(pkt 7).seq.toNat, 1, 0⟩)] }).replayCheck 1 (pkt 7)) = true ∧
    ((AMap.find? 40 (arriving (pkt 0x11)).sent).filter isAnswer).isNone = true ∧
    (lit.site (lit.landing 0)).portLive = true := by decide +kernel

/-! Steps of the module. -/

theorem test_meets_Scheduler_held : (AMap.find? 1 second.launches).any (fun l => second.heldPlace l == some 1) = true := by
  decide +kernel
/-- No signal waits for a flip, DRAM is where it is named, and a struck line holds its error. -/
theorem test_meets_MemorySteps_held : State.reset.heldSignals = [] ∧ State.reset.strikes (.dram 0x1000) = true ∧
    State.reset.keptAt 0x1000 = 0x1000 ∧ wfB State.reset = true ∧ bitsOf 0x1F 30 6 = 0 := by decide +kernel
/-- A link that fails, and one that has stood in retry for 1 µs with nothing on it. -/
theorem test_meets_Fabric_retry : AMap.find? 1 (State.reset.site 0).retry = none ∧
    AMap.find? 1 ((State.reset.modSite 0 fun st => { st with retry := [(1, [])] }).site 0).retry = some [] := by decide
/-- A move asked of one peer; a wavelength whose carrier a link counts. -/
def asked : State := lit.modSite 0 fun st => { st with asks := [⟨2, 0, 1, [3], 80000⟩] }
theorem test_meets_Fabric_asks : (asked.site 0).asks = [⟨2, 0, 1, [3], 80000⟩] ∧ asked.tick ≤ 80000 ∧
    (lit.site 0).carrierOf 0 = some 0 ∧ ({ lit.site 0 with moves := [] } : Site).agrees 2 0 1 = true := by decide +kernel
/-- A review whose reticles have all acknowledged; a controller that is lost, its standby with every table alike, and
with one that is newer. -/
def lostController : State :=
  let s := (reviewing .prepared []).modLupSlot 0 fun v => { v with review := none }
  s.modSite 0 fun st => { st with off := true }
def newerTable : State := lostController.modLupSite 5 0 fun v => { v with ver := 2 }
theorem test_meets_Lineup_stages : (reviewing .prepared []).maintained = false ∧
    ((reviewing .prepared []).lupSlot 0).review.any (fun r => (reviewing .prepared []).unacked r == []) = true ∧
    (reviewing .prepared []).lupRuns 0 = true ∧ (lineup.site (lineup.lupSlot 0).csite).off = false ∧
    [lostController, newerTable].all (fun s => !s.maintained && (s.lupSlot 0).en &&
      (s.lupSlot 0).csite != (s.lupSlot 0).ssite && !(s.site (s.lupSlot 0).ssite).off &&
      !(s.lupSlot 0).review.any (·.site == (s.lupSlot 0).ssite)) = true ∧
    (lostController.newestLup 0).2 = false ∧ (newerTable.newestLup 0).2 = true := by decide +kernel
/-- A stream that owes its reader nothing. -/
theorem test_meets_Blotter_owed : ((State.reset.site 0).stream 7).owed = [] ∧ ((lossy.site 0).stream 7).owed = [] := by decide

/-- R87: a store to a line whose presence bit is clear stands before what a pending command writes there; a store to
another line has no such order. -/
theorem test_store_to_absent_line :
    let s := { State.reset with teams := [(7, { Team.blank with pending := [((0, 1), 1)] })] }
    let r : Unseen := ⟨.t, .module, 7, .scr 0 160, 4, 0, (0, 0), false, .nothing, s.writeFences .t 7 (.scr 0 160) 4, [], false⟩
    r.ordered .c (.thread ⟨7, 0, 0⟩ 0) = true ∧ s.writeFences .t 7 (.scr 0 100) 4 = [] ∧
      (({ s with unseen := [r] } : State).presentLine 7 (0, 1)).unseen.map (·.fences) = [[]] := by decide

end Sys2Proof.Tests
end

/-! Proofs of the family 08_assembly.md: the registers and predicates of a thread (R169, R171), and the
unassigned opcodes (R185). -/

namespace Sys2Proof

/-! ## Unassigned opcodes -/

/-- OP stands in bits 9:2 of word 0 (R174). -/
theorem bitsOf_opcode (w : Nat) : bitsOf w 9 2 = w / 4 % 256 := rfl

/-- R181 step 2. -/
theorem decodeSimt_of_zero {w : Nat} (h : w / 4 % 256 = 0) : decodeSimt w = .trap Cause.zeroWord := by
  simp [decodeSimt, bitsOf_opcode, h]

/-- R181 step 3. -/
theorem decodeSimt_of_unassigned {w : Nat} (h0 : w / 4 % 256 ≠ 0) (h : Op.ofCode (w / 4 % 256) = none) :
    decodeSimt w = .trap Cause.illegalOpcode := by
  simp [decodeSimt, bitsOf_opcode, h0, h]

/-- The rows of R185 with the fate ILLEGAL_OPCODE. -/
def unassignedCodes : List Nat :=
  List.range' 0x29 0x17 ++ List.range' 0x51 0xF ++ List.range' 0x77 9 ++ List.range' 0x8A 0x16 ++
    List.range' 0xA7 0x19 ++ List.range' 0xCC 0x14 ++ List.range' 0xED 3 ++ List.range' 0xF9 7

theorem ofCode_of_mem_unassignedCodes : ∀ c ∈ unassignedCodes, c ≠ 0 ∧ Op.ofCode c = none := by
  decide +kernel

/-- Settles O2: the decoder looks at nothing but the opcode before it traps. -/
theorem unassignedOpcodes : Obligations.UnassignedOpcodes := by
  unfold Obligations.UnassignedOpcodes
  refine fun w => ⟨fun h => decodeSimt_of_zero h, fun h => ?_⟩
  obtain ⟨h0, hnone⟩ := ofCode_of_mem_unassignedCodes _ h
  exact decodeSimt_of_unassigned h0 hnone

/-! ## Register and predicate fields -/

theorem Operand.illegal_iff (o : Operand) (n : Nat) :
    o.illegal n = true ↔ if o.pred then 8 ≤ o.num else o.num % o.count ≠ 0 ∨ n < o.num + o.count := by
  cases hp : o.pred <;> simp [Operand.illegal, hp]

end Sys2Proof

namespace Sys2Proof.Machine

/-! ## Registers -/

@[simp] theorem Thread.x_zero (th : Thread) : th.x 0 = 0 := rfl

@[simp] theorem Thread.setX_zero (th : Thread) (v : Word) : th.setX 0 v = th := rfl

theorem Thread.setX_of_ne_zero (th : Thread) {i : Nat} (hi : i ≠ 0) (v : Word) :
    th.setX i v = { th with regs := th.regs.set i v } := by
  simp [Thread.setX, hi]

theorem Thread.x_setX_self (th : Thread) {i : Nat} (hi : i ≠ 0) (v : Word) : (th.setX i v).x i = v := by
  simp [th.setX_of_ne_zero hi, Thread.x, hi]

theorem Thread.x_setX_ne (th : Thread) {i j : Nat} (h : j ≠ i) (v : Word) : (th.setX i v).x j = th.x j := by
  by_cases hi : i = 0
  · rw [hi, setX_zero]
  · simp [th.setX_of_ne_zero hi, Thread.x, AMap.find?_set_ne h]

@[simp] theorem Thread.p_setX (th : Thread) (i k : Nat) (v : Word) : (th.setX i v).p k = th.p k := by
  by_cases hi : i = 0
  · rw [hi, setX_zero]
  · simp [th.setX_of_ne_zero hi, Thread.p]

/-! ## Predicates -/

@[simp] theorem Thread.p_zero (th : Thread) : th.p 0 = true := rfl

@[simp] theorem Thread.setP_zero (th : Thread) (b : Bool) : th.setP 0 b = th := rfl

@[simp] theorem Thread.x_setP (th : Thread) (i k : Nat) (b : Bool) : (th.setP i b).x k = th.x k := by
  by_cases hi : i = 0
  · rw [hi, setP_zero]
  · simp [Thread.setP, Thread.x, hi]

/-- A write of p`i` changes bit `i` of the predicates alone. -/
theorem Thread.getLsbD_preds_setP (th : Thread) {i : Nat} (hi : i ≠ 0) (h8 : i < 8) (b : Bool) (j : Nat) :
    (th.setP i b).preds.getLsbD j = if j = i then b else th.preds.getLsbD j := by
  by_cases hj : j = i
  · subst hj
    cases b <;> simp [Thread.setP, hi, h8]
  · have hclear : (1#8 <<< i).getLsbD j = false := by
      rw [← BitVec.twoPow_eq, BitVec.getLsbD_twoPow]
      simp [Ne.symm hj]
    cases b with
    | true => simp [Thread.setP, hi, hclear, hj]
    | false => simpa [Thread.setP, hi, hclear, hj] using BitVec.lt_of_getLsbD

theorem Thread.p_setP_self (th : Thread) {i : Nat} (hi : i ≠ 0) (h8 : i < 8) (b : Bool) :
    (th.setP i b).p i = b := by
  simp [Thread.p, th.getLsbD_preds_setP hi h8, hi]

theorem Thread.p_setP_ne (th : Thread) {i j : Nat} (h : j ≠ i) (h8 : i < 8) (b : Bool) :
    (th.setP i b).p j = th.p j := by
  by_cases hi : i = 0
  · rw [hi, setP_zero]
  · simp [Thread.p, th.getLsbD_preds_setP hi h8, h]

/-! ## Pairs and quads -/

/-- The lowest bits of consecutive registers stand in the lowest of them (R169). -/
theorem Thread.xs_eq_sum (th : Thread) (i n : Nat) :
    th.xs i n = ((List.range n).map fun k => (th.x (i + k)).toNat * 2 ^ (32 * k)).sum := by
  induction n generalizing i with
  | zero => rfl
  | succ n ih =>
    have hshift (k : Nat) : (th.x (i + (k + 1))).toNat * 2 ^ (32 * (k + 1)) =
        2 ^ 32 * ((th.x (i + 1 + k)).toNat * 2 ^ (32 * k)) := by
      rw [show i + (k + 1) = i + 1 + k by omega, show 32 * (k + 1) = 32 + 32 * k by omega, pow_add]
      ac_rfl
    rw [List.range_succ_eq_map, List.map_cons, List.map_map, List.sum_cons, Thread.xs, ih,
      ← List.sum_map_mul_left]
    simp [Function.comp_def, hshift]

@[simp] theorem Thread.setXs_zero (th : Thread) (i v : Nat) : th.setXs i 0 v = th := rfl

/-- A write of consecutive registers writes the lowest 32 bits to the first and the rest above it. -/
theorem Thread.setXs_succ (th : Thread) (i n v : Nat) :
    th.setXs i (n + 1) v = (th.setX i (BitVec.ofNat 32 v)).setXs (i + 1) n (v / 2 ^ 32) := rfl

/-- The frame of a write of consecutive registers. -/
theorem Thread.x_setXs_of_outside (th : Thread) {i n j : Nat} (v : Nat) (h : j < i ∨ i + n ≤ j) :
    (th.setXs i n v).x j = th.x j := by
  induction n generalizing th i v with
  | zero => rw [setXs_zero]
  | succ n ih =>
    rw [setXs_succ, ih _ _ (by omega), x_setX_ne _ (by omega)]

theorem Thread.x_setXs (th : Thread) (i v : Nat) {n k : Nat} (hk : k < n) :
    (th.setXs i n v).x (i + k) = if i + k = 0 then 0 else BitVec.ofNat 32 (v / 2 ^ (32 * k)) := by
  induction n generalizing th i v k with
  | zero => omega
  | succ n ih =>
    rw [setXs_succ]
    cases k with
    | zero =>
      rw [x_setXs_of_outside _ _ (by omega)]
      by_cases hi : i = 0
      · simp [hi]
      · simp [hi, x_setX_self]
    | succ k =>
      rw [show i + (k + 1) = i + 1 + k by omega, ih _ _ _ (by omega), Nat.div_div_eq_div_mul, ← pow_add,
        show 32 + 32 * k = 32 * (k + 1) by omega]

/-! ## The check of register and predicate fields -/

/-- R181 step 8: where steps 4 to 7 pass, one illegal operand traps. -/
theorem issueCheck_of_illegal {op : Op} {x : Ext} {l : Launch} {o : Operand} (hd : decodeCheck op x = none)
    (ho : o ∈ op.operands x) (hbad : o.illegal l.regs = true) :
    issueCheck op x l = some Cause.illegalRegister := by
  have hany : (op.operands x).any (·.illegal l.regs) = true := List.any_eq_true.2 ⟨o, ho, hbad⟩
  simp [issueCheck, hd, illegalRegister, hany]

/-- Settles O1: each part by the rule of its read after its write. -/
theorem registersAndPredicates : Obligations.RegistersAndPredicates := by
  unfold Obligations.RegistersAndPredicates
  refine ⟨fun th i j v b => ?single, fun th i n v _ => ?wide, fun op x l o hd ho hbad => ?check⟩
  case single =>
    exact ⟨th.x_zero, th.setX_zero v, th.p_zero, th.setP_zero b, fun hi => th.x_setX_self hi v,
      fun hj => th.x_setX_ne hj v, fun hi h8 => th.p_setP_self hi h8 b, fun hj h8 => th.p_setP_ne hj h8 b,
      fun k => ⟨th.p_setX i k v, th.x_setP i k b⟩⟩
  case wide =>
    exact ⟨th.xs_eq_sum i n, fun _ hk => th.x_setXs i v hk, fun _ hj => th.x_setXs_of_outside v hj⟩
  case check => exact issueCheck_of_illegal hd ho ((o.illegal_iff l.regs).2 hbad)

end Sys2Proof.Machine

/-! Proofs of the family 09_isa_scalar.md: the integer, bit and predicate instructions of a lane (R195, R196, R206)
and the votes, shuffles and elections of a squad (R208, R209, R211). -/

namespace Sys2Proof

/-! ## The decode checks in order (R181) -/

theorem decodeCheck_eq_none_iff {op : Op} {x : Ext} : decodeCheck op x = none ↔
    illegalLength op x = false ∧ reservedBits op x = false ∧ shortFields op x = true ∧
      illegalType op x = false ∧ illegalSubop op x = false := by
  unfold decodeCheck
  grind

/-- R181 step 5. -/
theorem decodeCheck_of_reservedBits {op : Op} {x : Ext} (hlen : illegalLength op x = false)
    (h : reservedBits op x = true) : decodeCheck op x = some Cause.reservedBits := by
  simp [decodeCheck, hlen, h]

/-- R181 step 6. -/
theorem decodeCheck_of_illegalType {op : Op} {x : Ext} (hlen : illegalLength op x = false)
    (hres : reservedBits op x = false) (hshort : shortFields op x = true) (h : illegalType op x = true) :
    decodeCheck op x = some Cause.illegalType := by
  simp [decodeCheck, hlen, hres, hshort, h]

/-- R181 step 7. -/
theorem decodeCheck_of_illegalSubop {op : Op} {x : Ext} (hlen : illegalLength op x = false)
    (hres : reservedBits op x = false) (hshort : shortFields op x = true) (htype : illegalType op x = false)
    (h : illegalSubop op x = true) : decodeCheck op x = some Cause.illegalSubop := by
  simp [decodeCheck, hlen, hres, hshort, htype, h]

/-- R181 step 4 passes where the instruction has no literal. -/
theorem illegalLength_of_no_literal {op : Op} {x : Ext} (hlit : x.lit = none) (hshort : x.short = false) :
    illegalLength op x = false := by
  simp [illegalLength, hlit, hshort]

/-- An opcode without a literal mark has no base-plus-literal form (R179). -/
theorem short_of_illegalLength {op : Op} {x : Ext} (hmark : (op.uses x).mark = .none)
    (h : illegalLength op x = false) : x.short = false := by
  simp_all [illegalLength]

theorem shortFields_of_not_short {op : Op} {x : Ext} (h : x.short = false) : shortFields op x = true := by
  simp [shortFields, h]

/-! ## Fields that must be zero (R181 step 5) -/

theorem reservedBits_of_ty {op : Op} {x : Ext} (htypes : (op.uses x).ty = []) (h : x.ty ≠ 0) :
    reservedBits op x = true := by
  simp_all [reservedBits]

/-- B must be zero where an instruction does not use it. -/
theorem reservedBits_of_b {op : Op} {x : Ext} (hb : (op.uses x).b = .zero) (h : x.b ≠ 0) :
    reservedBits op x = true := by
  simp_all [reservedBits, badB]

/-- BK and BSEL must be zero where B names a predicate or nothing. -/
theorem reservedBits_of_bk_or_sel {op : Op} {x : Ext} (hb : (op.uses x).b = .zero ∨ (op.uses x).b = .pred)
    (hscope : (op.uses x).scope = false) (h : x.bk = true ∨ x.sel ≠ 0) : reservedBits op x = true := by
  rcases h with hbk | hsel
  · have hbad : badB op (op.uses x) x = true := by rcases hb with hb | hb <;> simp [badB, hb, hbk]
    simp [reservedBits, hbad]
  · rcases hb with hb | hb <;> simp_all [reservedBits]

/-! ## Type classes -/

/-- The opcode takes the types of one class, whatever its SUB, and no literal; its other fields are used
alike under every type. -/
structure Op.TakesClass (op : Op) (types : List Ty) : Prop where
  types_eq : ∀ x, (op.uses x).ty = types := by intros; rfl
  nonempty : types ≠ [] := by decide
  unpaired : op ≠ .cvt ∧ op ≠ .cvtsr := by decide
  subTypes_eq : ∀ n, op.subTypes n = none := by intros; rfl
  mark_eq : ∀ x, (op.uses x).mark = .none := by intros; rfl
  length_ty : ∀ x, illegalLength op { x with ty := 0 } = illegalLength op x := by intros; rfl
  reserved_ty : ∀ x, reservedBits op { x with ty := 0 } = reservedBits op x := by intros; rfl

theorem Op.TakesClass.illegalType_iff {op : Op} {types : List Ty} (h : op.TakesClass types) (x : Ext) :
    illegalType op x = true ↔ ∀ ty, Ty.ofCode x.ty.toNat = some ty → ty ∉ types := by
  obtain ⟨hne, hne'⟩ := h.unpaired
  cases hty : Ty.ofCode x.ty.toNat with
  | none => simp [illegalType, hty]
  | some ty => simp [illegalType, hty, hne, hne', h.types_eq, h.nonempty, h.subTypes_eq]

/-- A type outside the class traps ILLEGAL_TYPE where the checks before it pass. -/
theorem Op.TakesClass.decodeCheck_of_other {op : Op} {types : List Ty} (h : op.TakesClass types) {x : Ext}
    (h0 : decodeCheck op { x with ty := 0 } = none)
    (hty : ∀ ty, Ty.ofCode x.ty.toNat = some ty → ty ∉ types) :
    decodeCheck op x = some Cause.illegalType := by
  obtain ⟨hlen, hres, -, -, -⟩ := decodeCheck_eq_none_iff.1 h0
  rw [h.length_ty] at hlen
  rw [h.reserved_ty] at hres
  exact decodeCheck_of_illegalType hlen hres
    (shortFields_of_not_short (short_of_illegalLength (h.mark_eq x) hlen)) ((h.illegalType_iff x).2 hty)

/-- An instruction that passes the checks has a type of its class. -/
theorem Op.TakesClass.type_mem {op : Op} {types : List Ty} (h : op.TakesClass types) {x : Ext}
    (hx : decodeCheck op x = none) : x.type ∈ types := by
  obtain ⟨-, -, -, htype, -⟩ := decodeCheck_eq_none_iff.1 hx
  have hlegal := mt (h.illegalType_iff x).2 (by simp [htype])
  push Not at hlegal
  obtain ⟨ty, hty, hmem⟩ := hlegal
  rwa [Ext.type, hty]

/-- The two-source integer instructions (R195). -/
def int2Ops : List Op := [.add, .sub, .mul, .mulh, .adds, .subs, .min, .max]

/-- The two-source bit instructions (R195). -/
def bits2Ops : List Op := [.and, .or, .xor, .andn, .shl, .shr, .sar, .rol]

theorem Op.takesClass_of_mem_int2Ops {op : Op} (h : op ∈ int2Ops) : op.TakesClass Ty.I := by
  fin_cases h <;> exact {}

theorem Op.takesClass_of_mem_bits2Ops {op : Op} (h : op ∈ bits2Ops) : op.TakesClass Ty.L := by
  fin_cases h <;> exact {}

/-- The one-source instructions (R196). -/
def oneOps : List Op := [.abs, .neg, .clz, .popc, .brev]

theorem Op.takesClass_of_mem_oneOps {op : Op} (h : op ∈ oneOps) :
    op.TakesClass (if op = .abs ∨ op = .neg then Ty.S else Ty.L) := by
  fin_cases h <;> exact {}

theorem Op.takesClass_of_mem_squad {op : Op} (h : op ∈ ([.shfl, .match] : List Op)) : op.TakesClass Ty.L := by
  fin_cases h <;> exact {}

end Sys2Proof

namespace Sys2Proof.Machine

/-! ## Bits of numbers below a width -/

theorem Thread.xs_lt (th : Thread) (i n : Nat) : th.xs i n < 2 ^ (32 * n) := by
  induction n generalizing i with
  | zero => simp [Thread.xs]
  | succ n ih =>
    have hx := (th.x i).isLt
    have hrest := ih (i + 1)
    rw [Thread.xs, show 32 * (n + 1) = 32 + 32 * n by omega, pow_add]
    nlinarith [Nat.mul_le_mul_left (2 ^ 32) (Nat.succ_le_of_lt hrest)]

/-- A type of class L fills its registers. -/
theorem tyBits_of_mem_L {ty : Ty} (h : ty ∈ Ty.L) : tyBits ty = 32 * ty.regs := by
  fin_cases h <;> rfl

theorem tyBits_pos_of_mem_L {ty : Ty} (h : ty ∈ Ty.L) : 0 < tyBits ty := by
  fin_cases h <;> decide

/-- Under a type of class L a source has no bit at or above the width. -/
theorem srcA_lt_of_mem_L (s : State) (k : Issue) (u : Tid) (h : k.x.type ∈ Ty.L) :
    srcA s k u < 2 ^ tyBits k.x.type := by
  rw [tyBits_of_mem_L h]
  exact (s.thread u).xs_lt _ _

theorem testBit_bitsAndn (w a b : Nat) {j : Nat} (hj : j < w) :
    (bitsAndn w a b).testBit j = (a.testBit j && !b.testBit j) := by
  simp [bitsAndn, hj]

theorem testBit_shiftLeft (w a n : Nat) {j : Nat} (hj : j < w) :
    (shiftLeft w a n).testBit j = (decide (n ≤ j) && a.testBit (j - n)) := by
  simp [shiftLeft, Nat.testBit_mod_two_pow, hj, Nat.testBit_mul_two_pow]

theorem testBit_shiftRight {w a : Nat} (ha : a < 2 ^ w) (n j : Nat) :
    (shiftRight w a n).testBit j = (decide (j + n < w) && a.testBit (j + n)) := by
  rw [shiftRight, Nat.testBit_div_two_pow]
  by_cases hj : j + n < w
  · simp [hj]
  · simp [hj, Nat.testBit_lt_two_pow (ha.trans_le (Nat.pow_le_pow_right two_pos (not_lt.1 hj)))]

/-- The two's-complement value is that of the bit vector. -/
theorem intVal_true_eq_toInt {w : Nat} (hw : 0 < w) (v : Nat) : intVal true w v = (BitVec.ofNat w v).toInt := by
  have htop : 2 ^ w = 2 * 2 ^ (w - 1) := by rw [← pow_succ', Nat.sub_add_cancel hw]
  have hhalf : 2 ^ (w - 1) ≤ v % 2 ^ w ↔ ¬ 2 * (v % 2 ^ w) < 2 ^ w := by omega
  rw [intVal, BitVec.toInt_eq_toNat_cond, BitVec.toNat_ofNat]
  by_cases h : 2 * (v % 2 ^ w) < 2 ^ w <;> simp [hhalf, h]

theorem shiftArith_eq_sshiftRight {w : Nat} (hw : 0 < w) (a n : Nat) :
    shiftArith w a n = ((BitVec.ofNat w a).sshiftRight n).toNat := by
  rw [shiftArith, wrapTo, intVal_true_eq_toInt hw, BitVec.sshiftRight, BitVec.toNat_ofInt,
    Int.shiftRight_eq_div_pow]
  simp

theorem testBit_shiftArith {w : Nat} (a n : Nat) {j : Nat} (hj : j < w) :
    (shiftArith w a n).testBit j = if j + n < w then a.testBit (j + n) else a.testBit (w - 1) := by
  rw [shiftArith_eq_sshiftRight (by omega), BitVec.testBit_toNat, BitVec.getLsbD_sshiftRight,
    BitVec.msb_eq_getLsbD_last, Nat.add_comm n j, BitVec.getLsbD_ofNat, BitVec.getLsbD_ofNat]
  by_cases h : j + n < w <;> simp [h, show ¬ w ≤ j by omega, show w - 1 < w by omega]

/-- A rotation puts the highest bits of the value below its other bits. -/
theorem rotateLeft_eq {w n : Nat} (a : Nat) (hn : n ≤ w) :
    rotateLeft w a n = 2 ^ n * (a % 2 ^ (w - n)) + a / 2 ^ (w - n) := by
  rw [rotateLeft, mul_comm a, ← Nat.mul_mod_mul_left, ← pow_add, Nat.add_sub_cancel' hn]

theorem testBit_rotateLeft {w a n : Nat} (ha : a < 2 ^ w) (hn : n < w) {j : Nat} (hj : j < w) :
    (rotateLeft w a n).testBit j = a.testBit ((j + w - n) % w) := by
  have hlow : a / 2 ^ (w - n) < 2 ^ n := by
    rw [Nat.div_lt_iff_lt_mul (by positivity), ← pow_add]
    rwa [Nat.add_sub_cancel' hn.le]
  rw [rotateLeft_eq a hn.le, Nat.testBit_two_pow_mul_add _ hlow]
  split_ifs with h
  · rw [Nat.testBit_div_two_pow, Nat.mod_eq_of_lt (by omega)]
    congr 1; omega
  · rw [Nat.testBit_mod_two_pow, show j + w - n = j - n + w by omega, Nat.add_mod_right,
      Nat.mod_eq_of_lt (by omega)]
    simp [show j - n < w - n by omega]

/-! ## Counting and reversing bits -/

theorem popCount_eq (w v : Nat) : popCount w v = ((List.range w).filter v.testBit).length := by
  induction w generalizing v with
  | zero => rfl
  | succ w ih =>
    have hshift : (v.testBit ∘ Nat.succ) = (v / 2).testBit := funext fun j => Nat.testBit_succ v j
    rw [popCount, ih, List.range_succ_eq_map, List.filter_cons, List.filter_map, hshift, Nat.testBit_zero]
    rcases Nat.mod_two_eq_zero_or_one v with h | h <;> simp [h, Nat.add_comm]

theorem leadingZeros_le (w v : Nat) : leadingZeros w v ≤ w := by
  unfold leadingZeros
  split_ifs <;> omega

/-- Every bit from the count of leading zeros up to the width is zero. -/
theorem testBit_of_leadingZeros_le {w v j : Nat} (hv : v < 2 ^ w) (hj : w - leadingZeros w v ≤ j) :
    v.testBit j = false := by
  unfold leadingZeros at hj
  split_ifs at hj with h0
  · simp [h0]
  · have hlog := (Nat.log2_lt h0).2 hv
    exact Nat.testBit_lt_two_pow ((Nat.log2_lt h0).1 (by omega))

/-- The bit below the leading zeros is one. -/
theorem testBit_leadingZeros {w v : Nat} (hv : v < 2 ^ w) (h : leadingZeros w v < w) :
    v.testBit (w - 1 - leadingZeros w v) = true := by
  unfold leadingZeros at h ⊢
  split_ifs at h ⊢ with h0
  · omega
  · have hlog := (Nat.log2_lt h0).2 hv
    rw [show w - 1 - (w - 1 - v.log2) = v.log2 by omega]
    exact Nat.testBit_log2 h0

theorem bitReverse_lt (w v : Nat) : bitReverse w v < 2 ^ w := by
  induction w generalizing v with
  | zero => simp [bitReverse]
  | succ w ih =>
    have hrest := ih (v / 2)
    have hbit := Nat.mod_lt v two_pos
    rw [bitReverse, pow_succ]
    nlinarith

theorem testBit_bitReverse (w v : Nat) {j : Nat} (hj : j < w) :
    (bitReverse w v).testBit j = v.testBit (w - 1 - j) := by
  induction w generalizing v with
  | zero => omega
  | succ w ih =>
    rw [bitReverse, mul_comm, Nat.testBit_two_pow_mul_add _ (bitReverse_lt w _)]
    split_ifs with h
    · rw [ih _ h, ← Nat.testBit_succ]
      congr 1; omega
    · rw [show j = w by omega]
      simp [Nat.testBit_zero]

/-! ## Instructions whose lanes change their own thread -/

/-- The checks of R181 steps 4 to 7 pass for an instruction that issues. -/
theorem Issuing.decodeCheck {s : State} {g : Gang} {op : Op} {x : Ext} {len : Nat} (h : Issuing s g op x len) :
    decodeCheck op x = none := by
  have hlegal := h.legal
  unfold issueCheck at hlegal
  split at hlegal
  · cases hlegal
  · assumption

theorem LaneAt.p {s u : State} {t : Tid} (h : LaneAt s u t) (i : Nat) :
    (u.thread t).p i = (s.thread t).p i := by rw [h.thread, Thread.stepped_p]

/-- A change of a lane's own thread may be read from the thread itself or from the thread before the issue. -/
theorem LaneAt.modThread_congr {s u : State} {t : Tid} (h : LaneAt s u t) {f f' : Thread → Thread}
    (hf : f ((s.thread t).stepped s.clock) = f' ((s.thread t).stepped s.clock)) :
    u.modThread t f = u.modThread t f' := by
  simp [State.modThread, h.thread, hf]

/-- An instruction of which every lane is one change of its own thread. -/
theorem Issuing.lanes {s : State} {g : Gang} {op : Op} {x : Ext} {len : Nat} {i : Instr}
    {lane : Issue → Tid → State → LaneOut} {f : Tid → Thread → Thread} (h : Issuing s g op x len)
    (hexec : exec i s = simt op x len true lane s)
    (hlane : ∀ t u, LaneAt s u t → lane (g.issue op x len) t u = .next (u.modThread t (f t))) :
    ∃ t, exec i s = .next t ∧ Lanes s t g x f (g.nextPc len) := by
  rw [hexec]
  exact simt_lanes h fun m _ _ => LaneSets.mod (hlane m.2)

/-! ## The lanes of the integer and bit instructions -/

section
variable {s u : State} {t : Tid} (h : LaneAt s u t) (k : Issue)
include h

theorem laneInt2_at (f : Ty → Int → Int → Int × Nat) :
    laneInt2 f k t u = .next (u.modThread t fun th =>
      let r := f k.x.type (srcInt k.x.type (srcA s k t)) (srcInt k.x.type (srcB s k t))
      (th.setXs k.x.d.toNat k.x.type.regs (fillInt k.x.type r.1)).raise r.2) := by
  simp [laneInt2, h.srcA, h.srcB, State.writeD, State.raiseFlags]

theorem laneBits2_at (f : Nat → Nat → Nat → Nat) :
    laneBits2 f k t u = .next (u.modThread t fun th =>
      th.setXs k.x.d.toNat k.x.type.regs (f (tyBits k.x.type) (srcA s k t) (srcB s k t))) := by
  simp [laneBits2, h.srcA, h.srcB, State.writeD]

theorem laneShift_at (f : Nat → Nat → Nat → Nat) :
    laneShift f k t u = .next (u.modThread t fun th =>
      th.setXs k.x.d.toNat k.x.type.regs
        (f (tyBits k.x.type) (srcA s k t) (operandB s k.x t 1 % tyBits k.x.type))) := by
  simp [laneShift, h.srcA, h.operandB, State.writeD]

theorem lane1_at (n : Ty → Nat) (f : Ty → Nat → Nat) :
    lane1 n f k t u = .next (u.modThread t fun th =>
      th.setXs k.x.d.toNat (n k.x.type) (f k.x.type (srcA s k t))) := by
  simp [lane1, h.srcA, State.writeD]

end

/-! ## The two-source instructions (R195) -/

section
variable {s : State} {g : Gang} {i : Instr} {op : Op} {x : Ext} {len : Nat}

/-- The value that a saturating instruction writes, and the flag it raises. -/
theorem saturate_eq (ty : Ty) (v : Int) :
    let lo := intMin (tySigned ty) (tyBits ty)
    let hi := intMax (tySigned ty) (tyBits ty)
    let r := if v < lo then lo else if hi < v then hi else v
    saturate ty v = (r, if r = v then 0 else flagSAT) := by
  simp only [saturate, clampTo, flagIf]
  split_ifs <;> simp_all

/-- The result before it is reduced to the width, and the flags, of each two-source integer instruction. -/
def int2Result : Op → Ty → Int → Int → Int × Nat
  | .add => intAdd
  | .sub => intSub
  | .mul => intMul
  | .mulh => intMulh
  | .adds => intAdds
  | .subs => intSubs
  | .min => intLesser
  | _ => intGreater

theorem exec_int2 (hi : i.simt = some (op, x, len)) (h : Issuing s g op x len) (hop : op ∈ int2Ops) :
    ∃ t, exec i s = .next t ∧ Lanes s t g x (fun u th =>
      let r := int2Result op x.type (srcInt x.type (srcA s (g.issue op x len) u))
        (srcInt x.type (srcB s (g.issue op x len) u))
      (th.setXs x.d.toNat x.type.regs (fillInt x.type r.1)).raise r.2) (g.nextPc len) := by
  have hexec : exec i s = simt op x len true (laneInt2 (int2Result op)) s := by
    rw [exec_simt hi]
    fin_cases hop <;> rfl
  exact h.lanes hexec fun _ _ hu => laneInt2_at hu (g.issue op x len) _

/-- Every result but that of ADDS and SUBS is exact, and raises no flag. -/
theorem int2Result_exact {f : Int → Int → Int} (ty : Ty)
    (hop : (op, f) ∈ ([(.add, fun a b => a + b), (.sub, fun a b => a - b), (.mul, fun a b => a * b),
        (.mulh, fun a b => a * b / 2 ^ tyBits ty),
        (.min, fun a b => if a ≤ b then a else b), (.max, fun a b => if a ≤ b then b else a)] :
          List (Op × (Int → Int → Int)))) :
    op ∈ int2Ops ∧ ∀ a b, int2Result op ty a b = (f a b, 0) := by
  simp only [List.mem_cons, Prod.mk.injEq, List.not_mem_nil, or_false] at hop
  obtain ⟨rfl, rfl⟩ | ⟨rfl, rfl⟩ | ⟨rfl, rfl⟩ | ⟨rfl, rfl⟩ | ⟨rfl, rfl⟩ | ⟨rfl, rfl⟩ := hop
  · exact ⟨by decide, fun _ _ => rfl⟩
  · exact ⟨by decide, fun _ _ => rfl⟩
  · exact ⟨by decide, fun _ _ => rfl⟩
  · exact ⟨by decide, fun _ _ => rfl⟩
  · exact ⟨by decide, fun a b => congrArg (·, 0) (min_def a b)⟩
  · exact ⟨by decide, fun a b => congrArg (·, 0) (max_def a b)⟩

theorem int2Result_saturating {f : Int → Int → Int} (ty : Ty)
    (hop : (op, f) ∈ ([(.adds, fun a b => a + b), (.subs, fun a b => a - b)] :
      List (Op × (Int → Int → Int)))) :
    op ∈ int2Ops ∧ ∀ a b, int2Result op ty a b = saturate ty (f a b) := by
  simp only [List.mem_cons, Prod.mk.injEq, List.not_mem_nil, or_false] at hop
  obtain ⟨rfl, rfl⟩ | ⟨rfl, rfl⟩ := hop
  · exact ⟨by decide, fun _ _ => rfl⟩
  · exact ⟨by decide, fun _ _ => rfl⟩

/-- The result of each two-source bit instruction for the width, the two values and the shift. -/
def bits2Result (op : Op) (w a b c : Nat) : Nat :=
  match op with
  | .and => bitsAnd w a b
  | .or => bitsOr w a b
  | .xor => bitsXor w a b
  | .andn => bitsAndn w a b
  | .shl => shiftLeft w a c
  | .shr => shiftRight w a c
  | .sar => shiftArith w a c
  | _ => rotateLeft w a c

theorem exec_bits2 (hi : i.simt = some (op, x, len)) (h : Issuing s g op x len) (hop : op ∈ bits2Ops) :
    ∃ t, exec i s = .next t ∧ Lanes s t g x (fun u th => th.setXs x.d.toNat x.type.regs
      (bits2Result op (tyBits x.type) (srcA s (g.issue op x len) u) (srcB s (g.issue op x len) u)
        (operandB s x u 1 % tyBits x.type))) (g.nextPc len) := by
  have hexec := exec_simt hi s
  fin_cases hop
  iterate 4 exact h.lanes hexec fun _ _ hu => laneBits2_at hu _ _
  iterate 4 exact h.lanes hexec fun _ _ hu => laneShift_at hu _ _

/-- Bit `j` of a bit instruction's result (R195). -/
theorem testBit_bits2Result {w a b c j : Nat} (ha : a < 2 ^ w) (hc : c < w) (hj : j < w) :
    (bits2Result op w a b c).testBit j = match op with
      | .and => a.testBit j && b.testBit j
      | .or => a.testBit j || b.testBit j
      | .xor => Bool.xor (a.testBit j) (b.testBit j)
      | .andn => a.testBit j && !b.testBit j
      | .shl => decide (c ≤ j) && a.testBit (j - c)
      | .shr => decide (j + c < w) && a.testBit (j + c)
      | .sar => if j + c < w then a.testBit (j + c) else a.testBit (w - 1)
      | _ => a.testBit ((j + w - c) % w) := by
  unfold bits2Result
  split
  · exact Nat.testBit_and a b j
  · exact Nat.testBit_or a b j
  · exact Nat.testBit_xor a b j
  · exact testBit_bitsAndn w a b hj
  · exact testBit_shiftLeft w a c hj
  · exact testBit_shiftRight ha c j
  · exact testBit_shiftArith a c hj
  · exact testBit_rotateLeft ha hc hj

end

/-- Settles O10: the class checks by `Op.TakesClass`, the lanes by `Issuing.lanes`, and the bits of each
operation by its own lemma. -/
theorem twoSourceInstructions : Obligations.TwoSourceInstructions := by
  unfold Obligations.TwoSourceInstructions
  refine ⟨⟨fun op x types hop h0 hty => ?types, fun s g i op x len f hi h hop => ?exact⟩,
    fun s g i op x len f hi h hop => ?saturating, fun s g i op x len hi h hop => ?bits⟩
  case types =>
    have hclass : op.TakesClass types := by
      simp only [List.mem_append, List.mem_map, Prod.mk.injEq] at hop
      obtain ⟨o, ho, rfl, rfl⟩ | ⟨o, ho, rfl, rfl⟩ := hop
      · exact Op.takesClass_of_mem_int2Ops ho
      · exact Op.takesClass_of_mem_bits2Ops ho
    exact hclass.decodeCheck_of_other h0 hty
  case exact =>
    obtain ⟨hmem, hf⟩ := int2Result_exact x.type hop
    simpa only [hf, Thread.raise_zero] using exec_int2 hi h hmem
  case saturating =>
    obtain ⟨hmem, hf⟩ := int2Result_saturating x.type hop
    simpa only [hf, saturate_eq] using exec_int2 hi h hmem
  case bits =>
    have hL := (Op.takesClass_of_mem_bits2Ops hop).type_mem h.decodeCheck
    obtain ⟨t, ht, hlanes⟩ := exec_bits2 hi h hop
    exact ⟨t, _, ht, hlanes, fun u j hj => testBit_bits2Result (srcA_lt_of_mem_L s (g.issue op x len) u hL)
      (Nat.mod_lt _ (by omega)) hj⟩

/-! ## The one-source instructions (R196) -/

/-- R196: B, BK and BSEL must be zero. -/
theorem decodeCheck_of_mem_oneOps {op : Op} {x : Ext} (hop : op ∈ oneOps)
    (hlit : x.lit = none) (hshort : x.short = false)
    (h : x.b ≠ 0 ∨ x.bk = true ∨ x.sel ≠ 0) : decodeCheck op x = some Cause.reservedBits := by
  refine decodeCheck_of_reservedBits (illegalLength_of_no_literal hlit hshort) ?_
  have hb : (op.uses x).b = .zero := by fin_cases hop <;> rfl
  have hscope : (op.uses x).scope = false := by fin_cases hop <;> rfl
  rcases h with h | h
  · exact reservedBits_of_b hb h
  · exact reservedBits_of_bk_or_sel (.inl hb) hscope h

/-- R196: the absolute value wraps. -/
theorem intAbs_eq (ty : Ty) (a : Nat) :
    intAbs ty a = fillInt ty (if srcInt ty a < 0 then -(srcInt ty a) else srcInt ty a) := by
  rw [intAbs, Int.natCast_natAbs]
  split_ifs with h
  · rw [abs_of_neg h]
  · rw [abs_of_nonneg (not_lt.1 h)]

section
variable {s : State} {g : Gang} {i : Instr} {op : Op} {x : Ext} {len : Nat}

/-- The result of each one-source instruction. -/
def oneResult : Op → Ty → Nat → Nat
  | .abs => intAbs
  | .neg => intNeg
  | .clz => bitsClz
  | .popc => bitsPopc
  | _ => bitsBrev

theorem exec_one (hi : i.simt = some (op, x, len)) (h : Issuing s g op x len) (hop : op ∈ oneOps) :
    ∃ t, exec i s = .next t ∧ Lanes s t g x (fun u th => th.setXs x.d.toNat
      (if op = .clz ∨ op = .popc then 1 else x.type.regs) (oneResult op x.type (srcA s (g.issue op x len) u)))
      (g.nextPc len) := by
  have hexec := exec_simt hi s
  fin_cases hop
  iterate 5 exact h.lanes hexec fun _ _ hu => lane1_at hu _ _ _

end

/-- Settles O11: the checks by the field and class lemmas, the results by the law of each operation's bits. -/
theorem oneSourceInstructions : Obligations.OneSourceInstructions := by
  unfold Obligations.OneSourceInstructions
  refine ⟨fun op x hop => ⟨decodeCheck_of_mem_oneOps hop,
    (Op.takesClass_of_mem_oneOps hop).decodeCheck_of_other⟩, fun s g i op x len hi h hop => ?_⟩
  obtain ⟨t, ht, hlanes⟩ := exec_one hi h hop
  have hclass := (Op.takesClass_of_mem_oneOps hop).type_mem h.decodeCheck
  refine ⟨t, _, ht, hlanes, fun u => ?_⟩
  have ha := srcA_lt_of_mem_L s (g.issue op x len) u
  fin_cases hop
  · exact intAbs_eq _ _
  · rfl
  · exact ⟨leadingZeros_le _ _, fun j hj _ => testBit_of_leadingZeros_le (ha hclass) hj,
      testBit_leadingZeros (ha hclass)⟩
  · exact popCount_eq _ _
  · exact fun j hj => testBit_bitReverse _ _ hj

end Sys2Proof.Machine

namespace Sys2Proof

/-! ## Predicate instructions (R206) -/

/-- The predicate instructions (R206). -/
def predOps : List Op := [.pand, .por, .pxor, .pnot, .pset, .pget]

/-- A field that names a predicate above p7 fails R181 step 8. -/
theorem issueCheck_of_predicate {op : Op} {x : Ext} {l : Machine.Launch} {o : Operand}
    (hd : decodeCheck op x = none) (ho : o ∈ op.operands x) (hp : o.pred = true) (hnum : 8 ≤ o.num) :
    Machine.issueCheck op x l = some Cause.illegalRegister := by
  refine Machine.issueCheck_of_illegal hd ho ((o.illegal_iff l.regs).2 ?_)
  simpa [hp] using hnum

theorem pred_d_mem_operands {op : Op} {x : Ext} (hop : op ∈ predOps) (h : op ≠ .pget) :
    ⟨true, x.d.toNat, 1, false, true⟩ ∈ op.operands x := by
  fin_cases hop <;> simp_all [Op.operands, Op.uses, FieldUse.operands]

theorem pred_a_mem_operands {op : Op} {x : Ext} (hop : op ∈ predOps) (h : op ≠ .pset) :
    ⟨true, x.a.toNat, 1, true, false⟩ ∈ op.operands x := by
  fin_cases hop <;> simp_all [Op.operands, Op.uses, FieldUse.operands]

theorem pred_b_mem_operands {op : Op} {x : Ext} (h : op ∈ ([.pand, .por, .pxor] : List Op)) :
    ⟨true, x.b.toNat, 1, true, false⟩ ∈ op.operands x := by
  fin_cases h <;> simp [Op.operands, Op.uses, bOperands]

/-- R206: TY, BSEL and BK must be zero. -/
theorem decodeCheck_of_mem_predOps {op : Op} {x : Ext} (hop : op ∈ predOps) (hlit : x.lit = none)
    (hshort : x.short = false) (h : x.ty ≠ 0 ∨ x.sel ≠ 0 ∨ x.bk = true) :
    decodeCheck op x = some Cause.reservedBits := by
  refine decodeCheck_of_reservedBits (illegalLength_of_no_literal hlit hshort) ?_
  have htypes : (op.uses x).ty = [] := by fin_cases hop <;> rfl
  have hb : (op.uses x).b = .zero ∨ (op.uses x).b = .pred := by fin_cases hop <;> simp [Op.uses]
  have hscope : (op.uses x).scope = false := by fin_cases hop <;> rfl
  rcases h with h | h
  · exact reservedBits_of_ty htypes h
  · exact reservedBits_of_bk_or_sel hb hscope h.symm

/-- R181 step 5 on a base form: a fixed bit that is not as the layout has it. -/
theorem decodeSimt_of_reserved {w : Nat} {op : Op} (hbase : w % 4 = 0) (hop : Op.ofCode (w / 4 % 256) = some op)
    (hne : w / 4 % 256 ≠ 0) (hlay : (op.uses .zero).layout ≠ .none) (h : (op.uses .zero).layout.reserved w = true) :
    decodeSimt w = .trap Cause.reservedBits := by
  simp [decodeSimt, bitsOf_opcode, hne, hop, hbase, hlay, h]

/-- R181 step 4 on a base form: the opcode has none. -/
theorem decodeSimt_of_no_base {w : Nat} {op : Op} (hbase : w % 4 = 0) (hop : Op.ofCode (w / 4 % 256) = some op)
    (hne : w / 4 % 256 ≠ 0) (hlay : (op.uses .zero).layout = .none) :
    decodeSimt w = .trap Cause.illegalLength := by
  simp [decodeSimt, bitsOf_opcode, hne, hop, hbase, hlay]

/-- R206: BK must be zero in the base form. -/
theorem decodeSimt_of_bk {w : Nat} (hbase : w % 4 = 0) (hcode : w / 4 % 256 ∈ [0x40, 0x41, 0x42])
    (hbk : w / 2 ^ 31 % 2 = 1) : decodeSimt w = .trap Cause.reservedBits := by
  have hbit : bitOf w 31 = true := beq_iff_eq.2 hbk
  obtain ⟨op, hop, hlay⟩ : ∃ op, Op.ofCode (w / 4 % 256) = some op ∧ (op.uses .zero).layout = .b3p := by
    generalize w / 4 % 256 = c at hcode
    fin_cases hcode <;> exact ⟨_, rfl, rfl⟩
  exact decodeSimt_of_reserved hbase hop (by rintro h0; simp [h0] at hcode) (by simp [hlay])
    (by rw [hlay]; exact hbit)

end Sys2Proof

namespace Sys2Proof.Machine

theorem ofNat_bit01 (b : Bool) : BitVec.ofNat 32 (bit01 b) = if b then 1 else 0 := by cases b <;> rfl

/-- Settles O14: an operand of each field that names a predicate, and one change of the lane's own thread. -/
theorem predicateInstructions : Obligations.PredicateInstructions := by
  unfold Obligations.PredicateInstructions
  refine ⟨fun op x l hop hd h => ?field, fun op x hop => decodeCheck_of_mem_predOps hop,
    fun w hbase hcode hbk => decodeSimt_of_bk hbase hcode hbk, fun s g i op x len hi h hop => ?lanes⟩
  case field =>
    obtain ⟨hop', hnum⟩ | ⟨hop', hnum⟩ | ⟨hop', hnum⟩ := h
    · exact issueCheck_of_predicate hd (pred_d_mem_operands hop hop') rfl hnum
    · exact issueCheck_of_predicate hd (pred_a_mem_operands hop hop') rfl hnum
    · exact issueCheck_of_predicate hd (pred_b_mem_operands hop') rfl hnum
  case lanes =>
    have hexec := exec_simt hi s
    fin_cases hop
    iterate 4 exact h.lanes hexec fun _ _ hu => congrArg LaneOut.next (hu.modThread_congr rfl)
    · exact h.lanes hexec fun _ _ hu => congrArg LaneOut.next
        (hu.modThread_congr (congrArg (Thread.setP _ _) decide_not.symm))
    · exact h.lanes hexec fun _ _ hu => congrArg LaneOut.next
        (hu.modThread_congr (congrArg (Thread.setX _ _) (ofNat_bit01 _)))

/-! ## Instructions whose squads change their own active threads (R207) -/

/-- Each of the threads has changed by `f`, and nothing else has. -/
structure EachChanged (ts : List Tid) (f : Tid → Thread → Thread) (u v : State) : Prop where
  same : SameButThreads u v
  changed : ∀ t ∈ ts, v.thread t = f t (u.thread t)
  kept : ∀ w, w ∉ ts → v.thread w = u.thread w

theorem eachChanged_nil (f : Tid → Thread → Thread) (u : State) : EachChanged [] f u u :=
  ⟨rfl, by simp, fun _ _ => rfl⟩

theorem eachChanged_foldl {ts : List Tid} (hnd : ts.Nodup) (f : Tid → Thread → Thread) (u : State) :
    EachChanged ts f u (ts.foldl (fun s t => s.modThread t (f t)) u) := by
  obtain ⟨hsame, hchanged, hkept⟩ := modEach (κ := Unit) f ts hnd u
  exact ⟨hsame, hchanged, hkept⟩

theorem eachChanged_writeEach {ts : List Tid} (hnd : ts.Nodup) (k : Issue) (n : Nat) (r : Tid → Nat)
    (u : State) :
    EachChanged ts (fun t th => th.setXs k.x.d.toNat n (r t)) u (u.writeEach k n r ts) :=
  eachChanged_foldl hnd _ u

theorem eachChanged_setPEach {ts : List Tid} (hnd : ts.Nodup) (p : Nat) (b : Tid → Bool) (u : State) :
    EachChanged ts (fun t th => th.setP p (b t)) u (u.setPEach p b ts) :=
  eachChanged_foldl hnd _ u

section
variable {ts : List Tid} {f f' : Tid → Thread → Thread} {u v w : State}

theorem EachChanged.trans (h : EachChanged ts f u v) (h' : EachChanged ts f' v w) :
    EachChanged ts (fun t th => f' t (f t th)) u w where
  same := h.same.trans h'.same
  changed t ht := by rw [h'.changed t ht, h.changed t ht]
  kept t ht := by rw [h'.kept t ht, h.kept t ht]

theorem EachChanged.congr (h : EachChanged ts f u v) (hf : ∀ t ∈ ts, ∀ th, f t th = f' t th) :
    EachChanged ts f' u v where
  same := h.same
  changed t ht := by rw [h.changed t ht, hf t ht]
  kept := h.kept

end

/-- `ts` are the active threads of one squad of a gang, about to act in `u`. -/
structure SquadAt (s u : State) (g : Gang) (x : Ext) (ts : List Tid) : Prop where
  nodup : ts.Nodup
  lane : ∀ t ∈ ts, LaneAt s u t
  peers_eq : ∀ t ∈ ts, peers s g x t = ts

/-- An instruction of which every squad changes its active threads by `f`. -/
theorem Issuing.squads {s : State} {g : Gang} {op : Op} {x : Ext} {len : Nat} {i : Instr}
    {eff : Issue → Sid → List Tid → State → SquadOut} {f : Tid → Thread → Thread}
    (h : Issuing s g op x len) (hexec : exec i s = simtSquad op x len eff s)
    (heff : ∀ q u ts, SquadAt s u g x ts →
      ∃ v, eff (g.issue op x len) q ts u = { s := v } ∧ EachChanged ts f u v) :
    ∃ t, exec i s = .next t ∧ Lanes s t g x f (g.nextPc len) := by
  rw [hexec]
  refine simtSquad_lanes h fun q u hu hstepped => ?_
  have hat : SquadAt s u g x ((g.of q).filter fun t => laneActive x (s.thread t)) :=
    { nodup := (Gang.nodup_of h.distinct q).filter _
      lane := fun t ht => ⟨hu, hstepped t (List.mem_filter.1 ht).1⟩
      peers_eq := fun t ht => by rw [← Gang.of_active, (Gang.mem_of.1 (List.mem_filter.1 ht).1).2] }
  obtain ⟨v, hv, hsame, hchanged, hkept⟩ := heff q u _ hat
  refine ⟨v, hv, hsame, fun t ht hact => ?_, fun t _ hact => hkept t ?_, fun w hw => hkept w ?_⟩
  · rw [hchanged t (List.mem_filter.2 ⟨ht, hact⟩), hstepped t ht]
  · exact fun hmem => absurd (List.mem_filter.1 hmem).2 (by simp [hact])
  · exact fun hmem => hw (List.mem_filter.1 hmem).1

@[simp] theorem Gang.issue_x (g : Gang) (op : Op) (x : Ext) (len : Nat) : (g.issue op x len).x = x := rfl

/-! ## VOTE (R208) -/

theorem length_filter_beq_length (p : Tid → Bool) (ts : List Tid) :
    ((ts.filter p).length == ts.length) = ts.all p := by
  rw [Bool.eq_iff_iff, beq_iff_eq, List.length_filter_eq_length_iff, List.all_eq_true]

theorem decide_filter_eq_self (p : Tid → Bool) (ts : List Tid) : decide (ts.filter p = ts) = ts.all p := by
  rw [Bool.eq_iff_iff, decide_eq_true_iff, List.filter_eq_self, List.all_eq_true]

theorem not_isEmpty_filter (p : Tid → Bool) (ts : List Tid) : (!(ts.filter p).isEmpty) = ts.any p := by
  rw [Bool.eq_iff_iff]
  simp

theorem exec_vote {s : State} {g : Gang} {x : Ext} (h : Issuing s g .vote x x.len) :
    ∃ t, exec (.vote x) s = .next t ∧ Lanes s t g x (fun u th =>
      let ps := peers s g x u
      let yes := fun v => (s.thread v).p x.a.toNat
      match x.sub.toNat with
      | 0 => th.setP x.d.toNat (ps.all yes)
      | 1 => th.setP x.d.toNat (ps.any yes)
      | _ => th.setXs x.d.toNat 2 ((ps.filter yes).foldl (fun m v => m ||| 2 ^ v.lane) 0)) (g.nextPc x.len) := by
  refine h.squads (eff := squadVote) rfl fun q u ts hts => ?_
  have hyes : (ts.filter fun t => (u.thread t).p x.a.toNat) = ts.filter fun t => (s.thread t).p x.a.toNat :=
    List.filter_congr fun t ht => (hts.lane t ht).p _
  rcases hsub : x.sub.toNat with _ | _ | n
  · simp only [squadVote, Gang.issue_x, hsub, hyes, length_filter_beq_length]
    refine ⟨_, rfl, (eachChanged_setPEach hts.nodup _ _ u).congr fun t ht th => ?_⟩
    rw [hts.peers_eq t ht]
  · simp only [squadVote, Gang.issue_x, hsub, hyes, not_isEmpty_filter]
    refine ⟨_, rfl, (eachChanged_setPEach hts.nodup _ _ u).congr fun t ht th => ?_⟩
    rw [hts.peers_eq t ht]
  · simp only [squadVote, Gang.issue_x, hsub, hyes]
    refine ⟨_, rfl, (eachChanged_writeEach hts.nodup _ _ _ u).congr fun t ht th => ?_⟩
    rw [hts.peers_eq t ht]
    rfl

/-! ## SHFL (R209) -/

/-- The lane number that SHFL names, negative where there is no such lane. -/
def shflLaneInt (sub l b : Nat) : Int :=
  match sub with
  | 0 => b
  | 1 => l - b
  | 2 => l + b
  | _ => (l ^^^ b : Nat)

theorem shflLane_eq_some_iff (sub l b n : Nat) :
    shflLane sub l b = some n ↔ (n : Int) = shflLaneInt sub l b := by
  rcases sub with _ | _ | _ | sub
  · simp only [shflLane, shflLaneInt, Option.some.injEq]
    omega
  · simp only [shflLane, shflLaneInt, Option.ite_none_right_eq_some, Option.some.injEq]
    omega
  · simp only [shflLane, shflLaneInt, Option.some.injEq]
    omega
  · simp only [shflLane, shflLaneInt, Option.some.injEq]
    omega

theorem shflSource_eq_find? (u : State) (k : Issue) (ts : List Tid) (t : Tid) :
    shflSource u k ts t = ts.find? fun v =>
      decide ((v.lane : Int) = shflLaneInt k.x.sub.toNat t.lane (operandB u k.x t 1)) := by
  simp only [← shflLane_eq_some_iff, shflSource]
  cases hl : shflLane k.x.sub.toNat t.lane (operandB u k.x t 1) with
  | none => exact (List.find?_eq_none.2 fun v _ => by simp).symm
  | some l => simp [eq_comm, beq_eq_decide]

theorem exec_shfl {s : State} {g : Gang} {x : Ext} (h : Issuing s g .shfl x x.len) :
    ∃ t, exec (.shfl x) s = .next t ∧ Lanes s t g x (fun u th =>
      match (peers s g x u).find? fun v =>
        decide ((v.lane : Int) = shflLaneInt x.sub.toNat u.lane (operandB s x u 1)) with
      | some v => (th.setXs x.d.toNat x.type.regs (srcA s (g.issue .shfl x x.len) v)).setP x.e.toNat true
      | none => (th.setXs x.d.toNat x.type.regs (srcA s (g.issue .shfl x x.len) u)).setP x.e.toNat false)
      (g.nextPc x.len) := by
  refine h.squads (eff := squadShfl) rfl fun q u ts hts => ⟨_, rfl,
    ((eachChanged_writeEach hts.nodup _ _ _ u).trans (eachChanged_setPEach hts.nodup _ _ _)).congr
      fun t ht th => ?_⟩
  have hsource : shflSource u (g.issue .shfl x x.len) ts t = ts.find? fun v =>
      decide ((v.lane : Int) = shflLaneInt x.sub.toNat t.lane (operandB s x t 1)) := by
    rw [shflSource_eq_find?, (hts.lane t ht).operandB]
    rfl
  rw [hts.peers_eq t ht, ← hsource]
  cases hfind : shflSource u (g.issue .shfl x x.len) ts t with
  | none => simp [(hts.lane t ht).srcA]
  | some v => simp [(hts.lane v (List.mem_of_find?_eq_some (hsource ▸ hfind))).srcA]

/-! ## ELECT and MATCH (R211) -/

theorem exec_elect {s : State} {g : Gang} {i : Instr} {x : Ext} {len : Nat} (hi : i.simt = some (.elect, x, len))
    (h : Issuing s g .elect x len) :
    ∃ t, exec i s = .next t ∧ Lanes s t g x (fun u th =>
      (th.setP x.d.toNat (decide ((peers s g x u).head? = some u))).setX x.e.toNat
        (BitVec.ofNat 32 (((peers s g x u).head?.map Tid.lane).getD 0))) (g.nextPc len) := by
  refine h.squads (eff := squadElect) (exec_simt hi s) fun q u ts hts => ?_
  cases ts with
  | nil => exact ⟨u, rfl, eachChanged_nil _ u⟩
  | cons v vs =>
    refine ⟨_, rfl, ((eachChanged_setPEach hts.nodup _ _ u).trans (eachChanged_foldl hts.nodup _ _)).congr
      fun t ht th => ?_⟩
    rw [hts.peers_eq t ht]
    simp [eq_comm, beq_eq_decide]

theorem exec_match {s : State} {g : Gang} {i : Instr} {x : Ext} {len : Nat} (hi : i.simt = some (.match, x, len))
    (h : Issuing s g .match x len) :
    ∃ t, exec i s = .next t ∧ Lanes s t g x (fun u th =>
      let ps := peers s g x u
      let same := ps.filter fun v =>
        decide (srcA s (g.issue .match x len) v = srcA s (g.issue .match x len) u)
      (th.setXs x.d.toNat 2 (same.foldl (fun m v => m ||| 2 ^ v.lane) 0)).setP x.e.toNat
        (decide (same = ps))) (g.nextPc len) := by
  refine h.squads (eff := squadMatch) (exec_simt hi s) fun q u ts hts => ⟨_, rfl,
    ((eachChanged_writeEach hts.nodup _ _ _ u).trans (eachChanged_setPEach hts.nodup _ _ _)).congr
      fun t ht th => ?_⟩
  have hsame : (ts.filter fun v => srcA u (g.issue .match x len) v == srcA u (g.issue .match x len) t) =
      ts.filter fun v => decide (srcA s (g.issue .match x len) v = srcA s (g.issue .match x len) t) :=
    List.filter_congr fun v hv => by rw [(hts.lane v hv).srcA, (hts.lane t ht).srcA, beq_eq_decide]
  simp only [hts.peers_eq t ht, hsame, length_filter_beq_length, decide_filter_eq_self]
  rfl

end Sys2Proof.Machine

namespace Sys2Proof

/-! ## The decode checks of the squad instructions -/

/-- The checks before step 7 see of SUB only whether it is assigned, so one that is not traps ILLEGAL_SUBOP. -/
theorem decodeCheck_of_other_sub {op : Op} {x : Ext} (h0 : decodeCheck op { x with sub := 0 } = none)
    (hmark : (op.uses { x with sub := 0 }).mark = .none)
    (hlen : illegalLength op { x with sub := 0 } = illegalLength op x)
    (hres : reservedBits op { x with sub := 0 } = reservedBits op x)
    (htype : illegalType op { x with sub := 0 } = illegalType op x) (hsub : illegalSubop op x = true) :
    decodeCheck op x = some Cause.illegalSubop := by
  obtain ⟨hlen0, hres0, -, htype0, -⟩ := decodeCheck_eq_none_iff.1 h0
  have hshort : x.short = false := short_of_illegalLength (x := { x with sub := 0 }) hmark hlen0
  exact decodeCheck_of_illegalSubop (hlen ▸ hlen0) (hres ▸ hres0) (shortFields_of_not_short hshort)
    (htype ▸ htype0) hsub

theorem decodeCheck_vote_of_sub {x : Ext} (h0 : decodeCheck .vote { x with sub := 0 } = none)
    (hsub : 3 ≤ x.sub.toNat) : decodeCheck .vote x = some Cause.illegalSubop := by
  have huses : Op.vote.uses x = { Op.vote.uses { x with sub := 0 } with d := .wr 2 } := by
    simp [Op.uses, show ¬ x.sub.toNat < 2 by omega]
  refine decodeCheck_of_other_sub h0 rfl rfl ?_ rfl ?_
  · unfold reservedBits
    rw [huses]
    rfl
  · simp [illegalSubop, Op.uses, upTo, hsub]

theorem decodeCheck_shfl_of_sub {x : Ext} (h0 : decodeCheck .shfl { x with sub := 0 } = none)
    (hsub : 4 ≤ x.sub.toNat) : decodeCheck .shfl x = some Cause.illegalSubop := by
  have hclass : Op.shfl.TakesClass Ty.L := Op.takesClass_of_mem_squad (by decide)
  refine decodeCheck_of_other_sub h0 rfl rfl rfl ?_ ?_
  · rw [Bool.eq_iff_iff, hclass.illegalType_iff, hclass.illegalType_iff]
  · simp [illegalSubop, Op.uses, upTo, hsub]

/-- VOTE, SHFL, ELECT and MATCH have no base form (R208, R209, R211). -/
theorem decodeSimt_of_squad {w : Nat} (hbase : w % 4 = 0) (hcode : w / 4 % 256 ∈ [0x46, 0x47, 0x4B, 0x4C]) :
    decodeSimt w = .trap Cause.illegalLength := by
  obtain ⟨op, hop, hlay⟩ : ∃ op, Op.ofCode (w / 4 % 256) = some op ∧ (op.uses .zero).layout = .none := by
    generalize w / 4 % 256 = c at hcode
    fin_cases hcode <;> exact ⟨_, rfl, rfl⟩
  exact decodeSimt_of_no_base hbase hop (by rintro h0; simp [h0] at hcode) hlay

end Sys2Proof

namespace Sys2Proof.Machine

/-- Settles O15: the checks one by one, and each squad's active threads changed as `Issuing.squads` asks. -/
theorem votesShufflesElections : Obligations.VotesShufflesElections := by
  unfold Obligations.VotesShufflesElections
  refine ⟨⟨fun x => decodeCheck_vote_of_sub, fun s g x h => exec_vote h⟩,
    ⟨fun x => decodeCheck_shfl_of_sub,
      fun op x hop => (Op.takesClass_of_mem_squad hop).decodeCheck_of_other, fun s g x h => exec_shfl h⟩,
    fun w hbase hcode => decodeSimt_of_squad hbase hcode, fun x hlit hshort hty => ?elect,
    fun s g i op x len hi h hop => ?lanes⟩
  case elect =>
    exact decodeCheck_of_reservedBits (illegalLength_of_no_literal hlit hshort) (reservedBits_of_ty rfl hty)
  case lanes =>
    fin_cases hop
    · exact exec_elect hi h
    · exact exec_match hi h

end Sys2Proof.Machine
